-- ==== Sys2Proof/Word.lean ====
section
/-! DEFINITION. The word types of the LF-AX960: the 64-bit word (R8), the 128-byte row (R136), bytes, sparse stores
in one canonical form, and the exact numbers between roundings (R86). -/

namespace Sys2Proof

/-- A 64-bit word: a syllable, a scalar register, a tagged pointer (R8, R136). -/
abbrev Word := BitVec 64

/-- One byte of memory. -/
abbrev Byte := BitVec 8

/-- A string of bytes, lowest address first (R8). -/
abbrev Bytes := List (BitVec 8)

/-- A row of an accumulator bank, 128 bytes; byte 0 is bits 7:0 (R72, R136). -/
abbrev Row := BitVec 1024

/-- A sparse store: keys strictly rising, and no entry equal to the value an unlisted key reads as. -/
abbrev Store (α : Type) := List (Nat × α)

/-- A memory: bytes by address. -/
abbrev Memory := List (Nat × BitVec 8)

/-- An exact dyadic rational with a signed zero: (-1)^neg · man · 2^exp (R86). -/
structure Dy where
  neg : Bool
  man : Nat
  exp : Int
deriving DecidableEq, Repr, Inhabited

/-- A value inside an exact computation: finite, infinite or NaN (R73, R86). -/
inductive Val where
  | fin (d : Dy)
  | inf (neg : Bool)
  | nan
deriving DecidableEq, Repr, Inhabited

end Sys2Proof
end

