-- ==== Sys2Proof/Config.lean ====
section
/-! DEFINITION. What the manual leaves to the implementation or leaves open: free values with no body, so that no
proof can lean on one. Each is named in the assumption log. -/

namespace Sys2Proof

/-- Contents of a register position that the device leaves unspecified (R152), by the counter `State.free`. DEDUCED, log entry 35. -/
opaque Config.freeWord : Nat → Word

/-- The destination code of a landing record, word 2 (R321 gives no codes), by the kind and number that `Land.dest` gives. DESIGN CHOICE, log entry 39. -/
opaque Config.destCode : Nat → Nat → Word

/-- A row that the spec leaves without a value (R133), by the counter `State.free`. DESIGN CHOICE, log entry 96. -/
opaque Config.freeRow : Nat → Row

/-- A byte that the spec leaves without a value (R133, R332), by the counter `State.free`. DESIGN CHOICE, log entry 96. -/
opaque Config.freeByte : Nat → Byte

/-- The cycles of a bank lost by a requester on a core, 32·requester + bank, between two wall times (R355). DESIGN CHOICE, log entry 49. -/
opaque Config.lostCycles : Nat → Nat → Nat → Nat → BitVec 16

/-- Fused Vmin and frequency of fuse point i (R373: fused). DESIGN CHOICE, log entry 39. -/
opaque Config.vft : Nat → Word

/-- The fused voltage of rail r at reset (R373: fused). DESIGN CHOICE, log entry 39. -/
opaque Config.railFused : Nat → Nat

/-- The package power in mW latched at a fix (R373), by the wall counter. DESIGN CHOICE, log entry 39. -/
opaque Config.power : Nat → BitVec 32

/-- Whether the modelled package power at a frequency fits a limit in watts (R379). DESIGN CHOICE, log entry 39. -/
opaque Config.fits : Nat → Nat → Bool

/-- The energy, in 2^-20 µJ, of the cores of partition p in the k-th nanosecond that they count (R382). DESIGN CHOICE, log entry 39. -/
opaque Config.coreEnergy : Nat → Nat → Nat

/-- The energy, in 2^-20 µJ, of a transfer of n bytes uncoded (R382): kind 0 HBM, 1 graticule. DESIGN CHOICE, log entry 39. -/
opaque Config.transferEnergy : Nat → Nat → Nat

/-- What the coding of a transfer of bytes saves of that (R383). DESIGN CHOICE, log entry 39. -/
opaque Config.transferCredit : Nat → Bytes → Nat

/-- The fused digest of the verifying key (R394). PRESUMED, log entry 38. -/
opaque Config.keyDigest : Bytes

/-- The fused minimum security version of a stage (R394). PRESUMED, log entry 38. -/
opaque Config.minVersion : Nat → Nat

/-- The device key, from a fused seed that never leaves the root (R396). DESIGN CHOICE, log entry 39. -/
opaque Config.deviceKey : Nat

/-- The nonce with which the root signs a digest (R396). DESIGN CHOICE, log entry 39. -/
opaque Config.signNonce : Bytes → Nat

/-- The DER certificate of the device key (R396). PRESUMED, log entry 38. -/
opaque Config.certificate : Bytes

/-- The HBM channel that holds a physical address (R400 names no interleave). DESIGN CHOICE, log entry 39. -/
opaque Config.channelOf : Nat → Nat

/-- The HBM stack of a channel (R1, R400). DESIGN CHOICE, log entry 39. -/
opaque Config.stackOf : Nat → Fin 8

/-- The retention image of a cluster in the firmware's own format (R386): by cluster, losses so far, the image last read back, wall time and byte
offset. DESIGN CHOICE, log entry 39. -/
opaque Config.retention : Nat → Nat → Option Bytes → Nat → Nat → Byte

/-- The HBM page, of 8 KiB, at which the save image of a context on a core begins (R332). DESIGN CHOICE, log entry 101. -/
opaque Config.imagePage : Nat → Nat → Nat

/-- A byte of a save image that has not been written (R332): context, core, T_s and offset. DESIGN CHOICE, log entry 101. -/
opaque Config.imageByte : Nat → Nat → Nat → Nat → Byte

/-- Whether a rail moves by 1 mV in a step of its highest rate (R376 gives no other): rail, start, step. DEDUCED, log entry 64. -/
opaque Config.railMoves : Nat → Nat → Nat → Bool

/-- How much less a stretched reference clock has counted over a span that begins at a wall time (R378): start, length. DESIGN CHOICE, log entry 37. -/
opaque Config.stretched : Nat → Nat → Nat

/-- The node id of this device in the graticule (R1: 0 to 1,023). DESIGN CHOICE, log entry 39. -/
opaque Config.nodeId : BitVec 10

end Sys2Proof
end

