-- ==== Sys2Proof/Syntax.lean ====
section
/-! DEFINITION. The whole syntax: one constructor per row of spec/opcode_table.json. A syllable's constructor carries its
guard (R36; not the twin, R33) and its operand fields in the order of its format (R41 to R44). A machine event carries where
it happens and what came from outside the device. -/

namespace Sys2Proof

/-- One compact half of a twin syllable (R42): `low` is bits 11:0, an immediate when i = 1, else rs2 in 11:7. -/
structure TwinHalf where
  op : BitVec 5
  rd : BitVec 5
  rs1 : BitVec 5
  i : BitVec 1
  low : BitVec 12
deriving DecidableEq, Repr

/-- The two streams of a core (R34, R136). -/
inductive Strm where
  | x
  | a
deriving DecidableEq, Repr

/-- Where the code service and the runtime place an image that LOAD maps (R12, R15, R21): its virtual base, the physical
base of the pages, and the handle values bound to symbol names. DESIGN CHOICE, log entry 31. -/
structure Placement where
  va : Word
  pa : Nat
  handles : List (Bytes × Word)
deriving DecidableEq, Repr

/-- A supervisor's edit of one core's save image (R332, R333): the number of survey records it leaves, bytes of bank 31
it rewrites, and the HELDACC and CLAIMSL bits it keeps. -/
structure CoreEdit where
  core : Nat
  n : Nat
  bank31 : List (Nat × BitVec 8)
  held : Word
  claim : Word
deriving DecidableEq, Repr

/-- The supervisor's edits of a context, core by core. -/
abbrev Edits := List CoreEdit

/-- What a peer's space-2 access does at its target (R254, R278, R292). -/
inductive PeerOp where
  /-- a read of len bytes -/
  | read (len : Nat)
  /-- a write of the bytes -/
  | write (data : Bytes)
  /-- an atomic: its opcode (R291), log2 of its size, its operand and the ACAS new value -/
  | atomic (op : Nat) (sz : Nat) (operand new : Word)
  /-- an AWAIT: log2 of its size, its condition and its operand (R295, R399) -/
  | await (sz cond : Nat) (operand : Word)
deriving DecidableEq, Repr

/-- A space-2 access that arrives from a node at an offset of the shared window (R254). -/
structure PeerAccess where
  node : Nat
  part : Nat
  off : Nat
  op : PeerOp
deriving DecidableEq, Repr

/-- Who writes WAKE.SET (R388): a management core, or an Ethernet client of a partition. -/
inductive ClientId where
  | mgmt (core : Nat)
  | client (part : Nat)
deriving DecidableEq, Repr

/-- A firmware stage image as the Balore root is given it (R394): its stage, the stage that a stage of 4 or later updates, its bytes, key,
signature, security version, the system address at which its code stands and its entry. -/
structure StageImage where
  stage : Nat
  updates : Nat
  image : Bytes
  key : Bytes
  sig : Bytes
  version : Nat
  base : Nat
  entry : Nat
deriving DecidableEq, Repr

/-- A register that a write names: in a partition's system window (R92, R258, R341, R367), in the power controller's window
(R373, R384) or in the Balore window (R261, R397). -/
inductive RegTarget where
  | part (p off : Nat)
  | power (off : Nat)
  | balore (off : Nat)
deriving DecidableEq, Repr

/-- What the management firmware gives a partition (R91, R254): its cores, its peer set with window sizes, and the physical
base and size of this device's shared window. -/
structure PartConfig where
  cores : List Nat
  peers : List (Nat × Nat)
  windowBase : Nat
  windowSize : Nat
deriving DecidableEq, Repr

/-- The instructions and machine events of the opcode table, in the table's order. -/
inductive Instr where
  /-- ADD (R157): Writes rs1 + rs2 modulo 2^64 to rd after 1 control cycle. -/
  | add (g : BitVec 4) (rd : BitVec 5) (rs1 : BitVec 5) (rs2 : BitVec 5)
  /-- SUB (R157): Writes rs1 - rs2 modulo 2^64 to rd. -/
  | sub (g : BitVec 4) (rd : BitVec 5) (rs1 : BitVec 5) (rs2 : BitVec 5)
  /-- MUL (R158): Writes the low 64 bits of rs1 times rs2 to rd. -/
  | mul (g : BitVec 4) (rd : BitVec 5) (rs1 : BitVec 5) (rs2 : BitVec 5)
  /-- MULH (R158): Writes the high 64 bits of the signed product to rd. -/
  | mulh (g : BitVec 4) (rd : BitVec 5) (rs1 : BitVec 5) (rs2 : BitVec 5)
  /-- MULHN (R158): Writes the high 64 bits of the unsigned product to rd. -/
  | mulhn (g : BitVec 4) (rd : BitVec 5) (rs1 : BitVec 5) (rs2 : BitVec 5)
  /-- DIV (R158): Signed division toward zero, with fixed results for a zero divisor and for overflow. -/
  | div (g : BitVec 4) (rd : BitVec 5) (rs1 : BitVec 5) (rs2 : BitVec 5)
  /-- DIVN (R158): Unsigned division; all ones for a zero divisor. -/
  | divn (g : BitVec 4) (rd : BitVec 5) (rs1 : BitVec 5) (rs2 : BitVec 5)
  /-- REM (R158): Signed remainder with the sign of the dividend; rs1 for a zero divisor. -/
  | rem (g : BitVec 4) (rd : BitVec 5) (rs1 : BitVec 5) (rs2 : BitVec 5)
  /-- REMN (R158): Unsigned remainder; rs1 for a zero divisor. -/
  | remn (g : BitVec 4) (rd : BitVec 5) (rs1 : BitVec 5) (rs2 : BitVec 5)
  /-- AND (R157): Bitwise AND of rs1 and rs2 into rd. -/
  | and (g : BitVec 4) (rd : BitVec 5) (rs1 : BitVec 5) (rs2 : BitVec 5)
  /-- OR (R157): Bitwise OR of rs1 and rs2 into rd. -/
  | or (g : BitVec 4) (rd : BitVec 5) (rs1 : BitVec 5) (rs2 : BitVec 5)
  /-- XOR (R157): Bitwise XOR of rs1 and rs2 into rd. -/
  | xor (g : BitVec 4) (rd : BitVec 5) (rs1 : BitVec 5) (rs2 : BitVec 5)
  /-- ANDN (R157): rs1 AND NOT rs2 into rd. -/
  | andn (g : BitVec 4) (rd : BitVec 5) (rs1 : BitVec 5) (rs2 : BitVec 5)
  /-- SHL (R157): Shifts rs1 left by rs2[5:0]. -/
  | shl (g : BitVec 4) (rd : BitVec 5) (rs1 : BitVec 5) (rs2 : BitVec 5)
  /-- SHR (R157): Logical right shift of rs1 by rs2[5:0]. -/
  | shr (g : BitVec 4) (rd : BitVec 5) (rs1 : BitVec 5) (rs2 : BitVec 5)
  /-- SAR (R157): Arithmetic right shift of rs1 by rs2[5:0]. -/
  | sar (g : BitVec 4) (rd : BitVec 5) (rs1 : BitVec 5) (rs2 : BitVec 5)
  /-- ROTR (R157): Rotates rs1 right by rs2[5:0]. -/
  | rotr (g : BitVec 4) (rd : BitVec 5) (rs1 : BitVec 5) (rs2 : BitVec 5)
  /-- MIN (R157): Signed minimum of rs1 and rs2. -/
  | min (g : BitVec 4) (rd : BitVec 5) (rs1 : BitVec 5) (rs2 : BitVec 5)
  /-- MAX (R157): Signed maximum of rs1 and rs2. -/
  | max (g : BitVec 4) (rd : BitVec 5) (rs1 : BitVec 5) (rs2 : BitVec 5)
  /-- MINN (R157): Unsigned minimum of rs1 and rs2. -/
  | minn (g : BitVec 4) (rd : BitVec 5) (rs1 : BitVec 5) (rs2 : BitVec 5)
  /-- MAXN (R157): Unsigned maximum of rs1 and rs2. -/
  | maxn (g : BitVec 4) (rd : BitVec 5) (rs1 : BitVec 5) (rs2 : BitVec 5)
  /-- CLZ (R157): Counts the leading zero bits of rs1; 64 for zero. -/
  | clz (g : BitVec 4) (rd : BitVec 5) (rs1 : BitVec 5)
  /-- CTZ (R157): Counts the trailing zero bits of rs1; 64 for zero. -/
  | ctz (g : BitVec 4) (rd : BitVec 5) (rs1 : BitVec 5)
  /-- POPC (R157): Counts the one bits of rs1. -/
  | popc (g : BitVec 4) (rd : BitVec 5) (rs1 : BitVec 5)
  /-- MOV (R157): Copies rs1 into rd. -/
  | mov (g : BitVec 4) (rd : BitVec 5) (rs1 : BitVec 5)
  /-- SEXT (R159): Sign-extends the low w bits of rs1. -/
  | sext (g : BitVec 4) (rd : BitVec 5) (rs1 : BitVec 5) (len : BitVec 6)
  /-- ZEXT (R159): Zero-extends the low w bits of rs1. -/
  | zext (g : BitVec 4) (rd : BitVec 5) (rs1 : BitVec 5) (len : BitVec 6)
  /-- BFX (R159): Extracts a bit field of rs1 and zero-extends it. -/
  | bfx (g : BitVec 4) (rd : BitVec 5) (rs1 : BitVec 5) (pos : BitVec 6) (len : BitVec 6)
  /-- BFI (R159): Inserts the low w bits of rs2 into a field of rs1. -/
  | bfi (g : BitVec 4) (rd : BitVec 5) (rs1 : BitVec 5) (rs2 : BitVec 5) (pos : BitVec 6) (len : BitVec 6)
  /-- SEL (R159): Selects rs1 or rs2 according to a c register read at issue. -/
  | sel (g : BitVec 4) (rd : BitVec 5) (rs1 : BitVec 5) (rs2 : BitVec 5) (cc : BitVec 3)
  /-- ADDI (R160): Adds a sign-extended 34-bit immediate to rs1. -/
  | addi (g : BitVec 4) (rd : BitVec 5) (rs1 : BitVec 5) (imm : BitVec 34)
  /-- ANDI (R160): ANDs rs1 with a sign-extended immediate. -/
  | andi (g : BitVec 4) (rd : BitVec 5) (rs1 : BitVec 5) (imm : BitVec 34)
  /-- ORI (R160): ORs rs1 with a sign-extended immediate. -/
  | ori (g : BitVec 4) (rd : BitVec 5) (rs1 : BitVec 5) (imm : BitVec 34)
  /-- XORI (R160): XORs rs1 with a sign-extended immediate. -/
  | xori (g : BitVec 4) (rd : BitVec 5) (rs1 : BitVec 5) (imm : BitVec 34)
  /-- SHLI (R160): Shifts rs1 left by an immediate from 0 to 63. -/
  | shli (g : BitVec 4) (rd : BitVec 5) (rs1 : BitVec 5) (n : BitVec 6)
  /-- SHRI (R160): Logical right shift of rs1 by an immediate. -/
  | shri (g : BitVec 4) (rd : BitVec 5) (rs1 : BitVec 5) (n : BitVec 6)
  /-- SARI (R160): Arithmetic right shift of rs1 by an immediate. -/
  | sari (g : BitVec 4) (rd : BitVec 5) (rs1 : BitVec 5) (n : BitVec 6)
  /-- LI (R161): Loads a sign-extended 32-bit immediate into rd. -/
  | li (g : BitVec 4) (rd : BitVec 5) (imm : BitVec 32)
  /-- LIH (R161): Replaces the upper 32 bits of rd with an immediate and keeps the lower 32 bits. -/
  | lih (g : BitVec 4) (rd : BitVec 5) (imm : BitVec 32)
  /-- ADDPC (R161): Writes the syllable's own address plus a signed byte offset to rd. -/
  | addpc (g : BitVec 4) (rd : BitVec 5) (imm : BitVec 32)
  /-- CMP (R162): Compares two registers and writes a c pair. -/
  | cmp (g : BitVec 4) (cd : BitVec 3) (rs1 : BitVec 5) (rs2 : BitVec 5) (cond : BitVec 4)
  /-- CMPI (R162): Compares a register with an immediate and writes a c pair. -/
  | cmpi (g : BitVec 4) (cd : BitVec 3) (rs1 : BitVec 5) (cond : BitVec 4) (imm : BitVec 30)
  /-- TWIN (R42): A T-class syllable that performs two compact scalar operations, each as its S-class equivalent. -/
  | twin (a b : TwinHalf)
  /-- NOP (R185): Does nothing in either stream. -/
  | nop (g : BitVec 4)
  /-- PBR (R164): Loads a b register with a PC-relative target and starts its fetch-ahead. -/
  | pbr (g : BitVec 4) (bd : BitVec 3) (off : BitVec 32)
  /-- PBRX (R164): Loads a b register from a scalar register and starts its fetch-ahead. -/
  | pbrx (g : BitVec 4) (bd : BitVec 3) (rs : BitVec 5)
  /-- BR (R165): Redirects issue to the bundle at a b register when the guard is true. -/
  | br (g : BitVec 4) (bd : BitVec 3)
  /-- CALL (R165): Moves the register window, records the return point and redirects issue. -/
  | call (g : BitVec 4) (bd : BitVec 3) (fr : BitVec 3)
  /-- RET (R165): Returns to the link's or b7's return point and restores the window. -/
  | ret (g : BitVec 4)
  /-- LOOP (R169): Starts a hardware loop level with an immediate trip count. -/
  | loop (g : BitVec 4) (lv : BitVec 3) (stop : BitVec 17) (trip : BitVec 24)
  /-- LOOPX (R169): Starts a hardware loop level with a register trip count. -/
  | loopx (g : BitVec 4) (lv : BitVec 3) (stop : BitVec 17) (rs : BitVec 5)
  /-- LOOP_R (R172): Starts a rotating loop with stage predicates and vector renaming, with an immediate trip count. -/
  | loopR (g : BitVec 4) (lv : BitVec 3) (stop : BitVec 12) (stg : BitVec 3) (vb : BitVec 10) (sm : BitVec 6) (trip : BitVec 10)
  /-- LOOPX_R (R172): Starts a rotating loop whose trip count is taken from a register. -/
  | loopxR (g : BitVec 4) (lv : BitVec 3) (stop : BitVec 12) (stg : BitVec 3) (vb : BitVec 10) (sm : BitVec 6) (rs : BitVec 5)
  /-- LEXIT (R170): Deactivates a loop level and those inside it, and continues at its end. -/
  | lexit (g : BitVec 4) (lv : BitVec 3)
  /-- ALIGN (R110): Stops the chart clock and arrives at the group's alignment. -/
  | align (g : BitVec 4)
  /-- CONTOUR (R176): Passes a contour, which applies a pending BWPH, pending divisors and patches and sets CONTID. -/
  | contour (g : BitVec 4) (id : BitVec 16)
  /-- WAIT (R179): Adds n scheduled cycles after its bundle. -/
  | wait (g : BitVec 4) (n : BitVec 24)
  /-- CLKDIV (R177): Writes pending divisors into DIVP for the next contour. -/
  | clkdiv (g : BitVec 4) (rs : BitVec 5)
  /-- MFS (R180): Reads a system register into rd; on the A-stream, the AQ numbers pop aq0 or aq1. -/
  | mfs (g : BitVec 4) (rd : BitVec 5) (sys : BitVec 12)
  /-- MTS (R180): Writes the writable fields of a system register. -/
  | mts (g : BitVec 4) (rs : BitVec 5) (sys : BitVec 12)
  /-- EXIT (R182): Ends issue on the stream; results already in flight still land. -/
  | exit (g : BitVec 4)
  /-- TRAP (R183): Stops the core after its bundle with cause TRAP and a code. -/
  | trap (g : BitVec 4) (code : BitVec 16)
  /-- BKPT (R183): Stops the core after its bundle with cause BREAKPOINT and a code. -/
  | bkpt (g : BitVec 4) (code : BitVec 16)
  /-- TRMARK (R184): Emits a trace record with a tag and the issue tick when the stream is traced. -/
  | trmark (g : BitVec 4) (tag : BitVec 32)
  /-- FIX (R353): Raises a partition-scope fix, which latches snapshots and writes FIX trace records. -/
  | fix (g : BitVec 4)
  /-- RESUME (R329): Validates the survey, reissues it in two phases and leaves handler mode. -/
  | resume (g : BitVec 4) (rs1 : BitVec 5)
  /-- SVCHK (R328): Validates survey records against R327 and returns a result code. -/
  | svchk (g : BitVec 4) (rd : BitVec 5) (rs1 : BitVec 5)
  /-- VADD (R188): Adds lanes in the bank's type. -/
  | vadd (g : BitVec 4) (vd : BitVec 10) (va : BitVec 10) (vb : BitVec 10) (rnd : BitVec 4)
  /-- VSUB (R188): Subtracts lanes in the bank's type. -/
  | vsub (g : BitVec 4) (vd : BitVec 10) (va : BitVec 10) (vb : BitVec 10) (rnd : BitVec 4)
  /-- VMUL (R188): Multiplies lanes; integer lanes saturate. -/
  | vmul (g : BitVec 4) (vd : BitVec 10) (va : BitVec 10) (vb : BitVec 10) (rnd : BitVec 4)
  /-- VFMA (R188): Fused multiply-add of lanes with one rounding. -/
  | vfma (g : BitVec 4) (vd : BitVec 10) (va : BitVec 10) (vb : BitVec 10) (vc : BitVec 10) (rnd : BitVec 4)
  /-- VFMS (R188): Fused multiply-subtract of lanes with one rounding. -/
  | vfms (g : BitVec 4) (vd : BitVec 10) (va : BitVec 10) (vb : BitVec 10) (vc : BitVec 10) (rnd : BitVec 4)
  /-- VMIN (R188): Lane minimum. -/
  | vmin (g : BitVec 4) (vd : BitVec 10) (va : BitVec 10) (vb : BitVec 10)
  /-- VMAX (R188): Lane maximum. -/
  | vmax (g : BitVec 4) (vd : BitVec 10) (va : BitVec 10) (vb : BitVec 10)
  /-- VABS (R188): Lane absolute value. -/
  | vabs (g : BitVec 4) (vd : BitVec 10) (va : BitVec 10)
  /-- VNEG (R188): Lane negation. -/
  | vneg (g : BitVec 4) (vd : BitVec 10) (va : BitVec 10)
  /-- VADDS (R188): Saturating lane addition. -/
  | vadds (g : BitVec 4) (vd : BitVec 10) (va : BitVec 10) (vb : BitVec 10) (rnd : BitVec 4)
  /-- VSUBS (R188): Saturating lane subtraction. -/
  | vsubs (g : BitVec 4) (vd : BitVec 10) (va : BitVec 10) (vb : BitVec 10) (rnd : BitVec 4)
  /-- VMULLO (R188): Low w bits of the lane products, taken as integers. -/
  | vmullo (g : BitVec 4) (vd : BitVec 10) (va : BitVec 10) (vb : BitVec 10)
  /-- VMULH (R188): High w bits of the signed or unsigned lane products. -/
  | vmulh (g : BitVec 4) (vd : BitVec 10) (va : BitVec 10) (vb : BitVec 10) (u : BitVec 4)
  /-- VRSHR (R189): Rounding arithmetic right shift of lanes. -/
  | vrshr (g : BitVec 4) (vd : BitVec 10) (va : BitVec 10) (n : BitVec 6)
  /-- VSHL (R189): Left shift of lane bits. -/
  | vshl (g : BitVec 4) (vd : BitVec 10) (va : BitVec 10) (n : BitVec 6)
  /-- VSHR (R189): Logical right shift of lane bits. -/
  | vshr (g : BitVec 4) (vd : BitVec 10) (va : BitVec 10) (n : BitVec 6)
  /-- VSAR (R189): Arithmetic right shift of lane bits. -/
  | vsar (g : BitVec 4) (vd : BitVec 10) (va : BitVec 10) (n : BitVec 6)
  /-- VAND (R188): Bitwise AND of lanes. -/
  | vand (g : BitVec 4) (vd : BitVec 10) (va : BitVec 10) (vb : BitVec 10)
  /-- VOR (R188): Bitwise OR of lanes. -/
  | vor (g : BitVec 4) (vd : BitVec 10) (va : BitVec 10) (vb : BitVec 10)
  /-- VXOR (R188): Bitwise XOR of lanes. -/
  | vxor (g : BitVec 4) (vd : BitVec 10) (va : BitVec 10) (vb : BitVec 10)
  /-- VNOT (R188): Bitwise NOT of lanes. -/
  | vnot (g : BitVec 4) (vd : BitVec 10) (va : BitVec 10)
  /-- VCMP (R191): Compares lanes into a predicate pair and clears bits L to 63. -/
  | vcmp (g : BitVec 4) (pd : BitVec 4) (va : BitVec 10) (vb : BitVec 10) (cond : BitVec 4)
  /-- VSEL (R192): Selects lanes from two rows by a predicate. -/
  | vsel (g : BitVec 4) (vd : BitVec 10) (va : BitVec 10) (vb : BitVec 10) (ps : BitVec 4)
  /-- VMOV (R192): Copies a row lane by lane. -/
  | vmov (g : BitVec 4) (vd : BitVec 10) (va : BitVec 10)
  /-- VMOVI (R190): Writes immediate bits into every lane. -/
  | vmovi (g : BitVec 4) (vd : BitVec 10) (imm : BitVec 24)
  /-- VBC (R190): Broadcasts a scalar register into every lane. -/
  | vbc (g : BitVec 4) (vd : BitVec 10) (rs : BitVec 5)
  /-- VIOTA (R190): Writes the immediate plus the lane number into each lane. -/
  | viota (g : BitVec 4) (vd : BitVec 10) (imm : BitVec 24)
  /-- VPERM (R192): Permutes lanes of two rows by an index row. -/
  | vperm (g : BitVec 4) (vd : BitVec 10) (va : BitVec 10) (vi : BitVec 10) (vb : BitVec 10)
  /-- VROTL (R189): Rotates lanes by n positions. -/
  | vrotl (g : BitVec 4) (vd : BitVec 10) (va : BitVec 10) (n : BitVec 6)
  /-- VCVT (R193): Converts lanes between bank types. -/
  | vcvt (g : BitVec 4) (vd : BitVec 10) (va : BitVec 10) (rnd : BitVec 4)
  /-- VPACK (R194): Narrows two rows into a 16-bit or byte format. -/
  | vpack (g : BitVec 4) (vd : BitVec 10) (va : BitVec 10) (vb : BitVec 10) (tg : BitVec 4) (rnd : BitVec 4)
  /-- VUNPK (R194): Widens one part of a row into a 32-bit type. -/
  | vunpk (g : BitVec 4) (vd : BitVec 10) (va : BitVec 10) (pt : BitVec 2) (tg : BitVec 4) (rnd : BitVec 4)
  /-- VQBX (R195): Quantises lanes into BX blocks. -/
  | vqbx (g : BitVec 4) (vd : BitVec 10) (va : BitVec 10) (bf : BitVec 4) (rnd : BitVec 4)
  /-- VDQBX (R195): Dequantises BX blocks into lanes. -/
  | vdqbx (g : BitVec 4) (vd : BitVec 10) (va : BitVec 10) (bf : BitVec 4)
  /-- VRED (R196): Reduces all lanes by sum, max or min into lane 0. -/
  | vred (g : BitVec 4) (vd : BitVec 10) (va : BitVec 10) (op : BitVec 2) (rnd : BitVec 4)
  /-- VFLAG (R197): Tests a predicate under a mask into a c pair or a scalar count. -/
  | vflag (g : BitVec 4) (dst : BitVec 5) (ps : BitVec 4) (kd : BitVec 2)
  /-- VCLAMP (R188): Clamps lanes between two rows. -/
  | vclamp (g : BitVec 4) (vd : BitVec 10) (va : BitVec 10) (vb : BitVec 10) (vc : BitVec 10)
  /-- VSEND (R199): Reserves an entry of a neighbour's q7 and sends a masked row to it. -/
  | vsend (g : BitVec 4) (va : BitVec 10) (dir : BitVec 3)
  /-- FMT (R233): Pushes a scalar register into FQ as a format word. -/
  | fmt (g : BitVec 4) (rs : BitVec 5)
  /-- FMTI (R233): Pushes template register FMTTt into FQ. -/
  | fmti (g : BitVec 4) (t : BitVec 4)
  /-- ACQ (R132): Takes an accumulator bank with a type, zeroing it with .z. -/
  | acq (g : BitVec 4) (n : BitVec 6) (ty : BitVec 2) (z : BitVec 1)
  /-- AREL (R132): Releases an accumulator bank and keeps its contents. -/
  | arel (g : BitVec 4) (n : BitVec 6)
  /-- OCLAIM (R132): Claims an operand slot, which becomes not ready. -/
  | oclaim (g : BitVec 4) (n : BitVec 6)
  /-- OREL (R132): Releases an operand slot and increments its generation. -/
  | orel (g : BitVec 4) (n : BitVec 6)
  /-- OWR (R227): Writes a vector row into one row of an operand slot. -/
  | owr (g : BitVec 4) (o : BitVec 6) (row : BitVec 6) (vs : BitVec 10)
  /-- LGB (R222): Builds plane-mode legends from r activation rows. -/
  | lgb (g : BitVec 4) (w : BitVec 1) (dl : BitVec 12) (l : BitVec 8) (sk : BitVec 1) (src : BitVec 10) (tkop : BitVec 2) (tkch : BitVec 4)
  /-- LGBC (R222): Builds codebook-mode legends from activations and a codebook. -/
  | lgbc (g : BitVec 4) (w : BitVec 1) (dl : BitVec 12) (l : BitVec 8) (sk : BitVec 1) (src : BitVec 10) (tkop : BitVec 2) (tkch : BitVec 4)
  /-- LGINV (R224): Zeroes the descriptors of a run of legends. -/
  | lginv (g : BitVec 4) (l : BitVec 8) (n : BitVec 8)
  /-- LGSAVE (R225): Copies legend entries into positions of an operand slot. -/
  | lgsave (g : BitVec 4) (l : BitVec 8) (n : BitVec 8) (o : BitVec 6) (pos : BitVec 3)
  /-- LGLOAD (R225): Loads legend entries from slot positions and marks them KIND 3. -/
  | lgload (g : BitVec 4) (l : BitVec 8) (n : BitVec 8) (o : BitVec 6) (pos : BitVec 3)
  /-- LGSUM (R226): Sums the group entries 15 of legends into lanes of a row. -/
  | lgsum (g : BitVec 4) (l : BitVec 8) (n : BitVec 8) (vd : BitVec 10)
  /-- MLU (R238): Plane-mode lookup that accumulates legend entries selected by codes into a bank. -/
  | mlu (g : BitVec 4) (w : BitVec 1) (dl : BitVec 12) (a : BitVec 6) (l : BitVec 8) (o : BitVec 6) (seg : BitVec 5) (tkop : BitVec 2) (tkch : BitVec 4)
  /-- MLUC (R241): Codebook lookup that accumulates centroid dot products into a bank. -/
  | mluc (g : BitVec 4) (w : BitVec 1) (dl : BitVec 12) (a : BitVec 6) (l : BitVec 8) (o : BitVec 6) (seg : BitVec 5) (tkop : BitVec 2) (tkch : BitVec 4)
  /-- MZERO (R243): Zeroes the active region of a bank, reading the head format word without popping it. -/
  | mzero (g : BitVec 4) (w : BitVec 1) (dl : BitVec 12) (a : BitVec 6) (tkop : BitVec 2) (tkch : BitVec 4)
  /-- MDRAIN (R246): Drains and requantises a tile into vector rows. -/
  | mdrain (g : BitVec 4) (w : BitVec 1) (dl : BitVec 12) (a : BitVec 6) (vb : BitVec 10) (tkop : BitVec 2) (tkch : BitVec 4)
  /-- MDRAIN_ST (R248): Drains a tile through a drain buffer into store-queue entries. -/
  | mdrainSt (g : BitVec 4) (w : BitVec 1) (dl : BitVec 12) (a : BitVec 6) (k : BitVec 2) (tkop : BitVec 2) (tkch : BitVec 4)
  /-- VPOP (R203): Pops a row from q0 to q7 into a vector register. -/
  | vpop (g : BitVec 4) (vr : BitVec 10) (q : BitVec 4) (md : BitVec 2) (pk : BitVec 1) (cf : BitVec 3) (tkop : BitVec 2) (tkch : BitVec 4)
  /-- VPUSH (R203): Pushes a vector row into a store queue k0 to k3. -/
  | vpush (g : BitVec 4) (vr : BitVec 10) (q : BitVec 4) (md : BitVec 2) (tkop : BitVec 2) (tkch : BitVec 4)
  /-- SPOP (R203): Pops a scalar from sq0 to sq3. -/
  | spop (g : BitVec 4) (sg : BitVec 5) (q : BitVec 4) (md : BitVec 2) (pk : BitVec 1) (cf : BitVec 3) (tkop : BitVec 2) (tkch : BitVec 4)
  /-- YPOP (R203): Pops an interpolation result row from y0. -/
  | ypop (g : BitVec 4) (vr : BitVec 10) (md : BitVec 2) (pk : BitVec 1) (cf : BitVec 3) (tkop : BitVec 2) (tkch : BitVec 4)
  /-- CPOP (R203): Pops a copy status word from cq0. -/
  | cpop (g : BitVec 4) (sg : BitVec 5) (md : BitVec 2) (pk : BitVec 1) (cf : BitVec 3) (tkop : BitVec 2) (tkch : BitVec 4)
  /-- APUSH (R203): Pushes a scalar into aq0 or aq1 for the A-stream. -/
  | apush (g : BitVec 4) (sg : BitVec 5) (q : BitVec 4) (md : BitVec 2) (tkop : BitVec 2) (tkch : BitVec 4)
  /-- IPSEL (R206): Selects the interpolation function. -/
  | ipsel (g : BitVec 4) (fn : BitVec 4) (tkop : BitVec 2) (tkch : BitVec 4)
  /-- IPLD (R209): Loads a custom interpolation table from an operand slot. -/
  | ipld (g : BitVec 4) (fn : BitVec 4) (o : BitVec 6) (tkop : BitVec 2) (tkch : BitVec 4)
  /-- IPF (R208): Evaluates the selected function on a row into a y0 entry. -/
  | ipf (g : BitVec 4) (vs : BitVec 10) (tkop : BitVec 2) (tkch : BitVec 4)
  /-- LD (R264): Loads 1 to 8 bytes into an x register. -/
  | ld (g : BitVec 4) (rd : BitVec 5) (b : BitVec 5) (imm : BitVec 24) (sz : BitVec 2) (sx : BitVec 1) (ord : BitVec 2) (scp : BitVec 3)
  /-- LDX (R264): Indexed load of 1 to 8 bytes. -/
  | ldx (g : BitVec 4) (rd : BitVec 5) (b : BitVec 5) (ix : BitVec 5) (sh : BitVec 2) (sz : BitVec 2) (sx : BitVec 1) (ord : BitVec 2) (scp : BitVec 3)
  /-- ST (R264): Stores the low bytes of a register. -/
  | st (g : BitVec 4) (rd : BitVec 5) (b : BitVec 5) (imm : BitVec 24) (sz : BitVec 2) (ord : BitVec 2) (scp : BitVec 3)
  /-- STX (R264): Indexed store. -/
  | stx (g : BitVec 4) (rd : BitVec 5) (b : BitVec 5) (ix : BitVec 5) (sh : BitVec 2) (sz : BitVec 2) (ord : BitVec 2) (scp : BitVec 3)
  /-- PREF (R264): Prefetch hint with no visible effect. -/
  | pref (g : BitVec 4) (b : BitVec 5) (imm : BitVec 24)
  /-- LDQ (R265): Reserves a q entry and loads 128 bytes into it. -/
  | ldq (g : BitVec 4) (q : BitVec 4) (b : BitVec 5) (imm : BitVec 24) (md : BitVec 2)
  /-- STQ (R265): Pops a k entry and stores its 128 bytes. -/
  | stq (g : BitVec 4) (q : BitVec 4) (b : BitVec 5) (imm : BitVec 24) (md : BitVec 2)
  /-- SQPUSH (R265): Pushes a scalar into sq0 to sq3. -/
  | sqpush (g : BitVec 4) (q : BitVec 4) (b : BitVec 5) (md : BitVec 2)
  /-- LDQ2 (R266): Strided copy-engine load of up to 16 rows into q entries. -/
  | ldq2 (g : BitVec 4) (q : BitVec 5) (a : BitVec 5) (len : BitVec 5) (aux : BitVec 5)
  /-- COPY (R268): Enqueues a bulk copy command for the copy engine. -/
  | copy (g : BitVec 4) (dst : BitVec 5) (src : BitVec 5) (len : BitVec 5) (aux : BitVec 5) (dh : BitVec 1) (shd : BitVec 1) (tkop : BitVec 2) (tkch : BitVec 4)
  /-- GATHER (R268): Enqueues an indexed gather of rows. -/
  | gather (g : BitVec 4) (dst : BitVec 5) (src : BitVec 5) (len : BitVec 5) (aux : BitVec 5) (dh : BitVec 1) (shd : BitVec 1)
  /-- SCATTER (R268): Enqueues an indexed scatter of rows. -/
  | scatter (g : BitVec 4) (dst : BitVec 5) (src : BitVec 5) (len : BitVec 5) (aux : BitVec 5) (dh : BitVec 1) (shd : BitVec 1)
  /-- CWAIT (R270): Waits for and pops k copy statuses, or waits for every earlier command when k is 0. -/
  | cwait (g : BitVec 4) (rd : BitVec 5) (s1 : BitVec 5)
  /-- FENCE (R297): Imposes acquire, release or full ordering at a scope. -/
  | fence (g : BitVec 4) (ord : BitVec 2) (scp : BitVec 3)
  /-- TFENCE (R260): Discards cached translations in scope and waits for commands that captured pages earlier. -/
  | tfence (g : BitVec 4) (scp : BitVec 3)
  /-- BARA (R299): Arrives at a group barrier with a release. -/
  | bara (g : BitVec 4) (n : BitVec 5)
  /-- BARW (R299): Waits at a group barrier for every core's arrival, then acquires. -/
  | barw (g : BitVec 4) (n : BitVec 5)
  /-- TKPUSH (R302): Adds a token after earlier accesses and commands retire. -/
  | tkpush (g : BitVec 4) (n : BitVec 5)
  /-- TKWAIT (R302): Waits for a token and takes it. -/
  | tkwait (g : BitVec 4) (n : BitVec 5)
  /-- SPALLOC (R128): Allocates and zero-fills up to n free scratchpad banks and returns their mask. -/
  | spalloc (g : BitVec 4) (rd : BitVec 5) (s1 : BitVec 5)
  /-- SPFREE (R129): Frees the scratchpad banks of a mask after earlier accesses to them complete. -/
  | spfree (g : BitVec 4) (s1 : BitVec 5)
  /-- LAUNCH_B (R105): Submits a child launch record and waits for a pool entry. -/
  | launchB (g : BitVec 4) (rd : BitVec 5) (s1 : BitVec 5) (q : BitVec 5)
  /-- LAUNCH_N (R105): Submits a child launch record and returns BUSY when the pool is full. -/
  | launchN (g : BitVec 4) (rd : BitVec 5) (s1 : BitVec 5) (q : BitVec 5)
  /-- HLD (R273): Loads a handle value into an h register without checks. -/
  | hld (g : BitVec 4) (h : BitVec 4) (s1 : BitVec 5)
  /-- HNEW (R273): Creates a handle in the lowest free slot from a descriptor. -/
  | hnew (g : BitVec 4) (h : BitVec 4) (s1 : BitVec 5)
  /-- PUBLISH (R274): Swaps a published handle's shadow into view and increments its generation. -/
  | publish (g : BitVec 4) (h : BitVec 4) (scp : BitVec 3)
  /-- HFREE (R273): Frees a handle's slot and advances its generation. -/
  | hfree (g : BitVec 4) (h : BitVec 4)
  /-- AADD (R292): Atomic add that returns the old value. -/
  | aadd (g : BitVec 4) (rd : BitVec 5) (b : BitVec 5) (s2 : BitVec 5) (sz : BitVec 2) (ord : BitVec 2) (scp : BitVec 3)
  /-- AMIN (R292): Atomic signed minimum. -/
  | amin (g : BitVec 4) (rd : BitVec 5) (b : BitVec 5) (s2 : BitVec 5) (sz : BitVec 2) (ord : BitVec 2) (scp : BitVec 3)
  /-- AMAX (R292): Atomic signed maximum. -/
  | amax (g : BitVec 4) (rd : BitVec 5) (b : BitVec 5) (s2 : BitVec 5) (sz : BitVec 2) (ord : BitVec 2) (scp : BitVec 3)
  /-- AAND (R292): Atomic AND. -/
  | aand (g : BitVec 4) (rd : BitVec 5) (b : BitVec 5) (s2 : BitVec 5) (sz : BitVec 2) (ord : BitVec 2) (scp : BitVec 3)
  /-- AOR (R292): Atomic OR. -/
  | aor (g : BitVec 4) (rd : BitVec 5) (b : BitVec 5) (s2 : BitVec 5) (sz : BitVec 2) (ord : BitVec 2) (scp : BitVec 3)
  /-- AXOR (R292): Atomic XOR. -/
  | axor (g : BitVec 4) (rd : BitVec 5) (b : BitVec 5) (s2 : BitVec 5) (sz : BitVec 2) (ord : BitVec 2) (scp : BitVec 3)
  /-- AXCHG (R292): Atomic exchange. -/
  | axchg (g : BitVec 4) (rd : BitVec 5) (b : BitVec 5) (s2 : BitVec 5) (sz : BitVec 2) (ord : BitVec 2) (scp : BitVec 3)
  /-- ACAS (R292): Atomic compare-and-swap. -/
  | acas (g : BitVec 4) (rd : BitVec 5) (b : BitVec 5) (s2 : BitVec 5) (s3 : BitVec 5) (sz : BitVec 2) (ord : BitVec 2) (scp : BitVec 3)
  /-- AWAIT (R295): Rereads a word until a condition holds and returns the satisfying value. -/
  | await (g : BitVec 4) (rd : BitVec 5) (b : BitVec 5) (s2 : BitVec 5) (cond : BitVec 4) (sz : BitVec 2) (ord : BitVec 2) (scp : BitVec 3)
  /-- RESULT_LANDING (R45): A fixed-latency result lands at its scheduled tick, with any token push at retirement. -/
  | resultLanding (core : Nat)
  /-- MX_START (R234): An MX syllable reaches its start tick, issue plus δ, pops its format word and makes its checks. -/
  | mxStart (core : Nat)
  /-- A_CLASS_RESULT (R50): An unfinished A-class syllable writes its x register, and waiting syllables may issue. -/
  | aClassResult (core : Nat) (iseq : Nat)
  /-- QUEUE_FILL (R139): Data arrives for a reserved queue entry and fills it in reservation order. -/
  | queueFill (core : Nat) (iseq : Nat)
  /-- VSEND_ARRIVAL (R199): A sent row fills its reserved q7 entry at the receiver, 3 ticks after the send in global time. -/
  | vsendArrival (core : Nat)
  /-- TARGET_FETCH (R166): A branch target's fetch completes 4 control cycles after its PBR. -/
  | targetFetch (core : Nat) (stream : Strm) (bd : Nat)
  /-- SLIP_END (R146): The conditions of a slip hold, and every chart clock of the group restarts together. -/
  | slipEnd (ctx : Nat)
  /-- WINDOW_SPILL_FILL (R151): A spill or fill of window lines to bank 31 completes, and the waiting CALL or RET issues. -/
  | windowSpillFill (core : Nat)
  /-- MERIDIAN_PULSE (R110): Once every core has arrived or exited, the origin emits the pulse and the chart clocks start. -/
  | meridianPulse (ctx : Nat)
  /-- BARRIER_PHASE_COMPLETE (R299): Every core has arrived at a barrier phase, and the waiting BARW completes with an acquire. -/
  | barrierPhaseComplete (core : Nat)
  /-- AWAIT_SATISFIED (R295): A polled word meets the AWAIT's condition, and rd is written. -/
  | awaitSatisfied (core : Nat)
  /-- PUBLISH_SWAP (R274): Earlier shadow writes have retired, and the visible and shadow regions swap at one instant. -/
  | publishSwap (core : Nat)
  /-- TFENCE_COMPLETE (R260): Commands that captured translations earlier have retired, and the quarantine is released in fence mode. -/
  | tfenceComplete (core : Nat)
  /-- TRANSLATION_WALK_END (R335): An access's page-table walk ends, and the access is performed or raises its fault. -/
  | translationWalkEnd (core : Nat) (iseq : Nat)
  /-- COMMAND_RETIRE (R268): A copy-engine command writes its last byte, makes its slots ready and fills its cq0 entry. -/
  | commandRetire (core : Nat)
  /-- WATCH_COPY_FREEZE (R358): After a watched unit and at most 512 bytes of skid, the copy engine freezes and the group stops. -/
  | watchCopyFreeze (core : Nat) (skid : Nat)
  /-- PEER_WATCH_REPORT (R346): A report of a peer access that matched a watchpoint is written within 2 µs. -/
  | peerWatchReport (part : Nat)
  /-- BANK_WAKE_COMPLETE (R118): A woken bank becomes HOT within 96 ticks, and its waiting requesters proceed. -/
  | bankWakeComplete (core : Nat) (bank : Nat)
  /-- BANK_IDLE_WARM (R121): An unpinned HOT scratchpad bank, idle for 2,048 ticks, may go WARM. -/
  | bankIdleWarm (core : Nat) (bank : Nat)
  /-- ACC_BANK_IDLE_WARM (R130): An unheld accumulator bank, idle for 2,048 ticks, may go WARM. -/
  | accBankIdleWarm (core : Nat) (bank : Nat)
  /-- BANK_SCRUB_COMPLETE (R121): A freed bank's scrub finishes, and the bank goes COLD or is handed to a waiting SPALLOC. -/
  | bankScrubComplete (core : Nat) (bank : Nat)
  /-- QSEQ_ADVANCE (R259): The quiescence counter advances, and pages quarantined two steps earlier are released. -/
  | qseqAdvance
  /-- LQTAIL_WRITE (R94): Software advances a launch queue's tail. -/
  | lqtailWrite (part : Nat) (q : Nat) (value : Word)
  /-- QUEUE_RECORD_READ (R94): The dispatcher reads the next launch-queue slot, accepts or refuses it and writes its status. -/
  | queueRecordRead (part : Nat) (q : Nat)
  /-- LQCFG_ERR_CLEAR (R93): Writing 1 to LQCFG.ERR clears an overrun so that the queue accepts records again. -/
  | lqcfgErrClear (part : Nat) (q : Nat)
  /-- FIRMWARE_LAUNCH (R95): A firmware launch command submits a record at depth 0. -/
  | firmwareLaunch (part : Nat) (record : Bytes)
  /-- DISPATCH_PASS_TIMER (R99): 100 µs have passed since the last pass, which starts a new pass. -/
  | dispatchPassTimer (part : Nat)
  /-- PRIORITY_AGING (R98): A whole millisecond of readiness raises a launch's effective priority, up to +3. -/
  | priorityAging (part : Nat)
  /-- LAUNCH_WAIT_TIMEOUT (R106): A LAUNCH.b that has waited 16 µs deschedules its group. -/
  | launchWaitTimeout (core : Nat)
  /-- STOP_DELIVERY (R322): Once the surveys are written, the stop goes to each core's handler or to the supervisor. -/
  | stopDelivery (ctx : Nat)
  /-- SAVE_IMAGE_COMPLETE (R334): The rest of a descheduled group's save image is written, and its banks are freed. -/
  | saveImageComplete (ctx : Nat)
  /-- SUPERVISOR_STOP (R340): The partition supervisor stops a running group with BREAKPOINT code 0xFFFF. -/
  | supervisorStop (ctx : Nat)
  /-- SUPERVISOR_PLACE (R332): The supervisor asks the dispatcher to place a saved context again. -/
  | supervisorPlace (ctx : Nat) (edits : Edits)
  /-- A_STREAM_EXIT_COMPLETE (R363): An A-stream EXIT's wait for earlier accesses and commands ends, and the stream has exited. -/
  | aStreamExitComplete (core : Nat)
  /-- X_EXIT_CHECK (R364): At T_x the X-stream's exit checks for held banks and raises BANK-HELD-AT-EXIT if any is held. -/
  | xExitCheck (core : Nat)
  /-- DEFERRED_UNMAP (R23): A deferred object's residency count reaches 0, and the object unmaps. -/
  | deferredUnmap (part : Nat) (obj : Nat)
  /-- CRTAIL_WRITE (R367): Software advances the completion ring's tail, and waiting records may be written. -/
  | crtailWrite (part : Nat) (value : Word)
  /-- TEARDOWN_CONTEXT (R369): Firmware tears down one context and its LAUNCH descendants. -/
  | teardownContext (ctx : Nat)
  /-- TEARDOWN_PARTITION (R369): Firmware tears down every context of a partition. -/
  | teardownPartition (part : Nat)
  /-- LOAD (R21): The code service checks, maps, relocates and links an object. -/
  | load (part : Nat) (place : Placement)
  /-- UNLOAD (R23): Unmaps an object now, or defers the unmap until its residency count falls to 0. -/
  | unload (part : Nat)
  /-- UNLOAD_F (R24): Forced unload that tears down the object's groups and marks its contexts unresumable. -/
  | unloadF (part : Nat)
  /-- PATCH (R26): Writes a new syllable into a declared patch slot. -/
  | patch (part : Nat)
  /-- CSTAIL_WRITE (R403): A client advances the code-service ring's tail. -/
  | cstailWrite (part : Nat) (value : Word)
  /-- QPUSH_WRITE (R258): Firmware pushes a physical page into quarantine, waiting while the queue is full. -/
  | qpushWrite (part : Nat) (value : Word)
  /-- QPOP_READ (R258): A read pops a released quarantine page, or reports that none is released. -/
  | qpopRead (part : Nat)
  /-- WATCHPOINT_ARM (R344): Setting WPCTL.EN checks the watched range and fixes it in physical terms, or sets ERR. -/
  | watchpointArm (part : Nat) (n : Nat) (ctl : Word)
  /-- FIX_COMMAND (R353): A management firmware command raises a package-scope fix. -/
  | fixCommand
  /-- FIXIN_EDGE (R353): A rising edge on the FIXIN pin raises a package-scope fix. -/
  | fixinEdge
  /-- PEER_ACCESS_ARRIVAL (R254): A space-2 access from a peer arrives into this device's shared window. -/
  | peerAccessArrival (access : PeerAccess)
  /-- ROUTE_LOSS_TIMEOUT (R399): No route to a node for 1 ms makes its unperformed accesses raise MEMORY-UNCORRECTED. -/
  | routeLossTimeout (node : Nat)
  /-- RDMA_WRITE (R402): A RoCEv2 write reaches a partition's system window or space-0 memory. -/
  | rdmaWrite (part : Nat) (window : Bool) (addr : Word) (data : Bytes)
  /-- RDMA_READ (R402): A RoCEv2 read of a partition's system window or space-0 memory. -/
  | rdmaRead (part : Nat) (window : Bool) (addr : Word) (len : Nat)
  /-- RDMA_INVALID_OPERATION (R402): Any other RoCEv2 operation is answered with an invalid-request NAK. -/
  | rdmaInvalidOperation (part : Nat)
  /-- REFSET_WRITE (R374): A write of REFSET posts a request for a new reference frequency. -/
  | refsetWrite (value : Word)
  /-- REFERENCE_FREQUENCY_CHANGE (R374): Once contours have passed and the rails are at Vmin, the reference clock changes and RATE records are written. -/
  | referenceFrequencyChange
  /-- CURRENT_EXCESS (R378): Excess current makes the limiter stretch reference cycles within 1 µs. -/
  | currentExcess
  /-- CURRENT_EXCESS_END (R378): The excess current ends, and stretching stops. -/
  | currentExcessEnd
  /-- STRETCH_TIMEOUT (R379): 100 µs of continuous stretching posts a lower frequency request. -/
  | stretchTimeout
  /-- THERMAL_TRIP (R380): A die at 115 °C stops the reference clock and freezes every clock. -/
  | thermalTrip (die : Nat)
  /-- THERMAL_RECOVERY (R380): Every die at or below 105 °C restarts the clock, and GAP records are written. -/
  | thermalRecovery
  /-- PCHB_WRITE (R381): A firmware heartbeat write, which ends autopilot when UPDATE is 0. -/
  | pchbWrite (value : Word)
  /-- PWSTAT_UPDATE_WRITE (R381): Setting PWSTAT.UPDATE enters autopilot. -/
  | pwstatUpdateWrite (value : Word)
  /-- HEARTBEAT_TIMEOUT (R381): PCHB unwritten for 2 ms enters autopilot. -/
  | heartbeatTimeout
  /-- VVOTE_WRITE (R377): Firmware writes a partition's voltage vote, which changes rail targets. -/
  | vvoteWrite (part : Nat) (value : Word)
  /-- RAIL_FALL_START (R376): Its conditions, including 500 µs since the last rise, are met, and a rail starts to fall toward its target. -/
  | railFallStart (rail : Nat)
  /-- RAIL_AT_TARGET (R376): A rising or falling rail reaches its target voltage. -/
  | railAtTarget (rail : Nat)
  /-- QREQ_REQ (R384): Setting or clearing QREQ.REQ blocks or allows placement on a cluster. -/
  | qreqReq (cluster : Nat) (value : Word)
  /-- QREQ_EVICT (R384): EVICT with REQ pre-empts every group with a core in the cluster. -/
  | qreqEvict (cluster : Nat)
  /-- RETSAVE_SAVE (R386): GO with DIR 0 starts saving the cluster's retention state to HBM. -/
  | retsaveSave (cluster : Nat) (value : Word)
  /-- RETSAVE_RESTORE (R386): GO with DIR 1 starts restoring the cluster's retention state. -/
  | retsaveRestore (cluster : Nat) (value : Word)
  /-- RETSAVE_DONE (R386): An accepted save or restore finishes and sets DONE. -/
  | retsaveDone (cluster : Nat)
  /-- CLKGATE_SET (R387): GATE := 1 stops the cluster's clocks when its conditions hold. -/
  | clkgateSet (cluster : Nat)
  /-- CLKGATE_CLEAR (R387): GATE := 0 restarts the clocks of a cluster whose rail is on. -/
  | clkgateClear (cluster : Nat)
  /-- CLOCK_GATE_COMPLETE (R387): CLKGATE.STAT changes within 1 µs of an accepted gate write. -/
  | clockGateComplete (cluster : Nat)
  /-- RAILGATE_OFF (R387): OFF := 1 switches a gated cluster's rail share off. -/
  | railgateOff (cluster : Nat)
  /-- RAILGATE_ON (R387): OFF := 0 switches the cluster back on in its reset state. -/
  | railgateOn (cluster : Nat)
  /-- RAIL_SWITCH_COMPLETE (R387): RAILSTAT.STATE reaches off or on after a rail switch. -/
  | railSwitchComplete (cluster : Nat)
  /-- WAKE_SET (R388): A write of WAKE.SET sets PEND. -/
  | wakeSet (cluster : Nat) (client : ClientId)
  /-- WAKEACK_ACK (R388): Clears WAKE.PEND and increments COUNT. -/
  | wakeackAck (cluster : Nat)
  /-- PACKAGE_RESET (R394): Reset runs the Balore ROM, which verifies, measures and starts stage 1. -/
  | packageReset (image : StageImage)
  /-- STAGE_LOAD (R394): The management firmware asks the root to verify, measure and start a later firmware stage. -/
  | stageLoad (image : StageImage)
  /-- ATTGO_WRITE (R396): A client requests a signed quote over its nonce, which the root writes before setting ATTSTAT. -/
  | attgoWrite (part : Nat) (value : Word)
  /-- MCCTL_RESTART (R398): Restarts a halted management core at the latest accepted stage-1 entry. -/
  | mcctlRestart (writer : Nat) (value : Word)
  /-- CHANNEL_RETIRE (R400): Firmware retires a failing HBM channel, whose contents are copied into a spare. -/
  | channelRetire (channel : Nat)
  /-- CHANNEL_COPY_COMPLETE (R400): The copy into the spare channel ends, and the remapping stands. -/
  | channelCopyComplete (channel : Nat)
  /-- CORE_RETIRE (R401): Firmware retires a failed core, replacing it with a spare or marking it failed. -/
  | coreRetire (core : Nat)
  /-- REGISTER_WRITE (R7): A write to a register with no behaviour of its own updates its writable fields. -/
  | registerWrite (target : RegTarget) (value : Word)
  /-- ACCESS_PERFORMED (R288): A store, STQ or other issued access with no register result is performed in memory and retires. -/
  | accessPerformed (core : Nat) (iseq : Nat)
  /-- PARTITION_CONFIGURATION (R91): Management firmware assigns cores, peer sets and related settings to partitions, or changes that assignment at run time. -/
  | partitionConfiguration (part : Nat) (config : PartConfig)
deriving DecidableEq, Repr

end Sys2Proof
end

