-- ==== Sys2Proof/Machine/State.lean ====
section
/-! DEFINITION. The state of the device as plain data: 192 cores with two streams and their engines, groups, partitions with
their dispatcher and code service, power controller, Balore root, management cores, HBM and peer windows. Sparse stores list
only what differs from the stated default. The file holds State.reset, the machine right after package reset. -/

namespace Sys2Proof.Machine

/-! ### Streams -/

/-- One hardware loop level (R169): its start and end addresses. -/
structure Level where
  lv : Nat
  start : Word
  stop : Word
deriving DecidableEq, Repr

/-- Rotation state of a stream (R172, R175, R181): LPROT keeps it after the level exits. -/
structure Rot where
  on : Bool := false
  lv : Nat := 0
  i : Nat := 0
  rho : Nat := 0
  vb : Nat := 0
  sm : Nat := 0
  stages : Nat := 0
  trip : Nat := 0
deriving DecidableEq, Repr

/-- A branch register (R164, R166): its value, the tick or turn at which its target is ready, and whether the fetch is done. -/
structure BReg where
  val : Word := 0#64
  ready : Nat := 0
  fetched : Bool := true
deriving DecidableEq, Repr

/-- What both streams hold, one set each (R136, R169). -/
structure Ctrl where
  pc : Word := 0#64
  /-- c0 to c7: recent landings, newest first: tick and value (R162) -/
  c : Store (List (Nat × Bool)) := []
  b : Store BReg := []
  lc : Store Word := []
  loops : List Level := []
  rot : Rot := {}
  /-- the saved next bundle is exempt from breakpoints (R343) -/
  exempt : Bool := false
  /-- syllables of bundles that the core has fetched and not issued, by address: the waiting bundle, prefetched targets and kept return
  points execute what was fetched (R26, R166, R168) -/
  fetched : List (Word × Word) := []
  /-- EXIT has issued (R182) -/
  exiting : Bool := false
  /-- the stream has exited (R363, R364) -/
  exited : Bool := false
deriving DecidableEq, Repr

/-- The X-stream of a core (R136, R149 to R151). DESIGN CHOICE, log entry 3. -/
structure XStream where
  k : Ctrl := {}
  g : Store Word := []
  /-- windowed registers held in the physical file, by absolute position -/
  win : Store Word := []
  base : Nat := 0
  frame : Nat := 24
  low : Nat := 0
  /-- links held with the file, by frame base: return address and caller's F -/
  links : Store Word := []
  p : Store Word := []
  /-- tick at which the next bundle issues (R142) -/
  next : Nat := 0
  /-- stage predicates to set at the issue tick of the next bundle (R172) -/
  rotPend : Bool := false
  /-- the target's b register of a taken branch whose fetch the next bundle may wait on (R166) -/
  await : Option BReg := none
  /-- waiting at ALIGN: the first ISEQ its bundle took and the ALIGN's own (R110, R317) -/
  align : Option (Nat × Nat) := none
  /-- the waiting ALIGN as issued (R318) -/
  alignWord : Word := 0#64
  /-- an ALIGN has started the clock since the last stop of the clock (R109, R110) -/
  aligned : Bool := false
  /-- a spill or fill in progress: lines to move, and whether it fills (R151) -/
  window : Option (Nat × Bool) := none
  /-- the ISEQ of its record, fixed when it began, and the cause it raised at the stop (R319) -/
  windowSeq : Nat := 0
  windowCause : Nat := 0
deriving DecidableEq, Repr

/-! ### Operations in flight -/

/-- A legend descriptor (R218). -/
structure Desc where
  w0 : Word := 0#64
  w1 : Word := 0#64
  w2 : Word := 0#64
  w3 : Word := 0#64
deriving DecidableEq, Repr, Inhabited

/-- A custom interpolation table (R209). -/
structure Tab where
  lo : BitVec 32
  hi : BitVec 32
  below : Nat
  above : Nat
  knots : List (BitVec 32)
  slopes : List (BitVec 32)
deriving DecidableEq, Repr

/-- What a landing writes (R142, R132, R217, R220, R247): the register or store named at issue, fixed then. -/
inductive Land where
  /-- g register -/
  | greg (n : Nat) (v : Word)
  /-- windowed register at an absolute position (R143) -/
  | wreg (pos : Nat) (v : Word)
  /-- one c register of the X-stream -/
  | creg (n : Nat) (v : Bool)
  /-- predicate bits where mask is 1 -/
  | preg (n : Nat) (mask v : Word)
  /-- b register with the tick its target is ready (R164, R166) -/
  | breg (n : Nat) (v : Word) (ready : Nat)
  /-- loop counter -/
  | lcnt (n : Nat) (v : Word)
  /-- system register written by MTS or CLKDIV (R124, R177, R180) -/
  | sys (n : Nat) (v : Word)
  /-- vector rows of one bank: row number, bits written, value -/
  | rows (rs : List (Nat × Row × Row))
  /-- accumulations into bank a: row, column and the planes to add in order (R238, R240); none is a NaN block -/
  | acc (a : Nat) (fw : Word) (ps : List (Nat × Nat × Option (List Val)))
  /-- zero elements i < r, j < c of bank a (R243) -/
  | mzero (a r c : Nat)
  | acq (a ty : Nat) (z : Bool)
  | arel (a : Nat)
  | oclaim (o : Nat)
  | orel (o : Nat)
  /-- bytes of a slot (OWR, LGSAVE): offset and bytes -/
  | slot (o off : Nat) (data : Bytes)
  /-- legends with their entries and descriptors (R220) -/
  | legends (ls : List (Nat × Desc × List (BitVec 32)))
  /-- descriptors l to l+n-1 cleared (R224) -/
  | lginv (l n : Nat)
  /-- entries of a queue, by absolute entry number, with the drain buffer that holds them (R139, R248) -/
  | entries (q : Nat) (es : List (Nat × Row)) (buf : Option Nat)
  /-- an entry of another core's q7, known there by the sender and its ISEQ (R199) -/
  | mesh (core : Nat) (v : Row)
  /-- selected interpolation function (R206) -/
  | ipsel (fn : Nat)
  /-- custom table (R209) -/
  | iptab (n : Nat) (t : Tab)
deriving DecidableEq, Repr

/-- How an operation stands (R312, R321): a landing, an MX syllable not started, a fill started and not landed. -/
inductive OpKind where
  | land
  | start
  | fill
deriving DecidableEq, Repr

/-- One ticked operation in flight on a core (R142, R312, R321). -/
structure Op where
  iseq : Nat
  /-- the first ISEQ of its bundle, which tells the bundle (R38, R144) -/
  bundle : Nat := 0
  word : Word
  engine : Nat
  kind : OpKind
  /-- second half of a twin (R319) -/
  half : Bool := false
  /-- wide result (R321 kind 2) -/
  wide : Bool := false
  /-- landing tick, or start tick of a pending start -/
  due : Nat
  lands : List Land := []
  /-- token channel pushed at retirement (R141) -/
  push : Option Nat := none
  /-- an MX syllable: the instruction, its renamed vector base, and the format word once popped (R173, R234) -/
  mx : Option Instr := none
  vbase : Nat := 0
  fw : Option Word := none
  /-- generations a fill captured (R228) -/
  gens : Word := 0#64
  /-- the matrix divisor in force at issue (R178) -/
  mdiv : Nat := 1
  /-- the cause this operation raised at the stop (R319) -/
  cause : Nat := 0
deriving DecidableEq, Repr

/-- Where an access goes once its address is resolved (R252 to R255). -/
inductive Place where
  | hbm (pa : Nat)
  | sp (core off : Nat)
  | slot (o off : Nat)
  | peer (node off : Nat)
  | reg (off : Nat)
deriving DecidableEq, Repr

/-- Progress of an unfinished A-class syllable (R335, R50, R139). -/
inductive APhase where
  /-- its translation has not ended -/
  | walking
  /-- it passed R262 and the watch check and is not performed -/
  | ready
  /-- performed: rd is not written (A-RESULT), or the queue entry is not filled -/
  | done
  /-- a synchronisation syllable before its effect (A-SYNC) -/
  | sync
deriving DecidableEq, Repr

/-- An unfinished A-class syllable (R50, R312, R321). -/
structure AOp where
  iseq : Nat
  word : Word
  instr : Instr
  phase : APhase
  addr : Word := 0#64
  data : Word := 0#64
  extra : Word := 0#64
  place : Place := .hbm 0
  /-- the entry an LDQ reserved (R265) -/
  entry : Option Nat := none
  value : Word := 0#64
  row : Row := 0#1024
  /-- an STQ has popped its entry, which `row` holds (R265) -/
  popped : Bool := false
  /-- the launch record, once LAUNCH has read it (R105) -/
  bytes : Bytes := []
  /-- drain buffer and row of a popped MDRAIN.st entry (R248) -/
  buf : Option (Nat × Nat) := none
  /-- matching with watchpoints suppressed (R346) -/
  quiet : Bool := false
  /-- a multi-step syllable has done its one-time part (PUBLISH's release, SPALLOC's marking, TFENCE's discard) -/
  begun : Bool := false
  /-- banks an SPALLOC chose (R128) -/
  mask : Word := 0#64
  /-- the pieces of a launch record or a handle descriptor, captured at issue (R105, R256) -/
  caps : List (Word × Place × Nat) := []
  /-- V of its core when a later acquire first joined it before this release was performed (R287, R289) -/
  seenV : Option (List Nat) := none
  /-- reissued after a stop (R330) -/
  again : Bool := false
  cause : Nat := 0
deriving DecidableEq, Repr

/-- A copy-engine command (R266 to R269). -/
structure Cmd where
  iseq : Nat
  word : Word
  instr : Instr
  seq : Nat
  dst : Word
  src : Word
  len : Word
  aux : Word
  /-- byte ranges captured at enqueue, in order: pointer, place and length of each piece read and written (R256, R257) -/
  reads : List (Word × Place × Nat)
  writes : List (Word × Place × Nat)
  /-- bytes of one row of GATHER, SCATTER and LDQ2; 1 for COPY -/
  unit : Nat := 1
  /-- bytes done -/
  progress : Nat := 0
  /-- reserved cq0 entry (R268) or, for LDQ2, its first reserved queue entry -/
  entry : Option Nat
  /-- handle slots it captured, with the values, and whether one has changed (R275) -/
  hands : List (Nat × Word) := []
  stale : Bool := false
  push : Option Nat := none
  quiet : Bool := false
  /-- bytes of an aligned 8-byte unit of the source that have been read and not yet written (R282) -/
  ahead : Bytes := []
  /-- a watched unit was touched: the watchpoints and the address of the first watched byte, until the engine freezes (R346, R358) -/
  watched : Option (Nat × Word) := none
  /-- when its pages were captured, in the numbering of `State.stamp` (R260) -/
  stamp : Nat := 0
  /-- inserted by a handler: no cq0 entry, no sequence number (R330) -/
  inserted : Bool := false
  /-- its record was amended or its progress reset: it is enqueued again when the group resumes (R330) -/
  again : Bool := false
  cause : Nat := 0
deriving DecidableEq, Repr

/-- The A-stream of a core or handler, and a management core's stream (R136, R323, R389). DESIGN CHOICE, log entry 3. -/
structure AStream where
  k : Ctrl := {}
  x : Store Word := []
  /-- the control cycles that follow the last bundle before the next (R35), and the instant of the access core's clock before which the next does not issue -/
  idle : Nat := 0
  ready : Nat := 0
  /-- the instants before which a register that an earlier syllable has written may not be used: x registers by number, c registers as a B-class guard
  reads them by 32 + number (R156, R162) -/
  due : Store Nat := []
  /-- the command that waits at its enqueue has taken its token (R268) -/
  took : Bool := false
  /-- that command with the pages it has captured, and its captured index list (R256, R268) -/
  taken : Option (Cmd × List (Word × Place × Nat)) := none
  /-- a RESUME of that many records that waits for the accesses of its own bundle (R329) -/
  resuming : Option Nat := none
deriving DecidableEq, Repr

/-- A queue entry (R139): filled and from which tick present, with the drain buffer that carries it (R248). -/
structure Entry where
  filled : Bool
  present : Nat
  val : Row
  buf : Option (Nat × Nat) := none
  /-- the sending core and the ISEQ of its VSEND, in q7 (R199) -/
  src : Option (Nat × Nat) := none
  /-- it stood in the queue when an ALIGN started the clock anew (R110, R200) -/
  old : Bool := false
  /-- ISEQ of the A-class push that reserved it, 0 for other pushes (R152) -/
  iseq : Nat := 0
deriving DecidableEq, Repr

/-- A queue of a core: entries in reservation order and the pops taken, modulo 2^16 (R139, R314). -/
structure Queue where
  es : List Entry := []
  pops : Nat := 0
deriving DecidableEq, Repr, Inhabited

/-- A release as a write carries it (R280): the core, the scope and the memory space it is made through, its ISEQ or that of its FENCE, and the writes,
by number, that it orders before what comes after it. DEDUCED, log entry 97. -/
structure Rel where
  core : Nat
  scp : Nat
  space : Nat
  iseq : Nat
  covers : List Nat := []
deriving DecidableEq, Repr

/-- A write that some cores are not shown yet, or one that is newer than such a write or releases it (R277, R279 to R281): its number, the core that made
it with the ISEQ, the bytes that stood there before, the cores that may still read those, and the cores before whose next access it happens. A write that
was performed before accesses which it is ordered after toward the cores of a scope stays hidden from these until they are performed.
DEDUCED, log entry 97. -/
structure Veil where
  id : Nat
  core : Nat
  iseq : Nat := 0
  place : Place
  old : Bytes
  blind : List Nat := []
  known : List Nat := []
  rels : List Rel := []
  lock : Nat := 0
  after : List Nat := []
deriving DecidableEq, Repr

/-- What the cores are shown of the order of writes: the writes that `Veil` describes, the latest in coherence order first, the number of the next, and
the cores that are not shown at once what is written from now on. DEDUCED, log entry 97. -/
structure Order where
  veils : List Veil := []
  hide : List Nat := []
  next : Nat := 1
deriving DecidableEq, Repr

/-- Race-checker state of a scratchpad line (R286): last writer, its epoch, and the carried vector. -/
structure Line where
  writer : Option Nat := none
  epoch : Nat := 0
  carried : Option (List Nat) := none
deriving DecidableEq, Repr, Inhabited

/-- Race-checker state of a core (R286). DESIGN CHOICE, log entry 6. -/
structure Race where
  e : Nat := 1
  v : List Nat := [0, 0, 0, 0, 0, 0, 0, 0]
  f : Option (List Nat) := none
  p : List Nat := [0, 0, 0, 0, 0, 0, 0, 0]
deriving DecidableEq, Repr

/-- An atlas entry with what decides its changes (R116, R119, R121): code of R116, and the instant of its last access, counted as `Power.ref`. -/
structure Bank where
  st : Nat := 0
  live : Bool := false
  pin : Bool := false
  owner : Nat := 0
  last : Nat := 0
deriving DecidableEq, Repr, Inhabited

/-- Accumulator bank control (R119, R130 to R132, R217). DEDUCED, log entry 21. -/
structure AccBank where
  held : Bool := false
  ty : Nat := 0
  gen : Nat := 0
  st : Nat := 0
  last : Nat := 0
  owner : Nat := 0
deriving DecidableEq, Repr, Inhabited

/-- Operand slot control (R132, R217). -/
structure Slot where
  claimed : Bool := false
  ready : Bool := false
  gen : Nat := 0
deriving DecidableEq, Repr, Inhabited

/-- The fix snapshot of a core (R354). -/
structure Fix where
  id : Word := 0#64
  wall : Word := 0#64
  tick : Word := 0#64
  iseq : Word := 0#64
  state : Word := 0#64
deriving DecidableEq, Repr

/-- Vector, matrix and interpolation engines and their stores (R4). DESIGN CHOICE, log entry 3. DEDUCED, log entry 12. -/
structure Engines where
  /-- rows v0 to v1023; 0 when unlisted -/
  v : Store Row := []
  acc : Store AccBank := []
  slot : Store Slot := []
  /-- operand memory, byte 8192·o + offset -/
  slotMem : Memory := []
  desc : Store Desc := []
  /-- legend entries, 256·l + e -/
  ent : Store (BitVec 32) := []
  /-- the tick at which each unit's occupancy ends (R223, R235, R208) -/
  builderEnd : Nat := 0
  arrayEnd : Nat := 0
  drainEnd : Nat := 0
  ipfEnd : Nat := 0
  ipsel : Nat := 0
  tabs : Store (Option Tab) := []
  /-- drain buffers held, with the number of entries not yet stored (R248) -/
  drain : Store Nat := []
deriving DecidableEq, Repr

/-- System registers of a core (R181) that are not computed from other state. DESIGN CHOICE, log entry 3. -/
structure Sys where
  mb : Store Word := []
  lvl : Store Word := []
  gpos : Word := 0#64
  bwph : Word := 0#64
  /-- the tick of the last X-stream landing into BWPH, and BWPH before it: a contour of that tick applies the latter (R124) -/
  bwphLate : Option (Nat × Word) := none
  bwpa : Word := 0#64
  spmask : BitVec 32 := 0#32
  divp : Word := 0x1111#64
  /-- as bwphLate, for DIVP (R177) -/
  divpLate : Option (Nat × Word) := none
  diva : Word := 0x1111#64
  contid : Word := 0#64
  fmtt : Store Word := []
  /-- the record's Levels (R113) -/
  levels : Nat := 0
  fix : Fix := {}
  /-- wall time at which the counts of lost cycles were last cleared (R355) -/
  cleared : Nat := 0
deriving DecidableEq, Repr

/-- A cached leaf of a core's translation cache (R256): virtual page of 2^size bytes, its entry, and when it was cached. -/
structure Leaf where
  vpn : Nat
  size : Nat
  entry : Word
  stamp : Nat
deriving DecidableEq, Repr

/-- An operation a handler inserted in the survey (R325, R330), with the ISEQs and engines of the original records its DEP names. -/
structure Inserted where
  word : Word
  kind : Nat
  w2 : Word
  w3 : Word
  w4 : Word
  w5 : Word
  deps : List (Nat × Nat)
  /-- the unticked original records that stand before it -/
  before : List (Nat × Nat)
  /-- it has reported its watchpoint and goes on past it (R346) -/
  quiet : Bool := false
deriving DecidableEq, Repr

/-- One core. -/
structure Core where
  /-- context number of the group placed on it; 0 none (R119) -/
  owner : Nat := 0
  part : Option Nat := none
  failed : Bool := false
  x : XStream := {}
  a : AStream := {}
  /-- the interrupted A-stream while a handler runs (R323) -/
  saved : Option AStream := none
  /-- the handler has reached a RESUME that succeeded (R329) -/
  resumed : Bool := false
  h : Store Word := []
  q : Store Queue := []
  /-- the latest pops of q7, the last first: tick and entry (R200) -/
  freed7 : List (Nat × Entry) := []
  /-- sender and ISEQ of rows from the other die that entered q7 before the tick at which they are sent (R199) -/
  early : List (Nat × Nat) := []
  /-- the last ISEQ among the A-class pushes whose entries have been popped (R152) -/
  seen : Nat := 0
  tk : Store Nat := []
  e : Engines := {}
  sys : Sys := {}
  /-- scratchpad bytes -/
  sp : Memory := []
  banks : Store Bank := []
  lines : Store Line := []
  race : Race := {}
  barA : Store Nat := []
  barW : Store Nat := []
  /-- snapshots carried by BARA, by 16·phase + n (R287, R299) -/
  carried : Store (List Nat) := []
  /-- by the same number, the writes that a BARA has ordered before what follows the BARWs of its phase (R300) -/
  covered : Store (List Nat) := []
  /-- the releases of its fences, one a scope, and those whose writes it has read (R280, R297) -/
  fences : List Rel := []
  heard : List Rel := []
  ops : List Op := []
  aops : List AOp := []
  /-- the interrupted A-stream's unfinished syllables while a handler runs (R323) -/
  heldA : List AOp := []
  cmds : List Cmd := []
  /-- the interrupted commands while a handler runs (R311, R323) -/
  heldC : List Cmd := []
  inserted : List Inserted := []
  iseq : Nat := 0
  copySeq : Nat := 0
  /-- the chart clock, local to the core (R110, R181) -/
  tick : Nat := 0
  /-- the access core's own clock, in ticks: no chart clock stops or resets it (R3, R146, R166) -/
  cycle : Nat := 0
  cache : List Leaf := []
  /-- the cause this core raised at the stop: cause, code, engine, ISEQ, detail address, detail, legend (R315, R316, R322) -/
  cause : Nat := 0
  code : Nat := 0
  causeEngine : Nat := 0
  causeIseq : Nat := 0
  detailAddr : Word := 0#64
  detail : Word := 0#64
  detailLegend : Option Nat := none
  ts : Nat := 0
  /-- the survey as written, one record of eight words each (R332) -/
  asWritten : List (List Word) := []
  /-- the records that the supervisor asked to be reissued, none while the survey stands as written (R329, R332) -/
  edited : Option (List (List Word)) := none
  /-- the save image reserved for the group on this core: the bytes whose place R332 and R333 give, by offset -/
  image : Memory := []
  /-- the parts of the image that have been written, by offset and length; the rest holds unspecified values (R332) -/
  imageHas : List (Nat × Nat) := []
  /-- the copy engine is frozen by a watch match (R346) -/
  frozen : Bool := false
  finished : Bool := false
  /-- a cause was raised in handler mode: it goes to the supervisor (R323) -/
  toSupv : Bool := false
  /-- retired-core spare in use (R401) -/
  spared : Bool := false
  /-- firmware asked to retire it while a group was placed on it (R401) -/
  retiring : Bool := false
deriving DecidableEq, Repr

/-! ### Groups and launches -/

/-- Where a context stands (R99, R103, R311, R322, R329, R334). -/
inductive Status where
  | running
  /-- halted, surveys written, not delivered -/
  | stopped
  /-- handlers run on the cores that raised a cause -/
  | handling
  /-- phase 1 of a resume: unticked records reissue, clocks held -/
  | resuming
  /-- descheduled, the rest of the save image being written; then back to the dispatcher or with the supervisor -/
  | saving
  /-- saved and a candidate for placement (R103) -/
  | descheduled
  /-- saved and with the partition supervisor (R322) -/
  | supervised
  /-- saved and asked to be placed again by the supervisor (R332) -/
  | replacing
  | done
deriving DecidableEq, Repr

/-- What a waiting syllable waits for: on the X-stream a slip (R145), on an access core a wait of its own. -/
inductive Slip where
  /-- an entry of a queue to pop -/
  | pop (q : Nat)
  /-- room in a queue -/
  | room (q : Nat)
  /-- a token -/
  | token (ch : Nat)
  /-- the readiness of a `.w` matrix syllable, by ISEQ -/
  | start (iseq : Nat)
  /-- the fetch of the next bundle -/
  | fetch
  /-- operations of the access core to finish; not a slip -/
  | ops
  /-- room for the k operations of a bundle among the 96 of a core (R313) -/
  | full (k : Nat)
  /-- window lines to move -/
  | window
  /-- the alignment of the group; not a slip (R110) -/
  | align
  /-- a register that an unfinished A-class syllable will write (R50); not a slip -/
  | reg
deriving DecidableEq, Repr

/-- A context: a placed group and what the dispatcher keeps of it (R99 to R109, R332). -/
structure Grp where
  num : Nat
  part : Nat
  obj : Nat
  tag : Word
  x0 : Nat
  y0 : Nat
  d0 : Nat
  w : Nat
  hgt : Nat
  dies : Nat
  /-- cores in ascending hop count, then number -/
  cores : List Nat
  depth : Nat
  prio : Nat
  arrival : Nat
  parents : List Nat
  handler : Option Word
  mask : BitVec 256
  status : Status := .running
  key : Nat := 0
  /-- the chart clock runs -/
  clock : Bool := false
  slip : Option Slip := none
  slipSince : Nat := 0
  /-- the core whose bundle or start waits -/
  slipCore : Nat := 0
  /-- contours passed since the pending frequency request, per core (R374) -/
  passed : List Nat := []
  readySince : Nat := 0
  /-- cause code of the last stop delivered to the supervisor (R367) -/
  lastCause : Nat := 0
  unresumable : Bool := false
  /-- the saved cores while descheduled (R332) -/
  images : List (Nat × Core) := []
  /-- a descheduled context that waits for a pool entry at this depth (R103) -/
  needsPool : Option Nat := none
  /-- since when a descheduled context ages (R98) -/
  queuedSince : Nat := 0
deriving DecidableEq, Repr

/-- An accepted launch that has not been placed (R95, R97, R102). -/
structure Launch where
  record : Bytes
  obj : Nat
  tag : Word
  arrival : Nat
  depth : Nat
  prio : Nat
  /-- pool reserve the entry came from: 0 shared, else the depth (R102) -/
  pool : Nat
  /-- arrival sequences of unfinished launches it is bound to (R97), and of all that it was bound to at acceptance -/
  waits : List Nat
  bound : List Nat := []
  depFailed : Bool := false
  readySince : Option Nat
  /-- arrival sequences of the LAUNCH parents, innermost first (R371) -/
  parents : List Nat
deriving DecidableEq, Repr

/-- A symbol of a loaded object (R14). -/
structure Sym where
  name : Bytes
  sec : Nat
  binding : Nat
  kind : Nat
  value : Nat
deriving DecidableEq, Repr

/-- A loaded object (R10 to R22). -/
structure Obj where
  id : Nat
  base : Word
  pa : Nat
  size : Nat
  /-- section kind, load offset, size -/
  secs : List (Nat × Nat × Nat)
  syms : List Sym
  /-- patch slots: section kind and offset (R25) -/
  slots : List (Nat × Nat)
  templates : List Word
  /-- objects whose symbols it resolved (R22) -/
  links : List Nat
  deferred : Bool := false
deriving DecidableEq, Repr

/-- A partition (R91 and the chapters that give its window). -/
structure Part where
  cores : List Nat := []
  peers : List (Nat × Nat) := []
  windowBase : Nat := 0
  windowSize : Nat := 0
  /-- registers of the system window by offset (R92, R258, R341, R367, R377, R396, R403); unlisted: `partReset` -/
  regs : Store Word := []
  arrivals : Nat := 0
  /-- accepted launches that have not been placed -/
  pending : List Launch := []
  /-- (tag, arrival, completed and successful) of accepted launches, newest first (R97) -/
  history : List (Word × Nat × Option Bool) := []
  reserved : List (Nat × List Nat) := []
  lastPass : Nat := 0
  objs : List Obj := []
  nextObj : Nat := 1
  /-- quarantined pages with the QSEQ at entry, the slot of a PUBLISH; released pages (R259, R274) -/
  quarantine : List (Nat × Nat × Option (Nat × Nat)) := []
  released : List Nat := []
  /-- old visible page bases that return as a slot's shadow: slot, generation, pages left, base (R274) -/
  shadows : List (Nat × Nat × Nat × Word) := []
  /-- completion records that wait (R367) -/
  records : List Bytes := []
  /-- per-source trace state: source, sequence tag, and the clock from which the next delta counts, below 0 when the clock has started
  anew since (R351, R352) -/
  trace : List (Nat × Nat × Int) := []
  /-- armed watchpoints: number, and the place and length in bytes that EN fixed (R344) -/
  armed : List (Nat × Place × Nat) := []
  /-- peer reports not yet written (R346) -/
  peerReports : List Bytes := []
  /-- a group has been placed: the handle generations stand (R272) -/
  placedAny : Bool := false
deriving DecidableEq, Repr

/-! ### The rest of the device -/

/-- Power controller (R373 to R388): snapshot registers by window offset, and what drives the rest. -/
structure Power where
  regs : Store Word := []
  /-- the time that the reference clock has counted, in thousandths of a tick: nothing while it is stopped, less while it is stretched (R121, R378, R380) -/
  ref : Nat := 0
  refset : Nat := 2400
  refcur : Nat := 2400
  pend : Option Nat := none
  plimit : Nat := 1500
  update : Bool := false
  /-- the thermal trip holds the clock, since when, and the dies that reached 115 °C (R380) -/
  therm : Bool := false
  thermSince : Nat := 0
  hot : List Nat := []
  stretch : Bool := false
  stretchSince : Nat := 0
  auto : Bool := false
  /-- wall time of the last PCHB write (R381) -/
  beat : Nat := 0
  /-- present voltage and target by rail in mV; the fused voltage when none (R373, R376) -/
  rails : Store (Option Nat) := []
  targets : Store (Option Nat) := []
  /-- a rail's move in progress: when it started, and whether it rises (R376) -/
  moves : Store (Option (Nat × Bool)) := []
  /-- when a rail last rose (R376) -/
  railRose : Store (Option Nat) := []
  /-- (context, core) pairs that have passed a contour since the target of the core's rail fell (R376) -/
  railPassed : List (Nat × Nat) := []
  /-- targets held in autopilot by rail, and divisor floors by core (R381) -/
  heldTarget : Store Nat := []
  floors : Store Word := []
deriving DecidableEq, Repr

/-- A cluster's parking registers (R384 to R388). -/
structure Cluster where
  req : Bool := false
  evict : Bool := false
  /-- RETSAVE as last written: DIR and ADDR; and the ADDR of the last accepted save or restore -/
  dir : Bool := false
  addr : Nat := 0
  work : Nat := 0
  done : Bool := false
  err : Bool := false
  /-- an accepted save or restore runs; whether the last accepted one was a save -/
  busy : Bool := false
  saving : Bool := false
  gate : Bool := false
  stat : Bool := false
  gatedAt : Nat := 0
  off : Bool := false
  /-- RAILSTAT.STATE -/
  rail : Nat := 0
  wake : Bool := false
  count : Nat := 0
  /-- the retention state: as a restore read it back, none as the cluster came up, after so many losses; and the images that saves have written (R386) -/
  ret : Option Bytes := none
  losses : Nat := 0
  saves : List Bytes := []
deriving DecidableEq, Repr, Inhabited

/-- A partition's energy meters (R382, R383), in fractions of a µJ: up to a wall time the nanoseconds of its cores; what its transfers and those of peers in
its windows were charged; and what was credited for their coding. -/
structure Meter where
  since : Nat := 0
  coreNs : Nat := 0
  charged : Nat := 0
  credited : Nat := 0
deriving DecidableEq, Repr, Inhabited

/-- Balore root and health (R394 to R401). -/
structure Balore where
  m : Bytes := List.replicate 48 0#8
  log : List (Nat × Bytes) := []
  stage1 : Option StageImage := none
  running : List Nat := []
  health : Word := 0#64
  mcstat : Word := 0#64
  pcbase : Word := 0#64
deriving DecidableEq, Repr

/-- A management core (R389): its stream, and whether it has stopped issuing. -/
structure Mgmt where
  a : AStream := {}
  halted : Bool := true
deriving DecidableEq, Repr

/-- The last answer the device gave to the outside: an RDMA answer, a peer response or a command's status (R20, R95, R402). -/
inductive Reply where
  | none
  | ack
  | data (d : Bytes)
  | nakInvalid
  | nakAccess
  /-- a read found an uncorrectable error (R90) -/
  | uncorrected
  | status (w : Word)
deriving DecidableEq, Repr

/-! ### What is being issued, and what moves next -/

/-- Where the issuing of a syllable stands. -/
inductive Out where
  | running
  /-- the bundle waits: a slip on the X-stream, an access-side wait on the A-stream -/
  | waits (why : Slip)
  | stopped
deriving DecidableEq, Repr

/-- The control effect a B-class syllable leaves for the end of its bundle (R37: no syllable sees another's results). -/
inductive Ctl where
  | none
  | goto (target : Word) (b : Option BReg)
  | call (target : Word) (b : BReg) (frame : Nat)
  | ret (target : Word)
  | loop (lv : Nat) (trip : Nat) (stop : Word) (rot : Option Rot)
  | lexit (lv : Nat)
  | wait (n : Nat)
  | contour (id : Nat)
  | exit
  | stop (cause code : Nat) (addr : Word)
  | align
  | resume (n : Nat)
deriving DecidableEq, Repr

/-- A register write an A-stream or management-core bundle makes when it ends (R37). -/
inductive AWrite where
  /-- with the latency after which it lands (R45, R46) -/
  | x (n : Nat) (v : Word) (lat : Nat)
  | c (n : Nat) (v : Bool)
  | b (n : Nat) (v : Word)
  | sys (n : Nat) (v : Word)
deriving DecidableEq, Repr

/-- Which stream issues. -/
inductive Who where
  | x
  | a
  | mgmt
deriving DecidableEq, Repr

/-- The issue context: the model's own record of the syllable being issued. -/
structure Ctx where
  who : Who := .x
  core : Nat := 0
  /-- address and word of the syllable -/
  pc : Word := 0#64
  word : Word := 0#64
  /-- address just past the bundle -/
  past : Word := 0#64
  iseq : Nat := 0
  /-- the first ISEQ of the bundle -/
  first : Nat := 0
  tick : Nat := 0
  out : Out := .running
  ctl : Ctl := .none
  writes : List AWrite := []
  /-- whether the q7 entries that a core nearer the origin frees in time count for a VSEND (R200) -/
  room : Bool := false
deriving DecidableEq, Repr

/-- What a step does: one tick of a group's chart, one issue of an access core or a management core, one chunk of a copy
engine, or a machine event of the table. DESIGN CHOICE, log entry 1. -/
inductive Act where
  | chart (ctx : Nat)
  | astream (core : Nat)
  | mgmt (n : Nat)
  | copy (core : Nat)
  | event (i : Instr)
  /-- a read corrects an error: only the count shows it (R89) -/
  | corrected
  /-- an uncorrectable error arises at a place, numbered as in `State.bad` (R90) -/
  | upset (kind core n : Nat)
  /-- another device changes bytes of its own shared window (R254) -/
  | outside (node off : Nat) (d : Bytes)
  /-- what is written from now on is not shown at once to some cores (R279, R281) -/
  | hide (cores : List Nat)
  /-- a write that was hidden is shown to some cores -/
  | spread (id : Nat) (cores : List Nat)
  /-- a write of a core is performed before an access which it is ordered after toward some cores only (R277, R279) -/
  | early (core iseq : Nat)
  /-- a write of a core takes its place in the coherence order before one that the core has not been shown (R281) -/
  | under (core iseq : Nat)
deriving DecidableEq, Repr

/-- One turn: nanoseconds of wall time that pass, then the act. DESIGN CHOICE, log entry 1. DESIGN CHOICE, log entry 28. -/
structure Turn where
  adv : Nat
  act : Act
deriving DecidableEq, Repr

/-- The device. Its counters without a reset value start at 0 (DESIGN CHOICE, log entry 5); turns, ctx, stamp, free, reply and what groups and
cores keep for them are the model's own fields (log entries 1 and 87). -/
structure State where
  cores : Store Core := []
  groups : List Grp := []
  parts : Store Part := []
  hbm : Memory := []
  /-- bytes of other devices' shared windows, node·2^50 + offset -/
  peer : Memory := []
  /-- what the cores are shown of the order of writes (R279 to R281) -/
  order : Order := {}
  lostNodes : List Nat := []
  /-- places whose reads find an uncorrectable error: kind (0 HBM line, 1 scratchpad line, 2 slot, 3 accumulator bank,
  4 legend, 5 drain buffer), core, number (R90) -/
  bad : List (Nat × Nat × Nat) := []
  /-- HBM channels being copied into a spare, remapped channels, and channels that failed with no spare left (R400) -/
  copying : List Nat := []
  remapped : List Nat := []
  dead : List Nat := []
  /-- the device's own writes that wait for a channel being copied, in order: HBM address and bytes (R400) -/
  delayed : List (Nat × Bytes) := []
  power : Power := {}
  /-- the energy meters by partition (R382) -/
  meters : Store Meter := []
  clusters : Store Cluster := []
  balore : Balore := {}
  mgmt : Store Mgmt := []
  wall : Nat := 0
  fixId : Nat := 0
  /-- fixes of the last 100 ns: wall time, and the partition or none for the package (R354) -/
  fixes : List (Nat × Option Nat) := []
  nextCtx : Nat := 1
  /-- QSEQ, with what was alive at the instant it reached its value: context, core and ISEQ of accesses and commands, and the stamp
  below which translations were cached (R259) -/
  qseq : Nat := 0
  qAlive : List (Nat × Nat × Nat) := []
  qStamp : Nat := 0
  /-- the model's own numbering of translations, captures and fences -/
  stamp : Nat := 0
  reply : Reply := .none
  /-- counter of free values used -/
  free : Nat := 0
  ctx : Ctx := {}
  turns : List Turn := []
deriving DecidableEq, Repr

/-- A stop cause with what the survey header says of it (R310, R315, R316). -/
structure Cause where
  cause : Nat
  code : Nat := 0
  engine : Nat := 0
  iseq : Nat := 0
  addr : Word := 0#64
  detail : Word := 0#64
  legend : Option Nat := none
deriving DecidableEq, Repr

/-- Why the machine stops without a next state. -/
inductive Fault where
  /-- A stream fetches outside every text section (raised by fetch): the spec bounds branch targets only (R167) and gives no
  effect for running off the end of a section. Safe: the model stops. -/
  | fetchOutside (addr : Word)
deriving DecidableEq, Repr

/-- Why the machine refuses an instruction. -/
inductive Refusal where
  /-- An instruction that has no meaning in this model yet, rejected by name in its arm of exec. Safe: the model stops. -/
  | notModelled (mnemonic : String)
deriving DecidableEq, Repr

/-- The machine right after package reset, before the Balore root has loaded a stage (R394): nothing placed, no
partition, memories and stores with nothing listed, every divisor 2 (R3), REFSET 2,400 and PLIMIT 1,500 (R373). DESIGN CHOICE, log entry 3. -/
def State.reset : State := {}

end Sys2Proof.Machine
end

