-- ==== Sys2Proof/Machine/Store.lean ====
section
/-! DEFINITION. Sparse stores and memories in canonical form, byte order (R8), rows and lanes (R72). -/

namespace Sys2Proof.Machine

/-! ### Sparse stores -/

/-- The value at a key; d where nothing is listed. -/
def sget {α : Type} (d : α) (k : Nat) : Store α → α
  | [] => d
  | (j, v) :: t => if j = k then v else sget d k t

/-- Drop what is listed at a key. -/
def sdrop {α : Type} (k : Nat) : Store α → Store α
  | [] => []
  | (j, v) :: t => if j = k then sdrop k t else (j, v) :: sdrop k t

/-- Write a value at a key, keeping the keys rising and dropping an entry equal to the default. -/
def sset {α : Type} [DecidableEq α] (d : α) (k : Nat) (v : α) : Store α → Store α
  | [] => if v = d then [] else [(k, v)]
  | (j, u) :: t =>
    if v = d then sdrop k ((j, u) :: t)
    else if k < j then (k, v) :: (j, u) :: t
    else if j = k then (k, v) :: t
    else (j, u) :: sset d k v t

/-- The canonical form from a lower bound on the keys. -/
def swfFrom {α : Type} [DecidableEq α] (d : α) (lo : Nat) : Store α → Bool
  | [] => true
  | (j, v) :: t => decide (lo ≤ j) && decide (v ≠ d) && swfFrom d (j + 1) t

/-- Keys strictly rising and no default entry. -/
def swf {α : Type} [DecidableEq α] (d : α) (s : Store α) : Bool := swfFrom d 0 s

/-- Drop the entries at lo to lo+n-1. -/
def sclear {α : Type} (lo n : Nat) (s : Store α) : Store α := s.filter fun e => e.1 < lo || lo + n ≤ e.1

/-! ### Memories: what an unlisted byte reads as is zero (R121 for scratchpad; a design choice for HBM) -/

/-- What a byte that nothing has written reads as. DESIGN CHOICE, log entry 2. -/
def unwritten : Byte := 0#8

/-- One byte of a memory. DESIGN CHOICE, log entry 2. -/
def Memory.read (m : Memory) (a : Nat) : Byte := sget unwritten a m

/-- Write one byte. -/
def Memory.write (m : Memory) (a : Nat) (b : Byte) : Memory := sset unwritten a b m

/-- The canonical form of a memory. -/
def Memory.wf (m : Memory) : Bool := swf unwritten m

/-- n bytes from an address up. -/
def Memory.bytes (m : Memory) (a : Nat) : Nat → Bytes
  | 0 => []
  | n + 1 => Memory.read m a :: Memory.bytes m (a + 1) n

/-- Store bytes from an address up. -/
def Memory.store (m : Memory) (a : Nat) : Bytes → Memory
  | [] => m
  | b :: t => Memory.store (Memory.write m a b) (a + 1) t

/-- Zero-fill n bytes (R121). -/
def Memory.zero (m : Memory) (a n : Nat) : Memory := sclear a n m

/-! ### Little-endian values (R8) -/

/-- The number a byte string spells, lowest byte first. -/
def leNat : Bytes → Nat
  | [] => 0
  | b :: t => b.toNat + 256 * leNat t

/-- The low n bytes of a number, lowest first. -/
def leBytes : Nat → Nat → Bytes
  | 0, _ => []
  | n + 1, v => BitVec.ofNat 8 v :: leBytes n (v / 256)

/-- n bytes of a memory as a number. -/
def Memory.le (m : Memory) (a n : Nat) : Nat := leNat (Memory.bytes m a n)

/-- A 64-bit word of a memory. -/
def Memory.word (m : Memory) (a : Nat) : Word := BitVec.ofNat 64 (Memory.le m a 8)

/-- The bytes of a word. -/
def wordBytes (w : Word) : Bytes := leBytes 8 w.toNat

/-! ### Rows and lanes (R72) -/

/-- The 128 bytes of a row. -/
def rowBytes (r : Row) : Bytes := leBytes 128 r.toNat

/-- A row of bytes, zero above those given. -/
def rowOf (b : Bytes) : Row := BitVec.ofNat 1024 (leNat b)

/-- Lane k of w bits. -/
def lane (w k : Nat) (r : Row) : BitVec w := r.extractLsb' (w * k) w

/-- The number that lanes of w bits spell, lane 0 lowest. -/
def lanesNat (w : Nat) : List (BitVec w) → Nat
  | [] => 0
  | v :: t => v.toNat + 2 ^ w * lanesNat w t

/-- A row from its lanes. -/
def ofLanes (w : Nat) (ls : List (BitVec w)) : Row := BitVec.ofNat 1024 (lanesNat w ls)

/-- Lanes 0 to n-1 of w bits. -/
def lanes (w n : Nat) (r : Row) : List (BitVec w) := (List.range n).map fun k => lane w k r

/-- The row mask of the lanes of w bits whose predicate bit is 1 (R36). -/
def laneMask (w n : Nat) (p : Word) : Row :=
  ofLanes w ((List.range n).map fun k => if p.getLsbD k then BitVec.allOnes w else 0#w)

/-- A row with the bits of mask replaced (R36, R142). -/
def blend (mask old new : Row) : Row := (old &&& ~~~mask) ||| (new &&& mask)

end Sys2Proof.Machine
end

