-- ==== Sys2Proof/Machine/Numbers.lean ====
section
/-! DEFINITION. Number formats, rounding and exact arithmetic (R72 to R88): every computation is exact on `Val` and rounded
once where the manual rounds. -/

namespace Sys2Proof

open Sys2Proof.Machine

/-! ### Exact arithmetic with signed zeros (R86) -/

/-- Rounding-mode codes (R40): 0 RNE, 1 RTZ, 2 RDN, 3 RUP, 4 RNA. -/
abbrev Rnd := Nat

/-- The integer numerator of a dyadic at exponent e ≤ its own. -/
def Dy.intAt (d : Dy) (e : Int) : Int :=
  let m : Int := (d.man * 2 ^ (d.exp - e).toNat : Nat)
  if d.neg then -m else m

/-- The dyadic of an integer times a power of two; zero is +0. -/
def Dy.ofInt (i : Int) (e : Int) : Dy := { neg := decide (i < 0), man := i.natAbs, exp := e }

/-- An exact sum with the zero-sign rule of R86. -/
def Dy.add (rm : Rnd) (a b : Dy) : Dy :=
  let e := min a.exp b.exp
  let s := a.intAt e + b.intAt e
  if s = 0 then
    if a.man = 0 && b.man = 0 && a.neg == b.neg then { neg := a.neg, man := 0, exp := e }
    else { neg := rm == 2, man := 0, exp := e }
  else Dy.ofInt s e

/-- An exact product; the sign is the exclusive OR (R86). -/
def Dy.mul (a b : Dy) : Dy := { neg := a.neg != b.neg, man := a.man * b.man, exp := a.exp + b.exp }

/-- Negation inverts the sign (R86). -/
def Val.neg : Val → Val
  | .fin d => .fin { d with neg := !d.neg }
  | .inf s => .inf (!s)
  | .nan => .nan

/-- Sum of two values under IEEE 754 rules for infinities and NaN (R74). -/
def Val.add (rm : Rnd) : Val → Val → Val
  | .nan, _ => .nan
  | _, .nan => .nan
  | .inf a, .inf b => if a == b then .inf a else .nan
  | .inf a, .fin _ => .inf a
  | .fin _, .inf b => .inf b
  | .fin a, .fin b => .fin (Dy.add rm a b)

/-- Product of two values (R74). -/
def Val.mul : Val → Val → Val
  | .nan, _ => .nan
  | _, .nan => .nan
  | .inf a, .inf b => .inf (a != b)
  | .inf a, .fin b => if b.man = 0 then .nan else .inf (a != b.neg)
  | .fin a, .inf b => if a.man = 0 then .nan else .inf (a.neg != b)
  | .fin a, .fin b => .fin (Dy.mul a b)

/-- An integer as an exact value. -/
def Val.ofInt (i : Int) : Val := .fin (Dy.ofInt i 0)

/-- An exact value times a power of two. -/
def Val.scale (n : Val) (e : Int) : Val :=
  match n with
  | .fin d => .fin { d with exp := d.exp + e }
  | x => x

/-- The power of two 2^e. -/
def Val.pow2 (e : Int) : Val := .fin { neg := false, man := 1, exp := e }

/-- Exact comparison of finite dyadics: a < b. -/
def Dy.lt (a b : Dy) : Bool := let e := min a.exp b.exp; decide (a.intAt e < b.intAt e)

/-- a < b on ordered values. -/
def Val.lt : Val → Val → Bool
  | .nan, _ => false
  | _, .nan => false
  | .inf a, .inf b => a && !b
  | .inf a, .fin _ => a
  | .fin _, .inf b => !b
  | .fin a, .fin b => Dy.lt a b

/-- Equality on ordered values; +0 equals −0 (R191). -/
def Val.eqv (a b : Val) : Bool := a != .nan && b != .nan && !Val.lt a b && !Val.lt b a

/-! ### Rounding (R86) -/

/-- man / 2^k rounded to an integer magnitude in a mode, for a value of the given sign. DEDUCED, log entry 83. -/
def roundMag (rm : Rnd) (neg : Bool) (man k : Nat) : Nat :=
  let q := man / 2 ^ k
  let r := man % 2 ^ k
  if k = 0 ∨ r = 0 then q
  else
    let half := 2 ^ (k - 1)
    let up : Bool := match rm with
      | 0 => decide (r > half) || (decide (r = half) && q % 2 == 1)
      | 1 => false
      | 2 => neg
      | 3 => !neg
      | _ => decide (r ≥ half)
    if up then q + 1 else q

/-- A floating format: fraction bits, exponent of the least subnormal bit, and the first code past the largest finite one. -/
structure Fmt where
  width : Nat
  fb : Nat
  lsb : Int
  top : Nat
deriving DecidableEq, Repr

/-- IEEE 754 binary32 (R73). -/
def f32 : Fmt := { width := 32, fb := 23, lsb := -149, top := 0x7F800000 }
/-- BF16 (R73). -/
def bf16 : Fmt := { width := 16, fb := 7, lsb := -133, top := 0x7F80 }
/-- F8E4: every code finite (R76). -/
def f8e4 : Fmt := { width := 8, fb := 3, lsb := -9, top := 0x80 }
/-- F8E5: every code finite (R76). -/
def f8e5 : Fmt := { width := 8, fb := 2, lsb := -16, top := 0x80 }

/-- The magnitude code of a finite value rounded in a mode, without overflow treatment: codes grow with magnitude. -/
def Fmt.mag (f : Fmt) (rm : Rnd) (d : Dy) : Nat :=
  if d.man = 0 then 0
  else
    let top : Int := (Nat.log2 d.man : Int) + d.exp
    let q := max f.lsb (top - f.fb)
    let m := if d.exp ≥ q then d.man * 2 ^ (d.exp - q).toNat else roundMag rm d.neg d.man (q - d.exp).toNat
    (q - f.lsb).toNat * 2 ^ f.fb + m

/-- A code with its sign. -/
def Fmt.signed (f : Fmt) (neg : Bool) (mag : Nat) : Nat := if neg then 2 ^ (f.width - 1) + mag else mag

/-- Rounding a value to FP32 or BF16: IEEE 754 overflow for the mode, canonical NaN (R74, R86). DEDUCED, log entry 83. -/
def Fmt.enc (f : Fmt) (rm : Rnd) : Val → Nat
  | .nan => f.top + 2 ^ (f.fb - 1)
  | .inf s => f.signed s f.top
  | .fin d =>
    let m := f.mag rm d
    if m ≥ f.top then
      let toInf : Bool := match rm with | 1 => false | 2 => d.neg | 3 => !d.neg | _ => true
      f.signed d.neg (if toInf then f.top else f.top - 1)
    else f.signed d.neg m

/-- Rounding to a format without infinities: saturating, NaN to +0 (R87). -/
def Fmt.encSat (f : Fmt) (rm : Rnd) : Val → Nat
  | .nan => 0
  | .inf s => f.signed s (f.top - 1)
  | .fin d => f.signed d.neg (min (f.mag rm d) (f.top - 1))

/-- The value of a code (R73, R76). -/
def Fmt.dec (f : Fmt) (c : Nat) : Val :=
  let s := c / 2 ^ (f.width - 1) % 2 == 1
  let m := c % 2 ^ (f.width - 1)
  if f.width > 8 && m > f.top then .nan
  else if f.width > 8 && m = f.top then .inf s
  else
    let e := m / 2 ^ f.fb
    let fr := m % 2 ^ f.fb
    if e = 0 then .fin { neg := s, man := fr, exp := f.lsb }
    else .fin { neg := s, man := fr + 2 ^ f.fb, exp := f.lsb + (e - 1 : Nat) }

/-- A finite value rounded to an integer in a mode. -/
def Dy.roundInt (rm : Rnd) (d : Dy) : Int :=
  let m := if d.exp ≥ 0 then d.man * 2 ^ d.exp.toNat else roundMag rm d.neg d.man (-d.exp).toNat
  if d.neg then -(m : Int) else m

/-- Clamp to a range. -/
def clampI (lo hi x : Int) : Int := if x < lo then lo else if hi < x then hi else x

/-- Conversion to an integer range: NaN is 0, infinities and overflow saturate (R87). -/
def Val.toIntSat (rm : Rnd) (lo hi : Int) : Val → Int
  | .nan => clampI lo hi 0
  | .inf s => if s then lo else hi
  | .fin d => clampI lo hi (d.roundInt rm)

/-- Bits of an integer in two's complement. -/
def toBits (w : Nat) (i : Int) : BitVec w := BitVec.ofInt w i

/-- Least and greatest value of a signed w-bit integer. -/
def sMin (w : Nat) : Int := -(2 ^ (w - 1) : Nat)
/-- See `sMin`. -/
def sMax (w : Nat) : Int := (2 ^ (w - 1) : Nat) - 1

/-- FP32 code of an exact value. -/
def encF32 (rm : Rnd) (n : Val) : BitVec 32 := BitVec.ofNat 32 (f32.enc rm n)
/-- Value of an FP32 code. -/
def decF32 (c : BitVec 32) : Val := f32.dec c.toNat
/-- BF16 code of an exact value. -/
def encB16 (rm : Rnd) (n : Val) : BitVec 16 := BitVec.ofNat 16 (bf16.enc rm n)
/-- Value of a BF16 code. -/
def decB16 (c : BitVec 16) : Val := bf16.dec c.toNat

/-- Whether a floating code is subnormal. -/
def Fmt.isSub (f : Fmt) (c : Nat) : Bool :=
  let m := c % 2 ^ (f.width - 1); decide (0 < m) && decide (m < 2 ^ f.fb)

/-- A subnormal replaced by a zero of its sign (R75). -/
def Fmt.flush (f : Fmt) (c : Nat) : Nat := if f.isSub c then c / 2 ^ (f.width - 1) * 2 ^ (f.width - 1) else c

/-! ### Exact sums -/

/-- Left-to-right exact sum of a list. -/
def Val.sum (rm : Rnd) : List Val → Val
  | [] => .fin { neg := false, man := 0, exp := 0 }
  | [a] => a
  | a :: t => t.foldl (Val.add rm) a

/-- One level of a pairwise tree (R88): adjacent pairs combined. -/
def pairUp {α : Type} (f : α → α → α) : List α → List α
  | a :: b :: t => f a b :: pairUp f t
  | l => l

/-- A pairwise tree of at most n levels (R88). -/
def treeFold {α : Type} (f : α → α → α) : Nat → List α → List α
  | 0, l => l
  | n + 1, l => treeFold f n (pairUp f l)

/-- The pairwise tree sum of 16 reads, exact (R88). -/
def treeSum (rm : Rnd) (l : List Val) : Val := (treeFold (Val.add rm) 4 l).headD (.fin { neg := false, man := 0, exp := 0 })

/-! ### Packed bit streams and block formats (R78 to R81) -/

/-- Element i of width w of a packed stream (R78). -/
def packed (stream : Nat) (w i : Nat) : Nat := stream / 2 ^ (w * i) % 2 ^ w

/-- Mantissa bits m of a block format code 7, 8 or 9 (R79, R83). -/
def bxM (code : Nat) : Nat := if code = 7 then 7 else if code = 8 then 5 else 3

/-- Bytes of one block (R79). -/
def bxBytes (code : Nat) : Nat := 2 + 4 * (bxM code + 1)

/-- The signed mantissa of an element code (R79). -/
def bxMant (m el : Nat) : Int := (BitVec.ofNat m (el % 2 ^ m)).toInt

/-- The value of element i of a block, or none in a NaN block (R79). -/
def bxValue (code : Nat) (block : Nat) (i : Nat) : Option Dy :=
  let m := bxM code
  let e0 := block % 256
  let e1 := block / 256 % 256
  if e0 = 255 ∨ e1 = 255 then none
  else
    let el := packed (block / 65536) (m + 1) i
    let e := if el / 2 ^ m = 0 then e0 else e1
    some (Dy.ofInt (bxMant m el) ((e : Int) - 127 - (m - 2 : Nat)))

/-- Dequantising to a floating format: exact, with the one saturation of R80. -/
def bxDequant (f : Fmt) (code block i : Nat) : Nat :=
  match bxValue code block i with
  | none => f.enc 0 .nan
  | some d => f.encSat 1 (.fin d)

/-- q(x, E) of R81. -/
def bxQ (rm : Rnd) (m : Nat) (x : Dy) (e : Nat) : Int :=
  clampI (sMin m) (sMax m) (({ x with exp := x.exp - ((e : Int) - 127 - (m - 2 : Nat)) } : Dy).roundInt rm)

/-- floor(log2 |x|) + 127, floored at 0, of the largest magnitude of a list (R81). -/
def bxExp (xs : List Dy) : Nat :=
  xs.foldl (fun acc d => if d.man = 0 then acc else max acc ((Nat.log2 d.man : Int) + d.exp + 127).toNat) 0

/-- The finite values of a list, or none when one is infinite or NaN. -/
def allFinite : List Val → Option (List Dy)
  | [] => some []
  | .fin d :: t => (allFinite t).map (d :: ·)
  | _ :: _ => none

/-- VQBX of 32 values: the block's bytes (R81). -/
def bxQuant (rm : Rnd) (code : Nat) (xs : List Val) : Bytes :=
  let m := bxM code
  let emit (e0 e1 : Nat) (els : List Nat) : Bytes :=
    leBytes (bxBytes code) (e0 + 256 * e1 + 65536 * els.foldr (fun x acc => x + 2 ^ (m + 1) * acc) 0)
  match allFinite xs with
  | none => emit 255 255 []
  | some ds =>
    if ds.all (fun d => d.man == 0) then emit 0 0 []
    else
      let e0 := bxExp ds
      let small (d : Dy) : Bool := decide ((bxQ rm m d e0).natAbs ≤ 1)
      let sm := ds.filter small
      let e1 := if sm.all (fun d => d.man == 0) then e0 else bxExp sm
      emit e0 e1 (ds.map fun d =>
        if small d then 2 ^ m + (toBits m (bxQ rm m d e1)).toNat else (toBits m (bxQ rm m d e0)).toNat)

end Sys2Proof
end

