-- ==== Sys2Proof/Machine/Flags.lean ====
section
/-! DEFINITION. Compares and the flags they give (R40, R162, R191, R197, R295), and the scalar arithmetic of R157 to R161. -/

namespace Sys2Proof.Machine

/-- Compare two words under a condition code: eq ne, signed lt le gt ge, unsigned ltn len gtn gen (R40, R162). -/
def condHolds (cond : Nat) {w : Nat} (a b : BitVec w) : Bool :=
  match cond with
  | 0 => a == b
  | 1 => a != b
  | 2 => a.slt b
  | 3 => a.sle b
  | 4 => b.slt a
  | 5 => b.sle a
  | 6 => a.ult b
  | 7 => a.ule b
  | 8 => b.ult a
  | _ => b.ule a

/-- Compare two floating lanes (R191): eq to ge ordered, ne unordered or not equal, ltn to gen unordered or the relation. -/
def condFloat (cond : Nat) (a b : Val) : Bool :=
  let un := a == .nan || b == .nan
  let lt := Val.lt a b
  let gt := Val.lt b a
  let eq := Val.eqv a b
  match cond with
  | 0 => eq
  | 1 => !eq
  | 2 => lt
  | 3 => lt || eq
  | 4 => gt
  | 5 => gt || eq
  | 6 => un || lt
  | 7 => un || lt || eq
  | 8 => un || gt
  | _ => un || gt || eq

/-- AWAIT's compare of w-bit values: unsigned codes zero-extended, signed codes sign-extended (R295). -/
def awaitHolds (cond sz : Nat) (v s : Word) : Bool :=
  if sz = 2 then condHolds cond (v.setWidth 32) (s.setWidth 32) else condHolds cond v s

/-- The number of one bits. -/
def popcount {w : Nat} (x : BitVec w) : Nat := (List.range w).foldl (fun n k => if x.getLsbD k then n + 1 else n) 0

/-- Trailing zero bits; w when x is 0 (R157). -/
def ctzOf {w : Nat} (x : BitVec w) : Nat := ((List.range w).find? fun k => x.getLsbD k).getD w

/-- Leading zero bits; w when x is 0 (R157). -/
def clzOf {w : Nat} (x : BitVec w) : Nat := ((List.range w).find? fun k => x.getLsbD (w - 1 - k)).getD w

/-- The high half of a product of integers (R158). -/
def mulHigh (a b : Int) : Word := BitVec.ofInt 64 (a * b / 2 ^ 64)

/-- DIV, with its fixed corners (R158). -/
def divS (a b : Word) : Word :=
  if b = 0#64 then 0xFFFFFFFFFFFFFFFF#64 else BitVec.ofInt 64 (a.toInt.tdiv b.toInt)

/-- REM, with the sign of the dividend (R158). -/
def remS (a b : Word) : Word := if b = 0#64 then a else BitVec.ofInt 64 (a.toInt.tmod b.toInt)

/-- DIVN (R158). -/
def divU (a b : Word) : Word := if b = 0#64 then 0xFFFFFFFFFFFFFFFF#64 else BitVec.ofNat 64 (a.toNat / b.toNat)

/-- REMN (R158). -/
def remU (a b : Word) : Word := if b = 0#64 then a else BitVec.ofNat 64 (a.toNat % b.toNat)

/-- The low n bits of a word kept. -/
def lowBits (n : Nat) (a : Word) : Word := a &&& BitVec.ofNat 64 (2 ^ n - 1)

/-- The low n bits sign-extended (R159). -/
def signLow (n : Nat) (a : Word) : Word := BitVec.ofInt 64 ((a.setWidth n).toInt)

/-- Bits [pos+w-1 : pos] of a replaced by the low bits of b (R159). -/
def insertBits (pos w : Nat) (a b : Word) : Word :=
  let m := BitVec.ofNat 64 (2 ^ w - 1) <<< pos
  (a &&& ~~~m) ||| ((b <<< pos) &&& m)

/-- A two-operand scalar operation by its twin code (R42), the S-class form of R157 and R158. -/
def scalarOp (op : Nat) (a b : Word) : Word :=
  match op with
  | 1 => a + b
  | 2 => a - b
  | 3 => a * b
  | 4 => a &&& b
  | 5 => a ||| b
  | 6 => a ^^^ b
  | 7 => a &&& ~~~b
  | 8 => a <<< (b.toNat % 64)
  | 9 => a >>> (b.toNat % 64)
  | 10 => a.sshiftRight (b.toNat % 64)
  | 11 => a.rotateRight (b.toNat % 64)
  | 12 => if a.slt b then a else b
  | 13 => if a.slt b then b else a
  | 14 => if a.ult b then a else b
  | 15 => if a.ult b then b else a
  | _ => a

/-- The latency of a scalar operation in control cycles (R46): MUL 3, the others of R42 1. -/
def scalarLat (op : Nat) : Nat := if op = 3 then 3 else 1

end Sys2Proof.Machine
end

