-- ==== Sys2Proof/WellFormed.lean ====
section
/-! DEFINITION. Well-formed instructions: the conditions of R51 that do not depend on the stream (reserved guards and codes,
pairs, ranges). A machine event has no encoding, so it is no well-formed syllable. -/

namespace Sys2Proof

/-- An S, B or A guard: c0 to c7 or always (R36). -/
def gC (g : BitVec 4) : Bool := g.toNat < 8 || g == 15#4

/-- A V, M or I guard: p0 to p11 or always (R36). -/
def gP (g : BitVec 4) : Bool := g.toNat < 12 || g == 15#4

/-- A well-formed twin half (R42). -/
def TwinHalf.wf (h : TwinHalf) : Bool :=
  if h.op == 0#5 then h.rd == 0#5 && h.rs1 == 0#5 && h.i == 0#1 && h.low == 0#12
  else if h.op == 16#5 then if h.i == 1#1 then h.rs1 == 0#5 else h.low == 0#12
  else h.op.toNat < 16 &&
    (if h.i == 1#1 then !(8 ≤ h.op.toNat && h.op.toNat ≤ 11) || h.low.toNat < 64
     else h.low.extractLsb' 0 7 == 0#7)

/-- R51 and R36 to R44: the syllable is one that the tables assign. A form with tkop 0 takes any tkch (DESIGN CHOICE, log entry 119). -/
def Instr.wf : Instr → Bool
  | .twin a b => a.wf && b.wf
  | .add g _ _ _ => gC g
  | .sub g _ _ _ => gC g
  | .mul g _ _ _ => gC g
  | .mulh g _ _ _ => gC g
  | .mulhn g _ _ _ => gC g
  | .div g _ _ _ => gC g
  | .divn g _ _ _ => gC g
  | .rem g _ _ _ => gC g
  | .remn g _ _ _ => gC g
  | .and g _ _ _ => gC g
  | .or g _ _ _ => gC g
  | .xor g _ _ _ => gC g
  | .andn g _ _ _ => gC g
  | .shl g _ _ _ => gC g
  | .shr g _ _ _ => gC g
  | .sar g _ _ _ => gC g
  | .rotr g _ _ _ => gC g
  | .min g _ _ _ => gC g
  | .max g _ _ _ => gC g
  | .minn g _ _ _ => gC g
  | .maxn g _ _ _ => gC g
  | .clz g _ _ => gC g
  | .ctz g _ _ => gC g
  | .popc g _ _ => gC g
  | .mov g _ _ => gC g
  | .sext g _ _ _ => gC g
  | .zext g _ _ _ => gC g
  | .bfx g _ _ pos len => gC g && pos.toNat + len.toNat < 64
  | .bfi g _ _ _ pos len => gC g && pos.toNat + len.toNat < 64
  | .sel g _ _ _ _ => gC g
  | .addi g _ _ _ => gC g
  | .andi g _ _ _ => gC g
  | .ori g _ _ _ => gC g
  | .xori g _ _ _ => gC g
  | .shli g _ _ _ => gC g
  | .shri g _ _ _ => gC g
  | .sari g _ _ _ => gC g
  | .li g _ _ => gC g
  | .lih g _ _ => gC g
  | .addpc g _ _ => gC g
  | .cmp g cd _ _ cond => gC g && cd.toNat % 2 == 0 && cond.toNat < 10
  | .cmpi g cd _ cond _ => gC g && cd.toNat % 2 == 0 && cond.toNat < 10
  | .nop g => gC g
  | .pbr g _ _ => gC g
  | .pbrx g _ _ => gC g
  | .br g _ => gC g
  | .call g _ fr => gC g && 1 ≤ fr.toNat && fr.toNat ≤ 6
  | .ret g => gC g
  | .loop g lv stop _ => gC g && lv.toNat < 6 && stop != 0#17
  | .loopx g lv stop _ => gC g && lv.toNat < 6 && stop != 0#17
  | .loopR g lv stop stg vb sm _ => gC g && lv.toNat < 6 && stop != 0#12 && 1 ≤ stg.toNat && stg.toNat ≤ 6 && vb.toNat + sm.toNat + 1 ≤ 1024
  | .loopxR g lv stop stg vb sm _ => gC g && lv.toNat < 6 && stop != 0#12 && 1 ≤ stg.toNat && stg.toNat ≤ 6 && vb.toNat + sm.toNat + 1 ≤ 1024
  | .lexit g lv => gC g && lv.toNat < 6
  | .align g => g == 15#4
  | .contour g _ => gC g
  | .wait g _ => gC g
  | .clkdiv g _ => gC g
  | .mfs g _ _ => gC g
  | .mts g _ _ => gC g
  | .exit g => gC g
  | .trap g _ => gC g
  | .bkpt g _ => gC g
  | .trmark g _ => gC g
  | .fix g => gC g
  | .resume g _ => gC g
  | .svchk g _ _ => gC g
  | .vadd g _ _ _ rnd => gP g && rnd.toNat < 5
  | .vsub g _ _ _ rnd => gP g && rnd.toNat < 5
  | .vmul g _ _ _ rnd => gP g && rnd.toNat < 5
  | .vfma g _ _ _ _ rnd => gP g && rnd.toNat < 5
  | .vfms g _ _ _ _ rnd => gP g && rnd.toNat < 5
  | .vmin g _ _ _ => gP g
  | .vmax g _ _ _ => gP g
  | .vabs g _ _ => gP g
  | .vneg g _ _ => gP g
  | .vadds g _ _ _ rnd => gP g && rnd.toNat < 5
  | .vsubs g _ _ _ rnd => gP g && rnd.toNat < 5
  | .vmullo g _ _ _ => gP g
  | .vmulh g _ _ _ u => gP g && u.toNat < 2
  | .vrshr g _ _ _ => gP g
  | .vshl g _ _ _ => gP g
  | .vshr g _ _ _ => gP g
  | .vsar g _ _ _ => gP g
  | .vand g _ _ _ => gP g
  | .vor g _ _ _ => gP g
  | .vxor g _ _ _ => gP g
  | .vnot g _ _ => gP g
  | .vcmp g pd _ _ cond => gP g && pd.toNat % 2 == 0 && pd.toNat < 12 && cond.toNat < 10
  | .vsel g _ _ _ ps => gP g && ps.toNat < 12
  | .vmov g _ _ => gP g
  | .vmovi g _ _ => gP g
  | .vbc g _ _ => gP g
  | .viota g _ _ => gP g
  | .vperm g _ _ _ _ => gP g
  | .vrotl g _ _ _ => gP g
  | .vcvt g _ _ rnd => gP g && rnd.toNat < 5
  | .vpack g _ _ _ tg rnd => gP g && rnd.toNat < 5 && tg.toNat < 5
  | .vunpk g _ _ pt tg rnd => gP g && rnd.toNat < 5 && tg.toNat < 5 && (tg != 0#4 || pt.toNat < 2)
  | .vqbx g _ _ bf rnd => gP g && rnd.toNat < 5 && 7 ≤ bf.toNat && bf.toNat ≤ 9
  | .vdqbx g _ _ bf => gP g && 7 ≤ bf.toNat && bf.toNat ≤ 9
  | .vred g _ _ op rnd => gP g && rnd.toNat < 5 && op.toNat < 3
  | .vflag g dst ps kd => gP g && ps.toNat < 12 && (kd == 3#2 || (dst.toNat < 8 && dst.toNat % 2 == 0))
  | .vclamp g _ _ _ _ => gP g
  | .vsend g _ dir => gP g && dir.toNat < 5
  | .fmt g _ => gP g
  | .fmti g _ => gP g
  | .acq g _ _ _ => gP g
  | .arel g _ => gP g
  | .oclaim g _ => gP g
  | .orel g _ => gP g
  | .owr g _ _ _ => gP g
  | .lgb g _ _ _ sk src tkop _ => gP g && tkop.toNat < 3 && (sk == 0#1 || src.toNat < 64)
  | .lgbc g _ _ _ sk src tkop _ => gP g && tkop.toNat < 3 && (sk == 0#1 || src.toNat < 64)
  | .lginv g l n => gP g && l.toNat + n.toNat + 1 ≤ 256
  | .lgsave g l n _ pos => gP g && pos.toNat + n.toNat + 1 ≤ 8 && l.toNat + n.toNat + 1 ≤ 256
  | .lgload g l n _ pos => gP g && pos.toNat + n.toNat + 1 ≤ 8 && l.toNat + n.toNat + 1 ≤ 256
  | .lgsum g l n _ => gP g && n.toNat < 32 && l.toNat + n.toNat + 1 ≤ 256
  | .mlu g _ _ _ _ _ _ tkop _ => gP g && tkop.toNat < 3
  | .mluc g _ _ _ _ _ _ tkop _ => gP g && tkop.toNat < 3
  | .mzero g _ _ _ tkop _ => gP g && tkop.toNat < 3
  | .mdrain g _ _ _ _ tkop _ => gP g && tkop.toNat < 3
  | .mdrainSt g _ _ _ _ tkop _ => gP g && tkop.toNat < 3
  | .vpop g _ q md _ cf tkop _ => gP g && tkop.toNat < 3 && md.toNat < 3 && ((md == 2#2 && cf.toNat % 2 == 0) || cf == 0#3) && q.toNat < 8
  | .vpush g _ q md tkop _ => gP g && tkop.toNat < 3 && md.toNat < 2 && q.toNat < 4
  | .spop g _ q md _ cf tkop _ => gP g && tkop.toNat < 3 && md.toNat < 3 && ((md == 2#2 && cf.toNat % 2 == 0) || cf == 0#3) && q.toNat < 4
  | .ypop g _ md _ cf tkop _ => gP g && tkop.toNat < 3 && md.toNat < 3 && ((md == 2#2 && cf.toNat % 2 == 0) || cf == 0#3)
  | .cpop g _ md _ cf tkop _ => gP g && tkop.toNat < 3 && md.toNat < 3 && ((md == 2#2 && cf.toNat % 2 == 0) || cf == 0#3)
  | .apush g _ q md tkop _ => gP g && tkop.toNat < 3 && md.toNat < 2 && q.toNat < 2
  | .ipsel g fn tkop _ => gP g && tkop.toNat < 3 && fn.toNat < 12
  | .ipld g fn _ tkop _ => gP g && tkop.toNat < 3 && 8 ≤ fn.toNat && fn.toNat < 12
  | .ipf g _ tkop _ => gP g && tkop.toNat < 3
  | .ld g _ _ _ _ _ ord scp => gC g && scp.toNat < 5 && ord.toNat < 2 && (ord != 0#2 || scp == 0#3)
  | .ldx g _ _ _ _ _ _ ord scp => gC g && scp.toNat < 5 && ord.toNat < 2 && (ord != 0#2 || scp == 0#3)
  | .st g _ _ _ _ ord scp => gC g && scp.toNat < 5 && (ord == 0#2 || ord == 2#2) && (ord != 0#2 || scp == 0#3)
  | .stx g _ _ _ _ _ ord scp => gC g && scp.toNat < 5 && (ord == 0#2 || ord == 2#2) && (ord != 0#2 || scp == 0#3)
  | .pref g _ _ => gC g
  | .ldq g q _ _ md => gC g && q.toNat < 7 && md.toNat < 2
  | .stq g q _ _ md => gC g && q.toNat < 4 && md.toNat < 2
  | .sqpush g q _ md => gC g && q.toNat < 4 && md.toNat < 2
  | .ldq2 g q _ _ _ => gC g && q.toNat < 7
  | .copy g dst src _ aux dh shd tkop _ => gC g && tkop.toNat < 3 && (dh == 0#1 || dst.toNat < 16) && (shd == 0#1 || src.toNat < 16) && (dh == 1#1 || shd == 1#1 || aux == 0#5)
  | .gather g dst src _ _ dh shd => gC g && (dh == 0#1 || dst.toNat < 16) && (shd == 0#1 || src.toNat < 16)
  | .scatter g dst src _ _ dh shd => gC g && (dh == 0#1 || dst.toNat < 16) && (shd == 0#1 || src.toNat < 16)
  | .cwait g _ _ => gC g
  | .fence g ord scp => gC g && ord != 0#2 && scp.toNat < 5
  | .tfence g scp => gC g && scp.toNat < 5
  | .bara g n => gC g && n.toNat < 16
  | .barw g n => gC g && n.toNat < 16
  | .tkpush g n => gC g && n.toNat < 16
  | .tkwait g n => gC g && n.toNat < 16
  | .spalloc g _ _ => gC g
  | .spfree g _ => gC g
  | .launchB g _ _ q => gC g && q.toNat < 16
  | .launchN g _ _ q => gC g && q.toNat < 16
  | .hld g _ _ => gC g
  | .hnew g _ _ => gC g
  | .publish g _ scp => gC g && scp.toNat < 5
  | .hfree g _ => gC g
  | .aadd g _ _ _ sz ord scp => gC g && 2 ≤ sz.toNat && scp.toNat < 5 && (ord != 0#2 || scp == 0#3)
  | .amin g _ _ _ sz ord scp => gC g && 2 ≤ sz.toNat && scp.toNat < 5 && (ord != 0#2 || scp == 0#3)
  | .amax g _ _ _ sz ord scp => gC g && 2 ≤ sz.toNat && scp.toNat < 5 && (ord != 0#2 || scp == 0#3)
  | .aand g _ _ _ sz ord scp => gC g && 2 ≤ sz.toNat && scp.toNat < 5 && (ord != 0#2 || scp == 0#3)
  | .aor g _ _ _ sz ord scp => gC g && 2 ≤ sz.toNat && scp.toNat < 5 && (ord != 0#2 || scp == 0#3)
  | .axor g _ _ _ sz ord scp => gC g && 2 ≤ sz.toNat && scp.toNat < 5 && (ord != 0#2 || scp == 0#3)
  | .axchg g _ _ _ sz ord scp => gC g && 2 ≤ sz.toNat && scp.toNat < 5 && (ord != 0#2 || scp == 0#3)
  | .acas g _ _ _ _ sz ord scp => gC g && 2 ≤ sz.toNat && scp.toNat < 5 && (ord != 0#2 || scp == 0#3)
  | .await g _ _ _ cond sz ord scp => gC g && 2 ≤ sz.toNat && scp.toNat < 5 && (ord != 0#2 || scp == 0#3) && cond.toNat < 10 && ord.toNat < 2
  | .resultLanding _ => false
  | .mxStart _ => false
  | .aClassResult _ _ => false
  | .queueFill _ _ => false
  | .vsendArrival _ => false
  | .targetFetch _ _ _ => false
  | .slipEnd _ => false
  | .windowSpillFill _ => false
  | .meridianPulse _ => false
  | .barrierPhaseComplete _ => false
  | .awaitSatisfied _ => false
  | .publishSwap _ => false
  | .tfenceComplete _ => false
  | .translationWalkEnd _ _ => false
  | .commandRetire _ => false
  | .watchCopyFreeze _ _ => false
  | .peerWatchReport _ => false
  | .bankWakeComplete _ _ => false
  | .bankIdleWarm _ _ => false
  | .accBankIdleWarm _ _ => false
  | .bankScrubComplete _ _ => false
  | .qseqAdvance => false
  | .lqtailWrite _ _ _ => false
  | .queueRecordRead _ _ => false
  | .lqcfgErrClear _ _ => false
  | .firmwareLaunch _ _ => false
  | .dispatchPassTimer _ => false
  | .priorityAging _ => false
  | .launchWaitTimeout _ => false
  | .stopDelivery _ => false
  | .saveImageComplete _ => false
  | .supervisorStop _ => false
  | .supervisorPlace _ _ => false
  | .aStreamExitComplete _ => false
  | .xExitCheck _ => false
  | .deferredUnmap _ _ => false
  | .crtailWrite _ _ => false
  | .teardownContext _ => false
  | .teardownPartition _ => false
  | .load _ _ => false
  | .unload _ => false
  | .unloadF _ => false
  | .patch _ => false
  | .cstailWrite _ _ => false
  | .qpushWrite _ _ => false
  | .qpopRead _ => false
  | .watchpointArm _ _ _ => false
  | .fixCommand => false
  | .fixinEdge => false
  | .peerAccessArrival _ => false
  | .routeLossTimeout _ => false
  | .rdmaWrite _ _ _ _ => false
  | .rdmaRead _ _ _ _ => false
  | .rdmaInvalidOperation _ => false
  | .refsetWrite _ => false
  | .referenceFrequencyChange => false
  | .currentExcess => false
  | .currentExcessEnd => false
  | .stretchTimeout => false
  | .thermalTrip _ => false
  | .thermalRecovery => false
  | .pchbWrite _ => false
  | .pwstatUpdateWrite _ => false
  | .heartbeatTimeout => false
  | .vvoteWrite _ _ => false
  | .railFallStart _ => false
  | .railAtTarget _ => false
  | .qreqReq _ _ => false
  | .qreqEvict _ => false
  | .retsaveSave _ _ => false
  | .retsaveRestore _ _ => false
  | .retsaveDone _ => false
  | .clkgateSet _ => false
  | .clkgateClear _ => false
  | .clockGateComplete _ => false
  | .railgateOff _ => false
  | .railgateOn _ => false
  | .railSwitchComplete _ => false
  | .wakeSet _ _ => false
  | .wakeackAck _ => false
  | .packageReset _ => false
  | .stageLoad _ => false
  | .attgoWrite _ _ => false
  | .mcctlRestart _ _ => false
  | .channelRetire _ => false
  | .channelCopyComplete _ => false
  | .coreRetire _ => false
  | .registerWrite _ _ => false
  | .accessPerformed _ _ => false
  | .partitionConfiguration _ _ => false

end Sys2Proof
end

