-- ==== Sys2Proof/Decode.lean ====
section
/-! DEFINITION. Decoding and encoding of syllables (R33 to R51): the header and every class's operand layout. Decoding is total:
a word that is no instruction is rejected by name, and every bit that a layout requires to be zero is checked by encoding the
fields that were read and comparing. The conditions of R51 that depend on the stream are checked at issue (R52). -/

namespace Sys2Proof

/-- Why a syllable is no instruction (R51). -/
inductive Reject where
  /-- class 7 (R34) -/
  | reservedClass
  /-- an opcode that the class does not assign (R46 to R50) -/
  | unassignedOpcode
  /-- a reserved guard, code, register or range (R36, R39, R40, R51) -/
  | reservedField
  /-- a non-zero bit where the layout requires zero, or Idle set with S = 0 (R51) -/
  | strayBits
deriving DecidableEq, Repr

/-- Bits lo+n-1 : lo of a word. -/
def fld (w : Word) (lo n : Nat) : BitVec n := w.extractLsb' lo n

/-- The S bit (R33). -/
def sBit (w : Word) : Bool := w.getLsbD 63

/-- The Idle field (R33, R35). -/
def idleOf (w : Word) : Nat := (fld w 56 4).toNat

/-- The class field (R34). -/
def classOf (w : Word) : Nat := (fld w 60 3).toNat

/-- The opcode field (R33). -/
def opcodeOf (w : Word) : Nat := (fld w 48 8).toNat

/-- The guard field (R36). -/
def guardOf (w : Word) : BitVec 4 := fld w 44 4

/-- A syllable with S and Idle cleared. -/
def bare (w : Word) : Word := w &&& 0x70FFFFFFFFFFFFFF#64

/-- The header of a syllable with S = 0 and Idle 0, before its operands (R33). -/
def hdr (cls : BitVec 3) (op : BitVec 8) (g : BitVec 4) (operands : BitVec 44) : Word :=
  0#1 ++ cls ++ 0#4 ++ op ++ g ++ operands

/-- The 28 bits of a twin half (R42). -/
def TwinHalf.bits (h : TwinHalf) : BitVec 28 := h.op ++ h.rd ++ h.rs1 ++ h.i ++ h.low

/-- The twin half at bit lo of a syllable (R42). -/
def halfAt (w : Word) (lo : Nat) : TwinHalf :=
  { op := fld w (lo + 23) 5, rd := fld w (lo + 18) 5, rs1 := fld w (lo + 13) 5, i := fld w (lo + 12) 1, low := fld w lo 12 }

/-- The operation-and-operand fields of each class, read without checks. -/
def rawT (w : Word) : Option Instr := some (.twin (halfAt w 28) (halfAt w 0))

/-- The S class (R46): opcode to instruction, every field taken from its place; rows by opcode. -/
def rawS (w : Word) : Option Instr :=
  let g := fld w 44 4
  match (fld w 48 8).toNat with
  | 0 => some (.add g (fld w 39 5) (fld w 34 5) (fld w 29 5))
  | 1 => some (.sub g (fld w 39 5) (fld w 34 5) (fld w 29 5))
  | 2 => some (.mul g (fld w 39 5) (fld w 34 5) (fld w 29 5))
  | 3 => some (.mulh g (fld w 39 5) (fld w 34 5) (fld w 29 5))
  | 4 => some (.mulhn g (fld w 39 5) (fld w 34 5) (fld w 29 5))
  | 5 => some (.div g (fld w 39 5) (fld w 34 5) (fld w 29 5))
  | 6 => some (.divn g (fld w 39 5) (fld w 34 5) (fld w 29 5))
  | 7 => some (.rem g (fld w 39 5) (fld w 34 5) (fld w 29 5))
  | 8 => some (.remn g (fld w 39 5) (fld w 34 5) (fld w 29 5))
  | 9 => some (.and g (fld w 39 5) (fld w 34 5) (fld w 29 5))
  | 10 => some (.or g (fld w 39 5) (fld w 34 5) (fld w 29 5))
  | 11 => some (.xor g (fld w 39 5) (fld w 34 5) (fld w 29 5))
  | 12 => some (.andn g (fld w 39 5) (fld w 34 5) (fld w 29 5))
  | 13 => some (.shl g (fld w 39 5) (fld w 34 5) (fld w 29 5))
  | 14 => some (.shr g (fld w 39 5) (fld w 34 5) (fld w 29 5))
  | 15 => some (.sar g (fld w 39 5) (fld w 34 5) (fld w 29 5))
  | 16 => some (.rotr g (fld w 39 5) (fld w 34 5) (fld w 29 5))
  | 17 => some (.min g (fld w 39 5) (fld w 34 5) (fld w 29 5))
  | 18 => some (.max g (fld w 39 5) (fld w 34 5) (fld w 29 5))
  | 19 => some (.minn g (fld w 39 5) (fld w 34 5) (fld w 29 5))
  | 20 => some (.maxn g (fld w 39 5) (fld w 34 5) (fld w 29 5))
  | 21 => some (.clz g (fld w 39 5) (fld w 34 5))
  | 22 => some (.ctz g (fld w 39 5) (fld w 34 5))
  | 23 => some (.popc g (fld w 39 5) (fld w 34 5))
  | 24 => some (.sext g (fld w 39 5) (fld w 34 5) (fld w 17 6))
  | 25 => some (.zext g (fld w 39 5) (fld w 34 5) (fld w 17 6))
  | 26 => some (.bfx g (fld w 39 5) (fld w 34 5) (fld w 23 6) (fld w 17 6))
  | 27 => some (.bfi g (fld w 39 5) (fld w 34 5) (fld w 29 5) (fld w 23 6) (fld w 17 6))
  | 28 => some (.sel g (fld w 39 5) (fld w 34 5) (fld w 29 5) (fld w 14 3))
  | 29 => some (.mov g (fld w 39 5) (fld w 34 5))
  | 30 => some (.addi g (fld w 39 5) (fld w 34 5) (fld w 0 34))
  | 31 => some (.andi g (fld w 39 5) (fld w 34 5) (fld w 0 34))
  | 32 => some (.ori g (fld w 39 5) (fld w 34 5) (fld w 0 34))
  | 33 => some (.xori g (fld w 39 5) (fld w 34 5) (fld w 0 34))
  | 34 => some (.shli g (fld w 39 5) (fld w 34 5) (fld w 0 6))
  | 35 => some (.shri g (fld w 39 5) (fld w 34 5) (fld w 0 6))
  | 36 => some (.sari g (fld w 39 5) (fld w 34 5) (fld w 0 6))
  | 37 => some (.li g (fld w 39 5) (fld w 0 32))
  | 38 => some (.lih g (fld w 39 5) (fld w 0 32))
  | 39 => some (.addpc g (fld w 39 5) (fld w 0 32))
  | 40 => some (.cmp g (fld w 41 3) (fld w 34 5) (fld w 29 5) (fld w 25 4))
  | 41 => some (.cmpi g (fld w 41 3) (fld w 34 5) (fld w 30 4) (fld w 0 30))
  | _ => none

/-- The B class (R47): opcode to instruction, every field taken from its place; rows by opcode. -/
def rawB (w : Word) : Option Instr :=
  let g := fld w 44 4
  match (fld w 48 8).toNat with
  | 0 => some (.nop g)
  | 1 => some (.pbr g (fld w 41 3) (fld w 0 32))
  | 2 => some (.pbrx g (fld w 41 3) (fld w 34 5))
  | 3 => some (.br g (fld w 41 3))
  | 4 => some (.call g (fld w 41 3) (fld w 38 3))
  | 5 => some (.ret g)
  | 6 => some (.loop g (fld w 41 3) (fld w 24 17) (fld w 0 24))
  | 7 => some (.loopx g (fld w 41 3) (fld w 24 17) (fld w 19 5))
  | 8 => some (.loopR g (fld w 41 3) (fld w 29 12) (fld w 26 3) (fld w 16 10) (fld w 10 6) (fld w 0 10))
  | 9 => some (.loopxR g (fld w 41 3) (fld w 29 12) (fld w 26 3) (fld w 16 10) (fld w 10 6) (fld w 5 5))
  | 10 => some (.lexit g (fld w 41 3))
  | 11 => some (.align g)
  | 12 => some (.contour g (fld w 0 16))
  | 13 => some (.wait g (fld w 0 24))
  | 14 => some (.clkdiv g (fld w 39 5))
  | 15 => some (.mfs g (fld w 39 5) (fld w 0 12))
  | 16 => some (.mts g (fld w 39 5) (fld w 0 12))
  | 17 => some (.exit g)
  | 18 => some (.trap g (fld w 0 16))
  | 19 => some (.bkpt g (fld w 0 16))
  | 20 => some (.fix g)
  | 21 => some (.trmark g (fld w 0 32))
  | 22 => some (.resume g (fld w 34 5))
  | 23 => some (.svchk g (fld w 39 5) (fld w 34 5))
  | _ => none

/-- The V class (R48): opcode to instruction, every field taken from its place; rows by opcode. -/
def rawV (w : Word) : Option Instr :=
  let g := fld w 44 4
  match (fld w 48 8).toNat with
  | 0 => some (.vadd g (fld w 34 10) (fld w 24 10) (fld w 14 10) (fld w 0 4))
  | 1 => some (.vsub g (fld w 34 10) (fld w 24 10) (fld w 14 10) (fld w 0 4))
  | 2 => some (.vmul g (fld w 34 10) (fld w 24 10) (fld w 14 10) (fld w 0 4))
  | 3 => some (.vfma g (fld w 34 10) (fld w 24 10) (fld w 14 10) (fld w 4 10) (fld w 0 4))
  | 4 => some (.vfms g (fld w 34 10) (fld w 24 10) (fld w 14 10) (fld w 4 10) (fld w 0 4))
  | 5 => some (.vmin g (fld w 34 10) (fld w 24 10) (fld w 14 10))
  | 6 => some (.vmax g (fld w 34 10) (fld w 24 10) (fld w 14 10))
  | 7 => some (.vabs g (fld w 34 10) (fld w 24 10))
  | 8 => some (.vneg g (fld w 34 10) (fld w 24 10))
  | 9 => some (.vadds g (fld w 34 10) (fld w 24 10) (fld w 14 10) (fld w 0 4))
  | 10 => some (.vsubs g (fld w 34 10) (fld w 24 10) (fld w 14 10) (fld w 0 4))
  | 11 => some (.vmullo g (fld w 34 10) (fld w 24 10) (fld w 14 10))
  | 12 => some (.vmulh g (fld w 34 10) (fld w 24 10) (fld w 14 10) (fld w 0 4))
  | 13 => some (.vrshr g (fld w 34 10) (fld w 24 10) (fld w 0 6))
  | 14 => some (.vshl g (fld w 34 10) (fld w 24 10) (fld w 0 6))
  | 15 => some (.vshr g (fld w 34 10) (fld w 24 10) (fld w 0 6))
  | 16 => some (.vsar g (fld w 34 10) (fld w 24 10) (fld w 0 6))
  | 17 => some (.vand g (fld w 34 10) (fld w 24 10) (fld w 14 10))
  | 18 => some (.vor g (fld w 34 10) (fld w 24 10) (fld w 14 10))
  | 19 => some (.vxor g (fld w 34 10) (fld w 24 10) (fld w 14 10))
  | 20 => some (.vnot g (fld w 34 10) (fld w 24 10))
  | 21 => some (.vcmp g (fld w 40 4) (fld w 24 10) (fld w 14 10) (fld w 0 4))
  | 22 => some (.vsel g (fld w 34 10) (fld w 24 10) (fld w 14 10) (fld w 0 4))
  | 23 => some (.vmov g (fld w 34 10) (fld w 24 10))
  | 24 => some (.vmovi g (fld w 34 10) (fld w 0 24))
  | 25 => some (.vbc g (fld w 34 10) (fld w 19 5))
  | 26 => some (.viota g (fld w 34 10) (fld w 0 24))
  | 27 => some (.vperm g (fld w 34 10) (fld w 24 10) (fld w 14 10) (fld w 4 10))
  | 28 => some (.vrotl g (fld w 34 10) (fld w 24 10) (fld w 0 6))
  | 29 => some (.vcvt g (fld w 34 10) (fld w 24 10) (fld w 0 4))
  | 30 => some (.vpack g (fld w 34 10) (fld w 24 10) (fld w 14 10) (fld w 4 4) (fld w 0 4))
  | 31 => some (.vunpk g (fld w 34 10) (fld w 24 10) (fld w 8 2) (fld w 4 4) (fld w 0 4))
  | 32 => some (.vqbx g (fld w 34 10) (fld w 24 10) (fld w 4 4) (fld w 0 4))
  | 33 => some (.vdqbx g (fld w 34 10) (fld w 24 10) (fld w 4 4))
  | 34 => some (.vred g (fld w 34 10) (fld w 24 10) (fld w 4 2) (fld w 0 4))
  | 35 => some (.vflag g (fld w 39 5) (fld w 35 4) (fld w 33 2))
  | 36 => some (.vclamp g (fld w 34 10) (fld w 24 10) (fld w 14 10) (fld w 4 10))
  | 37 => some (.vsend g (fld w 24 10) (fld w 21 3))
  | _ => none

/-- The M class (R49): opcode to instruction, every field taken from its place; rows by opcode. -/
def rawM (w : Word) : Option Instr :=
  let g := fld w 44 4
  match (fld w 48 8).toNat with
  | 0 => some (.fmt g (fld w 39 5))
  | 1 => some (.fmti g (fld w 40 4))
  | 2 => some (.acq g (fld w 38 6) (fld w 36 2) (fld w 35 1))
  | 3 => some (.arel g (fld w 38 6))
  | 4 => some (.oclaim g (fld w 38 6))
  | 5 => some (.orel g (fld w 38 6))
  | 6 => some (.owr g (fld w 38 6) (fld w 32 6) (fld w 22 10))
  | 7 => some (.lgb g (fld w 43 1) (fld w 31 12) (fld w 23 8) (fld w 22 1) (fld w 12 10) (fld w 4 2) (fld w 0 4))
  | 8 => some (.lgbc g (fld w 43 1) (fld w 31 12) (fld w 23 8) (fld w 22 1) (fld w 12 10) (fld w 4 2) (fld w 0 4))
  | 9 => some (.lginv g (fld w 36 8) (fld w 28 8))
  | 10 => some (.lgsave g (fld w 36 8) (fld w 28 8) (fld w 22 6) (fld w 19 3))
  | 11 => some (.lgload g (fld w 36 8) (fld w 28 8) (fld w 22 6) (fld w 19 3))
  | 12 => some (.lgsum g (fld w 36 8) (fld w 28 8) (fld w 9 10))
  | 13 => some (.mlu g (fld w 43 1) (fld w 31 12) (fld w 25 6) (fld w 17 8) (fld w 11 6) (fld w 6 5) (fld w 4 2) (fld w 0 4))
  | 14 => some (.mluc g (fld w 43 1) (fld w 31 12) (fld w 25 6) (fld w 17 8) (fld w 11 6) (fld w 6 5) (fld w 4 2) (fld w 0 4))
  | 15 => some (.mzero g (fld w 43 1) (fld w 31 12) (fld w 25 6) (fld w 4 2) (fld w 0 4))
  | 16 => if fld w 24 1 = 1#1 then some (.mdrainSt g (fld w 43 1) (fld w 31 12) (fld w 25 6) (fld w 14 2) (fld w 4 2) (fld w 0 4))
    else some (.mdrain g (fld w 43 1) (fld w 31 12) (fld w 25 6) (fld w 14 10) (fld w 4 2) (fld w 0 4))
  | _ => none

/-- The I class (R49): opcode to instruction, every field taken from its place; rows by opcode. -/
def rawI (w : Word) : Option Instr :=
  let g := fld w 44 4
  match (fld w 48 8).toNat with
  | 0 => some (.vpop g (fld w 34 10) (fld w 25 4) (fld w 23 2) (fld w 22 1) (fld w 19 3) (fld w 4 2) (fld w 0 4))
  | 1 => some (.vpush g (fld w 34 10) (fld w 25 4) (fld w 23 2) (fld w 4 2) (fld w 0 4))
  | 2 => some (.spop g (fld w 29 5) (fld w 25 4) (fld w 23 2) (fld w 22 1) (fld w 19 3) (fld w 4 2) (fld w 0 4))
  | 3 => some (.ypop g (fld w 34 10) (fld w 23 2) (fld w 22 1) (fld w 19 3) (fld w 4 2) (fld w 0 4))
  | 4 => some (.cpop g (fld w 29 5) (fld w 23 2) (fld w 22 1) (fld w 19 3) (fld w 4 2) (fld w 0 4))
  | 5 => some (.apush g (fld w 29 5) (fld w 25 4) (fld w 23 2) (fld w 4 2) (fld w 0 4))
  | 6 => some (.ipsel g (fld w 40 4) (fld w 4 2) (fld w 0 4))
  | 7 => some (.ipld g (fld w 40 4) (fld w 34 6) (fld w 4 2) (fld w 0 4))
  | 8 => some (.ipf g (fld w 24 10) (fld w 4 2) (fld w 0 4))
  | _ => none

/-- The A class (R50): opcode to instruction, every field taken from its place; rows by opcode. -/
def rawA (w : Word) : Option Instr :=
  let g := fld w 44 4
  match (fld w 48 8).toNat with
  | 0 => some (.ld g (fld w 39 5) (fld w 34 5) (fld w 10 24) (fld w 8 2) (fld w 7 1) (fld w 5 2) (fld w 2 3))
  | 1 => some (.ldx g (fld w 39 5) (fld w 34 5) (fld w 29 5) (fld w 27 2) (fld w 8 2) (fld w 7 1) (fld w 5 2) (fld w 2 3))
  | 2 => some (.st g (fld w 39 5) (fld w 34 5) (fld w 10 24) (fld w 8 2) (fld w 5 2) (fld w 2 3))
  | 3 => some (.stx g (fld w 39 5) (fld w 34 5) (fld w 29 5) (fld w 27 2) (fld w 8 2) (fld w 5 2) (fld w 2 3))
  | 4 => some (.ldq g (fld w 40 4) (fld w 34 5) (fld w 10 24) (fld w 8 2))
  | 5 => some (.ldq2 g (fld w 39 5) (fld w 34 5) (fld w 29 5) (fld w 24 5))
  | 6 => some (.stq g (fld w 40 4) (fld w 34 5) (fld w 10 24) (fld w 8 2))
  | 7 => some (.gather g (fld w 39 5) (fld w 34 5) (fld w 29 5) (fld w 24 5) (fld w 23 1) (fld w 22 1))
  | 8 => some (.scatter g (fld w 39 5) (fld w 34 5) (fld w 29 5) (fld w 24 5) (fld w 23 1) (fld w 22 1))
  | 9 => some (.sqpush g (fld w 40 4) (fld w 34 5) (fld w 8 2))
  | 10 => some (.pref g (fld w 34 5) (fld w 10 24))
  | 11 => some (.copy g (fld w 39 5) (fld w 34 5) (fld w 29 5) (fld w 24 5) (fld w 23 1) (fld w 22 1) (fld w 4 2) (fld w 0 4))
  | 12 => some (.cwait g (fld w 39 5) (fld w 34 5))
  | 13 => some (.hld g (fld w 40 4) (fld w 34 5))
  | 14 => some (.hnew g (fld w 40 4) (fld w 34 5))
  | 15 => some (.publish g (fld w 40 4) (fld w 2 3))
  | 16 => some (.hfree g (fld w 40 4))
  | 17 => some (.aadd g (fld w 39 5) (fld w 34 5) (fld w 29 5) (fld w 8 2) (fld w 5 2) (fld w 2 3))
  | 18 => some (.amin g (fld w 39 5) (fld w 34 5) (fld w 29 5) (fld w 8 2) (fld w 5 2) (fld w 2 3))
  | 19 => some (.amax g (fld w 39 5) (fld w 34 5) (fld w 29 5) (fld w 8 2) (fld w 5 2) (fld w 2 3))
  | 20 => some (.aand g (fld w 39 5) (fld w 34 5) (fld w 29 5) (fld w 8 2) (fld w 5 2) (fld w 2 3))
  | 21 => some (.aor g (fld w 39 5) (fld w 34 5) (fld w 29 5) (fld w 8 2) (fld w 5 2) (fld w 2 3))
  | 22 => some (.axor g (fld w 39 5) (fld w 34 5) (fld w 29 5) (fld w 8 2) (fld w 5 2) (fld w 2 3))
  | 23 => some (.axchg g (fld w 39 5) (fld w 34 5) (fld w 29 5) (fld w 8 2) (fld w 5 2) (fld w 2 3))
  | 24 => some (.acas g (fld w 39 5) (fld w 34 5) (fld w 29 5) (fld w 24 5) (fld w 8 2) (fld w 5 2) (fld w 2 3))
  | 25 => some (.await g (fld w 39 5) (fld w 34 5) (fld w 29 5) (fld w 25 4) (fld w 8 2) (fld w 5 2) (fld w 2 3))
  | 26 => some (.fence g (fld w 5 2) (fld w 2 3))
  | 27 => some (.tfence g (fld w 2 3))
  | 28 => some (.bara g (fld w 29 5))
  | 29 => some (.barw g (fld w 29 5))
  | 30 => some (.tkpush g (fld w 29 5))
  | 31 => some (.tkwait g (fld w 29 5))
  | 32 => some (.spalloc g (fld w 39 5) (fld w 34 5))
  | 33 => some (.spfree g (fld w 34 5))
  | 34 => if fld w 28 1 = 1#1 then some (.launchB g (fld w 39 5) (fld w 34 5) (fld w 29 5))
    else some (.launchN g (fld w 39 5) (fld w 34 5) (fld w 29 5))
  | _ => none

/-- The syllable of an instruction with S = 0 and Idle 0 (R33, R41 to R44); a machine event has none. DEDUCED, log entry 88. -/
def encode : Instr → Option Word
  | .twin a b => some (0#1 ++ 1#3 ++ 0#4 ++ a.bits ++ b.bits)
  | .add g rd rs1 rs2 => some (hdr 0#3 0x00#8 g (rd ++ rs1 ++ rs2 ++ 0#29))
  | .sub g rd rs1 rs2 => some (hdr 0#3 0x01#8 g (rd ++ rs1 ++ rs2 ++ 0#29))
  | .mul g rd rs1 rs2 => some (hdr 0#3 0x02#8 g (rd ++ rs1 ++ rs2 ++ 0#29))
  | .mulh g rd rs1 rs2 => some (hdr 0#3 0x03#8 g (rd ++ rs1 ++ rs2 ++ 0#29))
  | .mulhn g rd rs1 rs2 => some (hdr 0#3 0x04#8 g (rd ++ rs1 ++ rs2 ++ 0#29))
  | .div g rd rs1 rs2 => some (hdr 0#3 0x05#8 g (rd ++ rs1 ++ rs2 ++ 0#29))
  | .divn g rd rs1 rs2 => some (hdr 0#3 0x06#8 g (rd ++ rs1 ++ rs2 ++ 0#29))
  | .rem g rd rs1 rs2 => some (hdr 0#3 0x07#8 g (rd ++ rs1 ++ rs2 ++ 0#29))
  | .remn g rd rs1 rs2 => some (hdr 0#3 0x08#8 g (rd ++ rs1 ++ rs2 ++ 0#29))
  | .and g rd rs1 rs2 => some (hdr 0#3 0x09#8 g (rd ++ rs1 ++ rs2 ++ 0#29))
  | .or g rd rs1 rs2 => some (hdr 0#3 0x0A#8 g (rd ++ rs1 ++ rs2 ++ 0#29))
  | .xor g rd rs1 rs2 => some (hdr 0#3 0x0B#8 g (rd ++ rs1 ++ rs2 ++ 0#29))
  | .andn g rd rs1 rs2 => some (hdr 0#3 0x0C#8 g (rd ++ rs1 ++ rs2 ++ 0#29))
  | .shl g rd rs1 rs2 => some (hdr 0#3 0x0D#8 g (rd ++ rs1 ++ rs2 ++ 0#29))
  | .shr g rd rs1 rs2 => some (hdr 0#3 0x0E#8 g (rd ++ rs1 ++ rs2 ++ 0#29))
  | .sar g rd rs1 rs2 => some (hdr 0#3 0x0F#8 g (rd ++ rs1 ++ rs2 ++ 0#29))
  | .rotr g rd rs1 rs2 => some (hdr 0#3 0x10#8 g (rd ++ rs1 ++ rs2 ++ 0#29))
  | .min g rd rs1 rs2 => some (hdr 0#3 0x11#8 g (rd ++ rs1 ++ rs2 ++ 0#29))
  | .max g rd rs1 rs2 => some (hdr 0#3 0x12#8 g (rd ++ rs1 ++ rs2 ++ 0#29))
  | .minn g rd rs1 rs2 => some (hdr 0#3 0x13#8 g (rd ++ rs1 ++ rs2 ++ 0#29))
  | .maxn g rd rs1 rs2 => some (hdr 0#3 0x14#8 g (rd ++ rs1 ++ rs2 ++ 0#29))
  | .clz g rd rs1 => some (hdr 0#3 0x15#8 g (rd ++ rs1 ++ 0#34))
  | .ctz g rd rs1 => some (hdr 0#3 0x16#8 g (rd ++ rs1 ++ 0#34))
  | .popc g rd rs1 => some (hdr 0#3 0x17#8 g (rd ++ rs1 ++ 0#34))
  | .mov g rd rs1 => some (hdr 0#3 0x1D#8 g (rd ++ rs1 ++ 0#34))
  | .sext g rd rs1 len => some (hdr 0#3 0x18#8 g (rd ++ rs1 ++ 0#11 ++ len ++ 0#17))
  | .zext g rd rs1 len => some (hdr 0#3 0x19#8 g (rd ++ rs1 ++ 0#11 ++ len ++ 0#17))
  | .bfx g rd rs1 pos len => some (hdr 0#3 0x1A#8 g (rd ++ rs1 ++ 0#5 ++ pos ++ len ++ 0#17))
  | .bfi g rd rs1 rs2 pos len => some (hdr 0#3 0x1B#8 g (rd ++ rs1 ++ rs2 ++ pos ++ len ++ 0#17))
  | .sel g rd rs1 rs2 cc => some (hdr 0#3 0x1C#8 g (rd ++ rs1 ++ rs2 ++ 0#12 ++ cc ++ 0#14))
  | .addi g rd rs1 imm => some (hdr 0#3 0x1E#8 g (rd ++ rs1 ++ imm))
  | .andi g rd rs1 imm => some (hdr 0#3 0x1F#8 g (rd ++ rs1 ++ imm))
  | .ori g rd rs1 imm => some (hdr 0#3 0x20#8 g (rd ++ rs1 ++ imm))
  | .xori g rd rs1 imm => some (hdr 0#3 0x21#8 g (rd ++ rs1 ++ imm))
  | .shli g rd rs1 n => some (hdr 0#3 0x22#8 g (rd ++ rs1 ++ 0#28 ++ n))
  | .shri g rd rs1 n => some (hdr 0#3 0x23#8 g (rd ++ rs1 ++ 0#28 ++ n))
  | .sari g rd rs1 n => some (hdr 0#3 0x24#8 g (rd ++ rs1 ++ 0#28 ++ n))
  | .li g rd imm => some (hdr 0#3 0x25#8 g (rd ++ 0#7 ++ imm))
  | .lih g rd imm => some (hdr 0#3 0x26#8 g (rd ++ 0#7 ++ imm))
  | .addpc g rd imm => some (hdr 0#3 0x27#8 g (rd ++ 0#7 ++ imm))
  | .cmp g cd rs1 rs2 cond => some (hdr 0#3 0x28#8 g (cd ++ 0#2 ++ rs1 ++ rs2 ++ cond ++ 0#25))
  | .cmpi g cd rs1 cond imm => some (hdr 0#3 0x29#8 g (cd ++ 0#2 ++ rs1 ++ cond ++ imm))
  | .nop g => some (hdr 2#3 0x00#8 g (0#44))
  | .pbr g bd off => some (hdr 2#3 0x01#8 g (bd ++ 0#9 ++ off))
  | .pbrx g bd rs => some (hdr 2#3 0x02#8 g (bd ++ 0#2 ++ rs ++ 0#34))
  | .br g bd => some (hdr 2#3 0x03#8 g (bd ++ 0#41))
  | .call g bd fr => some (hdr 2#3 0x04#8 g (bd ++ fr ++ 0#38))
  | .ret g => some (hdr 2#3 0x05#8 g (0#44))
  | .loop g lv stop trip => some (hdr 2#3 0x06#8 g (lv ++ stop ++ trip))
  | .loopx g lv stop rs => some (hdr 2#3 0x07#8 g (lv ++ stop ++ rs ++ 0#19))
  | .loopR g lv stop stg vb sm trip => some (hdr 2#3 0x08#8 g (lv ++ stop ++ stg ++ vb ++ sm ++ trip))
  | .loopxR g lv stop stg vb sm rs => some (hdr 2#3 0x09#8 g (lv ++ stop ++ stg ++ vb ++ sm ++ rs ++ 0#5))
  | .lexit g lv => some (hdr 2#3 0x0A#8 g (lv ++ 0#41))
  | .align g => some (hdr 2#3 0x0B#8 g (0#44))
  | .contour g id => some (hdr 2#3 0x0C#8 g (0#28 ++ id))
  | .wait g n => some (hdr 2#3 0x0D#8 g (0#20 ++ n))
  | .clkdiv g rs => some (hdr 2#3 0x0E#8 g (rs ++ 0#39))
  | .mfs g rd sys => some (hdr 2#3 0x0F#8 g (rd ++ 0#27 ++ sys))
  | .mts g rs sys => some (hdr 2#3 0x10#8 g (rs ++ 0#27 ++ sys))
  | .exit g => some (hdr 2#3 0x11#8 g (0#44))
  | .trap g code => some (hdr 2#3 0x12#8 g (0#28 ++ code))
  | .bkpt g code => some (hdr 2#3 0x13#8 g (0#28 ++ code))
  | .trmark g tag => some (hdr 2#3 0x15#8 g (0#12 ++ tag))
  | .fix g => some (hdr 2#3 0x14#8 g (0#44))
  | .resume g rs1 => some (hdr 2#3 0x16#8 g (0#5 ++ rs1 ++ 0#34))
  | .svchk g rd rs1 => some (hdr 2#3 0x17#8 g (rd ++ rs1 ++ 0#34))
  | .vadd g vd va vb rnd => some (hdr 3#3 0x00#8 g (vd ++ va ++ vb ++ 0#10 ++ rnd))
  | .vsub g vd va vb rnd => some (hdr 3#3 0x01#8 g (vd ++ va ++ vb ++ 0#10 ++ rnd))
  | .vmul g vd va vb rnd => some (hdr 3#3 0x02#8 g (vd ++ va ++ vb ++ 0#10 ++ rnd))
  | .vfma g vd va vb vc rnd => some (hdr 3#3 0x03#8 g (vd ++ va ++ vb ++ vc ++ rnd))
  | .vfms g vd va vb vc rnd => some (hdr 3#3 0x04#8 g (vd ++ va ++ vb ++ vc ++ rnd))
  | .vmin g vd va vb => some (hdr 3#3 0x05#8 g (vd ++ va ++ vb ++ 0#14))
  | .vmax g vd va vb => some (hdr 3#3 0x06#8 g (vd ++ va ++ vb ++ 0#14))
  | .vabs g vd va => some (hdr 3#3 0x07#8 g (vd ++ va ++ 0#24))
  | .vneg g vd va => some (hdr 3#3 0x08#8 g (vd ++ va ++ 0#24))
  | .vadds g vd va vb rnd => some (hdr 3#3 0x09#8 g (vd ++ va ++ vb ++ 0#10 ++ rnd))
  | .vsubs g vd va vb rnd => some (hdr 3#3 0x0A#8 g (vd ++ va ++ vb ++ 0#10 ++ rnd))
  | .vmullo g vd va vb => some (hdr 3#3 0x0B#8 g (vd ++ va ++ vb ++ 0#14))
  | .vmulh g vd va vb u => some (hdr 3#3 0x0C#8 g (vd ++ va ++ vb ++ 0#10 ++ u))
  | .vrshr g vd va n => some (hdr 3#3 0x0D#8 g (vd ++ va ++ 0#18 ++ n))
  | .vshl g vd va n => some (hdr 3#3 0x0E#8 g (vd ++ va ++ 0#18 ++ n))
  | .vshr g vd va n => some (hdr 3#3 0x0F#8 g (vd ++ va ++ 0#18 ++ n))
  | .vsar g vd va n => some (hdr 3#3 0x10#8 g (vd ++ va ++ 0#18 ++ n))
  | .vand g vd va vb => some (hdr 3#3 0x11#8 g (vd ++ va ++ vb ++ 0#14))
  | .vor g vd va vb => some (hdr 3#3 0x12#8 g (vd ++ va ++ vb ++ 0#14))
  | .vxor g vd va vb => some (hdr 3#3 0x13#8 g (vd ++ va ++ vb ++ 0#14))
  | .vnot g vd va => some (hdr 3#3 0x14#8 g (vd ++ va ++ 0#24))
  | .vcmp g pd va vb cond => some (hdr 3#3 0x15#8 g (pd ++ 0#6 ++ va ++ vb ++ 0#10 ++ cond))
  | .vsel g vd va vb ps => some (hdr 3#3 0x16#8 g (vd ++ va ++ vb ++ 0#10 ++ ps))
  | .vmov g vd va => some (hdr 3#3 0x17#8 g (vd ++ va ++ 0#24))
  | .vmovi g vd imm => some (hdr 3#3 0x18#8 g (vd ++ 0#10 ++ imm))
  | .vbc g vd rs => some (hdr 3#3 0x19#8 g (vd ++ 0#10 ++ rs ++ 0#19))
  | .viota g vd imm => some (hdr 3#3 0x1A#8 g (vd ++ 0#10 ++ imm))
  | .vperm g vd va vi vb => some (hdr 3#3 0x1B#8 g (vd ++ va ++ vi ++ vb ++ 0#4))
  | .vrotl g vd va n => some (hdr 3#3 0x1C#8 g (vd ++ va ++ 0#18 ++ n))
  | .vcvt g vd va rnd => some (hdr 3#3 0x1D#8 g (vd ++ va ++ 0#20 ++ rnd))
  | .vpack g vd va vb tg rnd => some (hdr 3#3 0x1E#8 g (vd ++ va ++ vb ++ 0#6 ++ tg ++ rnd))
  | .vunpk g vd va pt tg rnd => some (hdr 3#3 0x1F#8 g (vd ++ va ++ 0#14 ++ pt ++ tg ++ rnd))
  | .vqbx g vd va bf rnd => some (hdr 3#3 0x20#8 g (vd ++ va ++ 0#16 ++ bf ++ rnd))
  | .vdqbx g vd va bf => some (hdr 3#3 0x21#8 g (vd ++ va ++ 0#16 ++ bf ++ 0#4))
  | .vred g vd va op rnd => some (hdr 3#3 0x22#8 g (vd ++ va ++ 0#18 ++ op ++ rnd))
  | .vflag g dst ps kd => some (hdr 3#3 0x23#8 g (dst ++ ps ++ kd ++ 0#33))
  | .vclamp g vd va vb vc => some (hdr 3#3 0x24#8 g (vd ++ va ++ vb ++ vc ++ 0#4))
  | .vsend g va dir => some (hdr 3#3 0x25#8 g (0#10 ++ va ++ dir ++ 0#21))
  | .fmt g rs => some (hdr 4#3 0x00#8 g (rs ++ 0#39))
  | .fmti g t => some (hdr 4#3 0x01#8 g (t ++ 0#40))
  | .acq g n ty z => some (hdr 4#3 0x02#8 g (n ++ ty ++ z ++ 0#35))
  | .arel g n => some (hdr 4#3 0x03#8 g (n ++ 0#38))
  | .oclaim g n => some (hdr 4#3 0x04#8 g (n ++ 0#38))
  | .orel g n => some (hdr 4#3 0x05#8 g (n ++ 0#38))
  | .owr g o row vs => some (hdr 4#3 0x06#8 g (o ++ row ++ vs ++ 0#22))
  | .lgb g w dl l sk src tkop tkch => some (hdr 4#3 0x07#8 g (w ++ dl ++ l ++ sk ++ src ++ 0#6 ++ tkop ++ tkch))
  | .lgbc g w dl l sk src tkop tkch => some (hdr 4#3 0x08#8 g (w ++ dl ++ l ++ sk ++ src ++ 0#6 ++ tkop ++ tkch))
  | .lginv g l n => some (hdr 4#3 0x09#8 g (l ++ n ++ 0#28))
  | .lgsave g l n o pos => some (hdr 4#3 0x0A#8 g (l ++ n ++ o ++ pos ++ 0#19))
  | .lgload g l n o pos => some (hdr 4#3 0x0B#8 g (l ++ n ++ o ++ pos ++ 0#19))
  | .lgsum g l n vd => some (hdr 4#3 0x0C#8 g (l ++ n ++ 0#9 ++ vd ++ 0#9))
  | .mlu g w dl a l o seg tkop tkch => some (hdr 4#3 0x0D#8 g (w ++ dl ++ a ++ l ++ o ++ seg ++ tkop ++ tkch))
  | .mluc g w dl a l o seg tkop tkch => some (hdr 4#3 0x0E#8 g (w ++ dl ++ a ++ l ++ o ++ seg ++ tkop ++ tkch))
  | .mzero g w dl a tkop tkch => some (hdr 4#3 0x0F#8 g (w ++ dl ++ a ++ 0#19 ++ tkop ++ tkch))
  | .mdrain g w dl a vb tkop tkch => some (hdr 4#3 0x10#8 g (w ++ dl ++ a ++ 0#1 ++ vb ++ 0#8 ++ tkop ++ tkch))
  | .mdrainSt g w dl a k tkop tkch => some (hdr 4#3 0x10#8 g (w ++ dl ++ a ++ 1#1 ++ 0#8 ++ k ++ 0#8 ++ tkop ++ tkch))
  | .vpop g vr q md pk cf tkop tkch => some (hdr 5#3 0x00#8 g (vr ++ 0#5 ++ q ++ md ++ pk ++ cf ++ 0#13 ++ tkop ++ tkch))
  | .vpush g vr q md tkop tkch => some (hdr 5#3 0x01#8 g (vr ++ 0#5 ++ q ++ md ++ 0#17 ++ tkop ++ tkch))
  | .spop g sg q md pk cf tkop tkch => some (hdr 5#3 0x02#8 g (0#10 ++ sg ++ q ++ md ++ pk ++ cf ++ 0#13 ++ tkop ++ tkch))
  | .ypop g vr md pk cf tkop tkch => some (hdr 5#3 0x03#8 g (vr ++ 0#9 ++ md ++ pk ++ cf ++ 0#13 ++ tkop ++ tkch))
  | .cpop g sg md pk cf tkop tkch => some (hdr 5#3 0x04#8 g (0#10 ++ sg ++ 0#4 ++ md ++ pk ++ cf ++ 0#13 ++ tkop ++ tkch))
  | .apush g sg q md tkop tkch => some (hdr 5#3 0x05#8 g (0#10 ++ sg ++ q ++ md ++ 0#17 ++ tkop ++ tkch))
  | .ipsel g fn tkop tkch => some (hdr 5#3 0x06#8 g (fn ++ 0#34 ++ tkop ++ tkch))
  | .ipld g fn o tkop tkch => some (hdr 5#3 0x07#8 g (fn ++ o ++ 0#28 ++ tkop ++ tkch))
  | .ipf g vs tkop tkch => some (hdr 5#3 0x08#8 g (0#10 ++ vs ++ 0#18 ++ tkop ++ tkch))
  | .ld g rd b imm sz sx ord scp => some (hdr 6#3 0x00#8 g (rd ++ b ++ imm ++ sz ++ sx ++ ord ++ scp ++ 0#2))
  | .ldx g rd b ix sh sz sx ord scp => some (hdr 6#3 0x01#8 g (rd ++ b ++ ix ++ sh ++ 0#17 ++ sz ++ sx ++ ord ++ scp ++ 0#2))
  | .st g rd b imm sz ord scp => some (hdr 6#3 0x02#8 g (rd ++ b ++ imm ++ sz ++ 0#1 ++ ord ++ scp ++ 0#2))
  | .stx g rd b ix sh sz ord scp => some (hdr 6#3 0x03#8 g (rd ++ b ++ ix ++ sh ++ 0#17 ++ sz ++ 0#1 ++ ord ++ scp ++ 0#2))
  | .pref g b imm => some (hdr 6#3 0x0A#8 g (0#5 ++ b ++ imm ++ 0#10))
  | .ldq g q b imm md => some (hdr 6#3 0x04#8 g (q ++ 0#1 ++ b ++ imm ++ md ++ 0#8))
  | .stq g q b imm md => some (hdr 6#3 0x06#8 g (q ++ 0#1 ++ b ++ imm ++ md ++ 0#8))
  | .sqpush g q b md => some (hdr 6#3 0x09#8 g (q ++ 0#1 ++ b ++ 0#24 ++ md ++ 0#8))
  | .ldq2 g q a len aux => some (hdr 6#3 0x05#8 g (q ++ a ++ len ++ aux ++ 0#24))
  | .copy g dst src len aux dh shd tkop tkch => some (hdr 6#3 0x0B#8 g (dst ++ src ++ len ++ aux ++ dh ++ shd ++ 0#16 ++ tkop ++ tkch))
  | .gather g dst src len aux dh shd => some (hdr 6#3 0x07#8 g (dst ++ src ++ len ++ aux ++ dh ++ shd ++ 0#22))
  | .scatter g dst src len aux dh shd => some (hdr 6#3 0x08#8 g (dst ++ src ++ len ++ aux ++ dh ++ shd ++ 0#22))
  | .cwait g rd s1 => some (hdr 6#3 0x0C#8 g (rd ++ s1 ++ 0#34))
  | .fence g ord scp => some (hdr 6#3 0x1A#8 g (0#37 ++ ord ++ scp ++ 0#2))
  | .tfence g scp => some (hdr 6#3 0x1B#8 g (0#39 ++ scp ++ 0#2))
  | .bara g n => some (hdr 6#3 0x1C#8 g (0#10 ++ n ++ 0#29))
  | .barw g n => some (hdr 6#3 0x1D#8 g (0#10 ++ n ++ 0#29))
  | .tkpush g n => some (hdr 6#3 0x1E#8 g (0#10 ++ n ++ 0#29))
  | .tkwait g n => some (hdr 6#3 0x1F#8 g (0#10 ++ n ++ 0#29))
  | .spalloc g rd s1 => some (hdr 6#3 0x20#8 g (rd ++ s1 ++ 0#34))
  | .spfree g s1 => some (hdr 6#3 0x21#8 g (0#5 ++ s1 ++ 0#34))
  | .launchB g rd s1 q => some (hdr 6#3 0x22#8 g (rd ++ s1 ++ q ++ 1#1 ++ 0#28))
  | .launchN g rd s1 q => some (hdr 6#3 0x22#8 g (rd ++ s1 ++ q ++ 0#1 ++ 0#28))
  | .hld g h s1 => some (hdr 6#3 0x0D#8 g (h ++ 0#1 ++ s1 ++ 0#34))
  | .hnew g h s1 => some (hdr 6#3 0x0E#8 g (h ++ 0#1 ++ s1 ++ 0#34))
  | .publish g h scp => some (hdr 6#3 0x0F#8 g (h ++ 0#35 ++ scp ++ 0#2))
  | .hfree g h => some (hdr 6#3 0x10#8 g (h ++ 0#40))
  | .aadd g rd b s2 sz ord scp => some (hdr 6#3 0x11#8 g (rd ++ b ++ s2 ++ 0#19 ++ sz ++ 0#1 ++ ord ++ scp ++ 0#2))
  | .amin g rd b s2 sz ord scp => some (hdr 6#3 0x12#8 g (rd ++ b ++ s2 ++ 0#19 ++ sz ++ 0#1 ++ ord ++ scp ++ 0#2))
  | .amax g rd b s2 sz ord scp => some (hdr 6#3 0x13#8 g (rd ++ b ++ s2 ++ 0#19 ++ sz ++ 0#1 ++ ord ++ scp ++ 0#2))
  | .aand g rd b s2 sz ord scp => some (hdr 6#3 0x14#8 g (rd ++ b ++ s2 ++ 0#19 ++ sz ++ 0#1 ++ ord ++ scp ++ 0#2))
  | .aor g rd b s2 sz ord scp => some (hdr 6#3 0x15#8 g (rd ++ b ++ s2 ++ 0#19 ++ sz ++ 0#1 ++ ord ++ scp ++ 0#2))
  | .axor g rd b s2 sz ord scp => some (hdr 6#3 0x16#8 g (rd ++ b ++ s2 ++ 0#19 ++ sz ++ 0#1 ++ ord ++ scp ++ 0#2))
  | .axchg g rd b s2 sz ord scp => some (hdr 6#3 0x17#8 g (rd ++ b ++ s2 ++ 0#19 ++ sz ++ 0#1 ++ ord ++ scp ++ 0#2))
  | .acas g rd b s2 s3 sz ord scp => some (hdr 6#3 0x18#8 g (rd ++ b ++ s2 ++ s3 ++ 0#14 ++ sz ++ 0#1 ++ ord ++ scp ++ 0#2))
  | .await g rd b s2 cond sz ord scp => some (hdr 6#3 0x19#8 g (rd ++ b ++ s2 ++ cond ++ 0#15 ++ sz ++ 0#1 ++ ord ++ scp ++ 0#2))
  | .resultLanding _ => none
  | .mxStart _ => none
  | .aClassResult _ _ => none
  | .queueFill _ _ => none
  | .vsendArrival _ => none
  | .targetFetch _ _ _ => none
  | .slipEnd _ => none
  | .windowSpillFill _ => none
  | .meridianPulse _ => none
  | .barrierPhaseComplete _ => none
  | .awaitSatisfied _ => none
  | .publishSwap _ => none
  | .tfenceComplete _ => none
  | .translationWalkEnd _ _ => none
  | .commandRetire _ => none
  | .watchCopyFreeze _ _ => none
  | .peerWatchReport _ => none
  | .bankWakeComplete _ _ => none
  | .bankIdleWarm _ _ => none
  | .accBankIdleWarm _ _ => none
  | .bankScrubComplete _ _ => none
  | .qseqAdvance => none
  | .lqtailWrite _ _ _ => none
  | .queueRecordRead _ _ => none
  | .lqcfgErrClear _ _ => none
  | .firmwareLaunch _ _ => none
  | .dispatchPassTimer _ => none
  | .priorityAging _ => none
  | .launchWaitTimeout _ => none
  | .stopDelivery _ => none
  | .saveImageComplete _ => none
  | .supervisorStop _ => none
  | .supervisorPlace _ _ => none
  | .aStreamExitComplete _ => none
  | .xExitCheck _ => none
  | .deferredUnmap _ _ => none
  | .crtailWrite _ _ => none
  | .teardownContext _ => none
  | .teardownPartition _ => none
  | .load _ _ => none
  | .unload _ => none
  | .unloadF _ => none
  | .patch _ => none
  | .cstailWrite _ _ => none
  | .qpushWrite _ _ => none
  | .qpopRead _ => none
  | .watchpointArm _ _ _ => none
  | .fixCommand => none
  | .fixinEdge => none
  | .peerAccessArrival _ => none
  | .routeLossTimeout _ => none
  | .rdmaWrite _ _ _ _ => none
  | .rdmaRead _ _ _ _ => none
  | .rdmaInvalidOperation _ => none
  | .refsetWrite _ => none
  | .referenceFrequencyChange => none
  | .currentExcess => none
  | .currentExcessEnd => none
  | .stretchTimeout => none
  | .thermalTrip _ => none
  | .thermalRecovery => none
  | .pchbWrite _ => none
  | .pwstatUpdateWrite _ => none
  | .heartbeatTimeout => none
  | .vvoteWrite _ _ => none
  | .railFallStart _ => none
  | .railAtTarget _ => none
  | .qreqReq _ _ => none
  | .qreqEvict _ => none
  | .retsaveSave _ _ => none
  | .retsaveRestore _ _ => none
  | .retsaveDone _ => none
  | .clkgateSet _ => none
  | .clkgateClear _ => none
  | .clockGateComplete _ => none
  | .railgateOff _ => none
  | .railgateOn _ => none
  | .railSwitchComplete _ => none
  | .wakeSet _ _ => none
  | .wakeackAck _ => none
  | .packageReset _ => none
  | .stageLoad _ => none
  | .attgoWrite _ _ => none
  | .mcctlRestart _ _ => none
  | .channelRetire _ => none
  | .channelCopyComplete _ => none
  | .coreRetire _ => none
  | .registerWrite _ _ => none
  | .accessPerformed _ _ => none
  | .partitionConfiguration _ _ => none

/-- The syllable of an instruction with S and Idle set (R33). -/
def encodeWith (s : Bool) (idle : BitVec 4) (i : Instr) : Option Word :=
  (encode i).map fun w => w ||| (if s then 0x8000000000000000#64 else 0#64) ||| (idle.setWidth 64 <<< 56)

/-- The fields of a syllable by class (R34). -/
def raw (w : Word) : Option Instr :=
  match classOf w with
  | 0 => rawS w
  | 1 => rawT w
  | 2 => rawB w
  | 3 => rawV w
  | 4 => rawM w
  | 5 => rawI w
  | 6 => rawA w
  | _ => none

/-- The decoder: total on every word, rejecting by name (R51). DEDUCED, log entry 88. -/
def decode (w : Word) : Except Reject Instr :=
  if classOf w = 7 then .error .reservedClass
  else match raw w with
    | none => .error .unassignedOpcode
    | some i =>
      if encode i ≠ some (bare w) || (!sBit w && idleOf w ≠ 0) then .error .strayBits
      else if !i.wf then .error .reservedField
      else .ok i

/-- The instruction of a word numbered as the opcode table numbers its bits; the rows are syllables of 64 bits, and a
machine event has no word (R33). DEDUCED, log entry 88. -/
def decodeTableWord (nbits w : Nat) : Option Instr :=
  match decode (BitVec.ofNat 64 (w % 2 ^ nbits)) with
  | .ok i => some i
  | .error _ => none

end Sys2Proof
end

