-- ==== Sys2Proof/Machine/Operands.lean ====
section
/-! DEFINITION. Reading and writing what operand fields name: cores, groups, partitions, divisors, guards, scalar registers of both
streams, vector rows with rotation, and the landings that results become (R2, R3, R36, R39, R142, R149, R173). -/

namespace Sys2Proof.Machine

/-- One step's outcome. -/
abbrev Result := Host.Outcome State Fault Refusal

/-! ### Places in the state -/

def State.core (s : State) (c : Nat) : Core := sget {} c s.cores
def State.setCore (s : State) (c : Nat) (v : Core) : State := { s with cores := sset {} c v s.cores }
def State.modCore (s : State) (c : Nat) (f : Core → Core) : State := s.setCore c (f (s.core c))
/-- Change every listed core. -/
def State.mapCores (s : State) (f : Nat → Core → Core) : State := s.cores.foldl (fun s e => s.modCore e.1 (f e.1)) s
def State.part (s : State) (p : Nat) : Part := sget {} p s.parts
def State.setPart (s : State) (p : Nat) (v : Part) : State := { s with parts := sset {} p v s.parts }
def State.modPart (s : State) (p : Nat) (f : Part → Part) : State := s.setPart p (f (s.part p))
def State.cluster (s : State) (k : Nat) : Cluster := sget {} k s.clusters
def State.setCluster (s : State) (k : Nat) (v : Cluster) : State := { s with clusters := sset {} k v s.clusters }
def State.mcore (s : State) (n : Nat) : Mgmt := sget {} n s.mgmt
def State.setMcore (s : State) (n : Nat) (v : Mgmt) : State := { s with mgmt := sset {} n v s.mgmt }

/-- The context with a number (R119). -/
def State.grp? (s : State) (num : Nat) : Option Grp := s.groups.find? fun g => g.num == num
/-- Replace the context with the same number. -/
def State.setGrp (s : State) (g : Grp) : State := { s with groups := s.groups.map fun h => if h.num == g.num then g else h }
/-- The context placed on a core. -/
def State.grpAt (s : State) (c : Nat) : Option Grp :=
  if (s.core c).owner = 0 then none else s.grp? (s.core c).owner
def State.modGrp (s : State) (num : Nat) (f : Grp → Grp) : State :=
  { s with groups := s.groups.map fun h => if h.num == num then f h else h }

/-- Die, column and row of a core (R2). -/
def coreDie (c : Nat) : Nat := c / 96
def coreX (c : Nat) : Nat := 2 * (c / 8 % 12 % 6) + c % 8 % 2
def coreY (c : Nat) : Nat := 4 * (c / 8 % 12 / 6) + c % 8 / 2
def coreCluster (c : Nat) : Nat := c / 8
def coreRank (c : Nat) : Nat := c % 8
/-- The core at die d, column x, row y (R2). -/
def coreAt (d x y : Nat) : Nat := 8 * (12 * d + x / 2 + 6 * (y / 4)) + x % 2 + 2 * (y % 4)

/-- Hops of a core from a group's origin (R100). -/
def Grp.hops (g : Grp) (c : Nat) : Nat := (coreX c - g.x0) + (coreY c - g.y0) + 4 * (coreDie c - g.d0)

/-! ### Divisors (R3, R177) -/

/-- The divisor in field i of DIVA: 0 control, 1 vector, 2 matrix, 3 copy. -/
def Core.divisor (c : Core) (i : Nat) : Nat := (c.sys.diva.toNat / 16 ^ i) % 16 + 1

/-! ### The issue context -/

/-- The core being issued for. -/
def State.me (s : State) : Core := s.core s.ctx.core
/-- Change the core being issued for. -/
def State.modMe (s : State) (f : Core → Core) : State := s.modCore s.ctx.core f
/-- Say that the bundle waits. -/
def State.waiting (s : State) (why : Slip) : State := { s with ctx := { s.ctx with out := .waits why } }
/-- Leave a control effect for the bundle's end. -/
def State.leave (s : State) (c : Ctl) : State := { s with ctx := { s.ctx with ctl := c } }
/-- Leave a register write for the bundle's end. -/
def State.defer (s : State) (w : AWrite) : State := { s with ctx := { s.ctx with writes := s.ctx.writes ++ [w] } }
/-- The stream being issued, as a control state. -/
def State.ctrl (s : State) : Ctrl :=
  match s.ctx.who with
  | .x => s.me.x.k
  | .a => s.me.a.k
  | .mgmt => (s.mcore s.ctx.core).a.k
/-- The A-stream or management-core stream being issued. -/
def State.astr (s : State) : AStream :=
  match s.ctx.who with
  | .mgmt => (s.mcore s.ctx.core).a
  | _ => s.me.a
/-- Handler mode on the core being issued for (R323). -/
def State.inHandler (s : State) : Bool := s.ctx.who == .a && s.me.saved.isSome

/-! ### Condition registers and guards (R36, R162) -/

/-- A c register as SEL and S- and A-class guards read it: the last landed value. -/
def Ctrl.cNow (k : Ctrl) (n : Nat) : Bool := match sget [] n k.c with | [] => false | (_, v) :: _ => v

/-- A c register as a B-class guard reads it at a tick: a value that landed at least one control cycle d before (R162). -/
def cSeen (d t : Nat) : List (Nat × Bool) → Bool
  | [] => false
  | [(_, v)] => v
  | (u, v) :: rest => if u + d ≤ t then v else cSeen d t rest

/-- Record a landing of a c register, keeping one value older than any control cycle. -/
def Ctrl.cPut (k : Ctrl) (n t : Nat) (v : Bool) : Ctrl :=
  let old := sget [] n k.c
  let recent := old.takeWhile fun e => t < e.1 + 16
  { k with c := sset [] n ((t, v) :: (recent ++ (old.drop recent.length).take 1 ++ (if old = [] then [(0, false)] else []))) k.c }

/-- An S- or A-class guard (R36). -/
def State.guardC (s : State) (g : BitVec 4) : Bool := g == 15#4 || s.ctrl.cNow g.toNat

/-- A B-class guard (R36, R162). -/
def State.guardB (s : State) (g : BitVec 4) : Bool :=
  g == 15#4 || (match s.ctx.who with
    | .x => cSeen (s.me.divisor 0) s.ctx.tick (sget [] g.toNat s.ctrl.c)
    | _ => s.ctrl.cNow g.toNat)

/-- A predicate register. -/
def Core.pred (c : Core) (n : Nat) : Word := sget 0#64 n c.x.p

/-- A V-class guard as a lane mask (R36). -/
def State.guardV (s : State) (g : BitVec 4) : Word :=
  if g == 15#4 then BitVec.allOnes 64 else s.me.pred g.toNat

/-- An M- or I-class guard: bit 0 of the predicate (R36). -/
def State.guardM (s : State) (g : BitVec 4) : Bool := (s.guardV g).getLsbD 0

/-! ### Scalar registers (R39, R149, R151, R156) -/

/-- The windowed register at an absolute position: the file, or its slot of bank 31 (R151, R152). -/
def spillSlot (pos : Nat) : Nat := 0x1F3000 + 8 * pos
/-- The link slot of the frame at a base (R152). -/
def linkSlot (base : Nat) : Nat := 0x1F2000 + 8 * (base / 16)

/-- Whether a 5-bit X-stream code names a register outside the frame (R149). -/
def XStream.outside (x : XStream) (r : BitVec 5) : Bool := 8 ≤ r.toNat && x.frame ≤ r.toNat - 8

/-- The value of a scalar register code on the issuing stream (R39). -/
def State.reg (s : State) (r : BitVec 5) : Word :=
  match s.ctx.who with
  | .x => if r.toNat < 8 then sget 0#64 r.toNat s.me.x.g else sget 0#64 (s.me.x.base + (r.toNat - 8)) s.me.x.win
  | _ => if r.toNat = 0 then 0#64 else sget 0#64 r.toNat s.astr.x

/-- A core whose X-stream stands at its group's alignment: its chart clock is stopped (R110). -/
def Core.atAlign (c : Core) : Bool := c.x.align.isSome && c.ops.isEmpty && !c.x.aligned

/-- Whether the chart clock of a core runs: while it does, its ticks are those of the access core's clock, which goes on by itself while it does not
(R146, R166). DEDUCED, log entry 93. -/
def State.counts (s : State) (n : Nat) (g : Grp) : Bool := g.status == .running && g.clock && g.slip.isNone && !(s.core n).atAlign

/-- The instant k cycles on, on the clock of the issuing access core (R3) or, in nanoseconds, of the issuing management core (R389). DEDUCED, log entry 93. -/
def State.cycleAt (s : State) (k : Nat) : Nat :=
  match s.ctx.who with
  | .mgmt => s.wall + k
  | _ => s.me.cycle + k * s.me.divisor 0

/-- Whether a register, numbered as in `AStream.due`, may not yet be used on the issuing stream (R156, R162). DEDUCED, log entry 93. -/
def State.owed (s : State) (r : Nat) : Bool :=
  match s.ctx.who with
  | .x => false
  | .a => decide (s.me.cycle < sget 0 r s.astr.due)
  | .mgmt => decide (s.wall < sget 0 r s.astr.due)

/-- The registers an unfinished A-class syllable will write (R50). -/
def AOp.dest (o : AOp) : Option Nat :=
  match o.instr with
  | .ld _ rd _ _ _ _ _ _ => some rd.toNat
  | .ldx _ rd _ _ _ _ _ _ _ => some rd.toNat
  | .aadd _ rd _ _ _ _ _ => some rd.toNat
  | .amin _ rd _ _ _ _ _ => some rd.toNat
  | .amax _ rd _ _ _ _ _ => some rd.toNat
  | .aand _ rd _ _ _ _ _ => some rd.toNat
  | .aor _ rd _ _ _ _ _ => some rd.toNat
  | .axor _ rd _ _ _ _ _ => some rd.toNat
  | .axchg _ rd _ _ _ _ _ => some rd.toNat
  | .acas _ rd _ _ _ _ _ _ => some rd.toNat
  | .await _ rd _ _ _ _ _ _ => some rd.toNat
  | .cwait _ rd _ => some rd.toNat
  | .spalloc _ rd _ => some rd.toNat
  | .launchB _ rd _ _ => some rd.toNat
  | .launchN _ rd _ _ => some rd.toNat
  | _ => none

/-- Whether the registers a syllable names may be used: FRAME-RANGE on the X-stream, a wait for an unfinished A-class result or an S-class one
that is not yet written on the others (R50, R149, R156). -/
inductive Chk where
  | ok
  | waits (why : Slip)
  | fault (c : Cause)
deriving DecidableEq, Repr

/-- Two checks of one syllable: a wait first, then the fault with the lower code (R145, R322). DEDUCED, log entry 10. -/
def Chk.seq (a b : Chk) : Chk :=
  match a, b with
  | .waits w, _ => .waits w
  | _, .waits w => .waits w
  | .fault x, .fault y => .fault (if y.cause < x.cause then y else x)
  | .fault x, .ok => .fault x
  | .ok, b => b

/-- Checks in a stated order: the first that is not ok. DEDUCED, log entry 10. -/
def Chk.andThen (a b : Chk) : Chk := match a with | .ok => b | x => x

/-- A fault at issue unless a condition holds. -/
def Chk.need (p : Bool) (cause : Nat) : Chk := if p then .ok else .fault { cause := cause }

/-- See `Chk`: the registers named by a syllable. -/
def State.regsOk (s : State) (rs : List (BitVec 5)) : Chk :=
  match s.ctx.who with
  | .x => if rs.any s.me.x.outside then .fault { cause := 0x02 } else .ok
  | .a =>
    if rs.any fun r => r.toNat != 0 && (s.owed r.toNat || s.me.aops.any fun o => o.dest == some r.toNat) then .waits .reg else .ok
  | .mgmt => if rs.any fun r => r.toNat != 0 && s.owed r.toNat then .waits .reg else .ok

/-- What a write to an X-stream scalar code lands in: a g register or an absolute window position (R143). -/
def State.xLand (s : State) (r : BitVec 5) (v : Word) : Land :=
  if r.toNat < 8 then .greg r.toNat v else .wreg (s.me.x.base + (r.toNat - 8)) v

/-- Add an operation in flight on the issuing core (R142). -/
def State.fly (s : State) (o : Op) : State := s.modMe fun c => { c with ops := c.ops ++ [o] }

/-- An operation in flight of the syllable being issued. -/
def State.op (s : State) (engine lat div : Nat) (lands : List Land) : Op :=
  { iseq := s.ctx.iseq, bundle := s.ctx.first, word := s.ctx.word, engine := engine, kind := .land, due := s.ctx.tick + lat * div, lands := lands }

/-- Write a scalar result: in flight on the X-stream for lat control cycles; on the others at the bundle's end, where what reads or writes
the register waits until lat cycles after issue; x0 discards it (R45, R136, R156). DEDUCED, log entry 93. -/
def State.putReg (s : State) (lat : Nat) (r : BitVec 5) (v : Word) : State :=
  match s.ctx.who with
  | .x => s.fly (s.op 0 lat (s.me.divisor 0) [s.xLand r v])
  | _ => if r.toNat = 0 then s else s.defer (.x r.toNat v lat)

/-- Write a condition pair from an even register (R162). -/
def State.putPair (s : State) (cd : BitVec 3) (v : Bool) : State :=
  match s.ctx.who with
  | .x => s.fly (s.op 0 1 (s.me.divisor 0) [.creg cd.toNat v, .creg (cd.toNat + 1) (!v)])
  | _ => (s.defer (.c cd.toNat v)).defer (.c (cd.toNat + 1) (!v))

/-! ### Vector rows and banks (R72, R136, R173) -/

/-- The accumulator bank n of a core. -/
def Core.bank (c : Core) (n : Nat) : AccBank := sget {} n c.e.acc
def Core.setBank (c : Core) (n : Nat) (b : AccBank) : Core := { c with e := { c.e with acc := sset {} n b c.e.acc } }
def Core.slot (c : Core) (o : Nat) : Slot := sget {} o c.e.slot
def Core.setSlot (c : Core) (o : Nat) (v : Slot) : Core := { c with e := { c.e with slot := sset {} o v c.e.slot } }
/-- Row r of the vector file. -/
def Core.row (c : Core) (r : Nat) : Row := sget 0#1024 r c.e.v
def Core.setRow (c : Core) (r : Nat) (v : Row) : Core := { c with e := { c.e with v := sset 0#1024 r v c.e.v } }

/-- The physical row a vector name denotes in a rotating loop (R173). -/
def Rot.name (r : Rot) (v : Nat) : Nat :=
  if r.on && r.vb ≤ v && v < r.vb + (r.sm + 1) then r.vb + ((v - r.vb + r.rho) % (r.sm + 1)) else v

/-- The physical row a 10-bit field names at issue (R173). -/
def State.vrow (s : State) (v : BitVec 10) : Nat := s.me.x.k.rot.name v.toNat

/-- The type code of the bank that holds a row (R72). -/
def Core.rowType (c : Core) (r : Nat) : Nat := (c.bank (r / 16)).ty

/-- Lanes and lane width of a type (R72). -/
def tyLanes (ty : Nat) : Nat := if ty < 2 then 32 else 64
def tyWidth (ty : Nat) : Nat := if ty < 2 then 32 else 16

/-- Whether every row lies in a held bank (R132). -/
def State.heldOk (s : State) (rs : List Nat) : Chk :=
  if rs.all fun r => (s.me.bank (r / 16)).held then .ok else .fault { cause := 0x0E }

/-- Whether reading rows meets an uncorrectable error (R90): kind 3 is an accumulator bank. -/
def State.rowsGood (s : State) (rs : List Nat) : Chk :=
  if rs.any fun r => s.bad.contains (3, s.ctx.core, r / 16) then .fault { cause := 0x20 } else .ok

end Sys2Proof.Machine
end

