-- ==== Sys2Proof/Machine/Ops.lean ====
section
/-! DEFINITION. Shared operations: bytes at resolved places, registers of a partition's window, trace records (R349 to R352), the
survey (R312 to R321), taking a stop (R311, the exception entry of this machine) and the return from it beside it. -/

namespace Sys2Proof.Machine

/-! ### Registers of the partition window (R92, R258, R341, R367) -/

/-- Reset values of the partition window: LQCFG.CEIL is 7 (R93); every other register resets to 0. -/
def partReset (off : Nat) : Word := if off < 0x400 ∧ off % 0x40 = 0x10 then 0x38000000#64 else 0#64

/-- A register of a partition's window. -/
def Part.reg (p : Part) (off : Nat) : Word := sget 0#64 off p.regs ^^^ partReset off

/-- Set a register of a partition's window. -/
def Part.setReg (p : Part) (off : Nat) (v : Word) : Part := { p with regs := sset 0#64 off (v ^^^ partReset off) p.regs }

/-- Bits 31:0 of a register, as a ring index. -/
def Part.idx (p : Part) (off : Nat) : Nat := (p.reg off).toNat % 2 ^ 32

/-! ### Bytes at a resolved place -/

/-- Key of a peer byte: node and offset (R252, R254). -/
def peerKey (node off : Nat) : Nat := node * 2 ^ 50 + off

/-- n bytes at a place. -/
def State.readPlace (s : State) (p : Place) (n : Nat) : Bytes :=
  match p with
  | .hbm a => Memory.bytes s.hbm a n
  | .sp c off => Memory.bytes (s.core c).sp off n
  | .slot o off => Memory.bytes (s.core s.ctx.core).e.slotMem (8192 * o + off) n
  | .peer node off => Memory.bytes s.peer (peerKey node off) n
  | .reg _ => List.replicate n 0#8

/-- The context to which a bank of a core is allocated (R119). A bank of SPMASK whose scrub a placement or a resume found unfinished becomes the
group's when the scrub ends; until then it counts as allocated, and who reaches it waits (R117, R120, R121). DEDUCED, log entry 95. -/
def Core.bankOwner (c : Core) (b : Nat) : Nat :=
  let k := sget {} b c.banks
  if k.owner = 0 ∧ k.st = 3 ∧ c.sys.spmask.getLsbD b ∧ !c.finished then c.owner else k.owner

/-- A scratchpad write reaches its banks: LIVE is set and the access is counted (R119, R121). -/
def Core.touch (c : Core) (now b : Nat) (write : Bool) : Core :=
  let k := sget {} b c.banks
  { c with banks := sset {} b { k with live := k.live || write, last := now } c.banks }

/-- The cores of a scope seen from a core (R277). -/
def inScope (scp n k : Nat) : Bool :=
  match scp with
  | 0 => n == k
  | 1 => coreCluster n == coreCluster k
  | 2 => coreDie n == coreDie k
  | _ => true

/-- Store bytes at a place on behalf of a core (which names the operand slots). -/
def State.writeRaw (s : State) (me : Nat) (p : Place) (d : Bytes) : State :=
  match p with
  | .hbm a => { s with hbm := Memory.store s.hbm a d }
  | .sp c off => s.modCore c fun k => ({ k with sp := Memory.store k.sp off d } : Core).touch s.power.ref (off / 65536) true
  | .slot o off => s.modCore me fun k => { k with e := { k.e with slotMem := Memory.store k.e.slotMem (8192 * o + off) d } }
  | .peer node off => { s with peer := Memory.store s.peer (peerKey node off) d }
  | .reg _ => s

/-- A space-1 pointer to an offset of a core (R253). -/
def spPointer (core off : Nat) : Word := BitVec.ofNat 64 (2 ^ 60 + coreCluster core * 2 ^ 55 + coreRank core * 2 ^ 52 + off)

/-- The cause of an uncorrectable error in a slot, which it names by its address (R90, R315). -/
def slotBad (n o : Nat) : Cause := { cause := 0x20, addr := spPointer n (0x200000 + 8192 * o) }

/-- The offset of a place in its memory. -/
def Place.offset : Place → Nat
  | .hbm a => a
  | .sp _ a => a
  | .slot _ a => a
  | .peer _ a => a
  | .reg a => a

/-- Whether two byte ranges at places overlap. -/
def Place.overlaps (p : Place) (n : Nat) (q : Place) (m : Nat) : Bool :=
  let hit (a b : Nat) : Bool := decide (a < b + m) && decide (b < a + n)
  match p, q with
  | .hbm a, .hbm b => hit a b
  | .sp c a, .sp d b => c == d && hit a b
  | .slot o a, .slot u b => o == u && hit a b
  | .peer k a, .peer l b => k == l && hit a b
  | _, _ => false

/-- A place moved on by n bytes. -/
def Place.plus (p : Place) (n : Nat) : Place :=
  match p with
  | .hbm a => .hbm (a + n)
  | .sp c o => .sp c (o + n)
  | .slot o a => .slot o (a + n)
  | .peer k o => .peer k (o + n)
  | .reg o => .reg (o + n)

/-- Whether reading n bytes at a place meets an uncorrectable error, an unreachable node or a dead channel (R90, R399, R400). DESIGN CHOICE, log entry 73. -/
def State.readBad (s : State) (p : Place) (n : Nat) : Bool :=
  match p with
  | .hbm a =>
    (List.range (n / 64 + 2)).any fun i =>
      let l := a / 64 + i
      decide (64 * l < a + n) && (s.bad.contains (0, 0, l) || (s.dead != [] && s.dead.contains (Config.channelOf (64 * l))))
  | .sp c off => (List.range (n / 64 + 2)).any fun i => decide (64 * (off / 64 + i) < off + n) && s.bad.contains (1, c, off / 64 + i)
  | .slot o _ => s.bad.contains (2, s.ctx.core, o)
  | .peer node _ => s.lostNodes.contains node
  | .reg _ => false

/-- Whether a place lies behind a node without a route (R399). -/
def State.lost (s : State) (p : Place) : Bool := match p with | .peer node _ => s.lostNodes.contains node | _ => false

/-- Whether an access to n bytes at a place waits for the copy of a channel into its spare (R400). -/
def State.copied (s : State) (p : Place) (n : Nat) : Bool :=
  match p with
  | .hbm a => s.copying != [] && (List.range (n / 64 + 2)).any fun i => decide (64 * (a / 64 + i) < a + n) && s.copying.contains (Config.channelOf (64 * (a / 64 + i)))
  | _ => false

/-- A write clears the error marks of the lines it covers whole (R400: until it is written). DESIGN CHOICE, log entry 73. -/
def State.writeGood (s : State) (p : Place) (n : Nat) : State :=
  match p with
  | .hbm a => { s with bad := s.bad.filter fun b => !(b.1 == 0 && a ≤ 64 * b.2.2 && 64 * b.2.2 + 64 ≤ a + n) }
  | .sp c o => { s with bad := s.bad.filter fun b => !(b.1 == 1 && b.2.1 == c && o ≤ 64 * b.2.2 && 64 * b.2.2 + 64 ≤ o + n) }
  | _ => s

/-- A write of the device's own to HBM: at once, or, where a channel is being copied, once the copy has ended (R400). -/
def State.storeHbm (s : State) (a : Nat) (d : Bytes) : State :=
  if s.copied (.hbm a) d.length then { s with delayed := s.delayed ++ [(a, d)] }
  else { s with hbm := Memory.store s.hbm a d }.writeGood (.hbm a) d.length

/-- The device's own writes that waited, in order. -/
def State.storeDelayed (s : State) (l : List (Nat × Bytes)) : State := l.foldl (fun (s : State) w => s.storeHbm w.1 w.2) s

/-! ### Trace (R349 to R352) -/

/-- The clock a source counts: chart ticks for a core, reference ticks for the others (R351). DESIGN CHOICE, log entry 37. -/
def State.sourceClock (s : State) (src : Nat) : Nat :=
  if src < 384 then (s.core (src / 2)).tick
  else if src < 640 then (s.core (src - 384)).tick
  else s.power.ref / 1000

/-- Whether a partition traces a source (R341). -/
def Part.traces (p : Part) (src : Nat) : Bool :=
  p.reg 0x620 != 0#64 &&
  (if src < 640 then
    let c := if src < 384 then src / 2 else src - 384
    p.cores.contains c && (p.reg (0x648 + 8 * (c / 64))).getLsbD (c % 64)
  else (p.reg 0x628).getLsbD 63)

/-- One 32-byte trace record of a source, with its tag and delta; a full ring drops it and counts the loss (R352). -/
def State.trace (s : State) (pn src kind : Nat) (a : Nat) (b : Word) : State :=
  let p := s.part pn
  if !p.traces src then s
  else
    let now := s.sourceClock src
    let old := (p.trace.find? fun t => t.1 == src).getD (src, 0, 0)
    let p1 := { p with trace := (src, (old.2.1 + 1) % 2 ^ 32, (now : Int)) :: p.trace.filter fun t => t.1 != src }
    let size := 2 ^ ((p.reg 0x628).toNat % 32 + 11)
    let head := p.idx 0x630
    if (head + 2 ^ 32 - p.idx 0x638) % 2 ^ 32 = size then
      let lost := p1.reg 0x640
      s.setPart pn (p1.setReg 0x640 (if lost = BitVec.allOnes 64 then lost else lost + 1#64))
    else
      let rec32 := leBytes 4 old.2.1 ++ leBytes 2 src ++ leBytes 1 kind ++ [0#8] ++ leBytes 4 ((now : Int) - old.2.2).toNat ++ leBytes 4 a ++
        leBytes 8 s.wall ++ wordBytes b
      let at_ := (p.reg 0x620).toNat % 2 ^ 39 + 32 * (head % size)
      (s.setPart pn (p1.setReg 0x630 (BitVec.ofNat 64 ((head + 1) % 2 ^ 32)))).storeHbm at_ rec32

/-- A change to a core that may set its chart clock: the deltas of its trace sources count on across the jump (R351). -/
def State.withClock (s : State) (n : Nat) (f : Core → Core) : State :=
  let t := s.modCore n f
  let jump : Int := ((t.core n).tick : Int) - (s.core n).tick
  match (s.core n).part with
  | some p => if jump = 0 then t else t.modPart p fun q => { q with trace := q.trace.map fun e => if e.1 / 2 = n ∨ e.1 = 384 + n then (e.1, e.2.1, e.2.2 + jump) else e }
  | none => t

/-! ### Queues (R137, R139) -/

/-- Queue numbers, in the order of the survey's cut (R315): q0-q7 0-7, k0-k3 8-11, sq0-sq3 12-15, aq0-aq1 16-17, y0 18, cq0 19, FQ 20. -/
def qCap (q : Nat) : Nat := if q < 12 ∨ q = 18 then 16 else 32

def Core.queue (c : Core) (q : Nat) : Queue := sget {} q c.q
def Core.setQueue (c : Core) (q : Nat) (v : Queue) : Core := { c with q := sset {} q v c.q }

/-- Whether a push finds no free entry: reserved entries count as occupied (R138). -/
def Core.full (c : Core) (q : Nat) : Bool := qCap q ≤ (c.queue q).es.length

/-- Reserve an entry, giving its absolute number: pops taken plus its place (R139). -/
def Core.reserve (c : Core) (q : Nat) (e : Entry) : Core × Nat :=
  let u := c.queue q
  (c.setQueue q { u with es := u.es ++ [e] }, (u.pops + u.es.length) % 65536)

/-- An entry not yet filled. DESIGN CHOICE, log entry 3. -/
def emptyEntry : Entry := { filled := false, present := 0, val := 0#1024 }

/-- Fill the entry with an absolute number, if it is still there and unfilled. -/
def Core.fillEntry (c : Core) (q n : Nat) (v : Row) : Core :=
  let u := c.queue q
  let k := (n + 65536 - u.pops % 65536) % 65536
  c.setQueue q { u with es := u.es.mapIdx fun i e => if i = k && !e.filled then { e with filled := true, val := v } else e }

/-- The head entry when it is present at a tick (R139). -/
def Core.head (c : Core) (q tick : Nat) : Option Entry :=
  match (c.queue q).es with
  | e :: _ => if e.filled && e.present ≤ tick then some e else none
  | [] => none

/-- Whether one issue number precedes another in the 24-bit numbering (R317). -/
def seqBefore (a b : Nat) : Bool := a != b && decide ((b + 2 ^ 24 - a) % 2 ^ 24 < 2 ^ 23)

/-- The later of the A-class pushes whose entries have been popped, an entry's own among them (R152). -/
def Core.seenAfter (c : Core) (e : Option Entry) : Nat :=
  match e with
  | some e => if e.iseq ≠ 0 ∧ (c.seen = 0 ∨ seqBefore c.seen e.iseq) then e.iseq else c.seen
  | none => c.seen

/-- Remove the head entry and count the pop modulo 2^16 (R314). -/
def Core.pop (c : Core) (q : Nat) : Core :=
  let u := c.queue q
  { c.setQueue q { es := u.es.drop 1, pops := (u.pops + 1) % 65536 } with
    freed7 := if q = 7 then (u.es.head?.toList.map (fun e => (c.tick, e)) ++ c.freed7).take 32 else c.freed7
    seen := c.seenAfter u.es.head? }

/-- Every command of a core: the interrupted ones, and the one that has captured its pages and waits at its enqueue. -/
def Core.allCmds (c : Core) : List Cmd := c.cmds ++ c.heldC ++ (c.a.taken.toList.map (·.1))

/-- A change to every command of a core. -/
def Core.mapCmds (c : Core) (f : Cmd → Cmd) : Core :=
  { c with cmds := c.cmds.map f, heldC := c.heldC.map f, a := { c.a with taken := c.a.taken.map fun e => (f e.1, e.2) } }

/-- Tokens of a channel (R141). -/
def Core.tokens (c : Core) (n : Nat) : Nat := sget 0 n c.tk
def Core.setTokens (c : Core) (n v : Nat) : Core := { c with tk := sset 0 n v c.tk }

/-! ### Accesses (R263, R265, R278, R291, R294) -/

/-- The memory space of a tagged pointer (R252). -/
def spaceOf (p : Word) : Nat := p.toNat / 2 ^ 60

/-- The value a load delivers (R264). -/
def loadValue (sz : Nat) (sx : Bool) (d : Bytes) : Word :=
  let v := BitVec.ofNat 64 (leNat d)
  if sx then signLow (8 * 2 ^ sz) v else v

/-- Size, direction and ordering of an access. -/
structure Acc where
  size : Nat
  rd : Bool := false
  wr : Bool := false
  /-- an atomic or AWAIT: the race check does not apply (R289) -/
  atom : Bool := false
  ord : Nat := 0
  scp : Nat := 0
deriving DecidableEq, Repr

/-- Acquire and release suffixes (R40). -/
def Acc.acq (a : Acc) : Bool := a.ord == 1 || a.ord == 3
def Acc.rel (a : Acc) : Bool := a.ord == 2 || a.ord == 3

/-- The access of an A-class syllable that makes one; PREF makes none (R278). -/
def accOf : Instr → Option Acc
  | .ld _ _ _ _ sz _ ord scp => some { size := 2 ^ sz.toNat, rd := true, ord := ord.toNat, scp := scp.toNat }
  | .ldx _ _ _ _ _ sz _ ord scp => some { size := 2 ^ sz.toNat, rd := true, ord := ord.toNat, scp := scp.toNat }
  | .st _ _ _ _ sz ord scp => some { size := 2 ^ sz.toNat, wr := true, ord := ord.toNat, scp := scp.toNat }
  | .stx _ _ _ _ _ sz ord scp => some { size := 2 ^ sz.toNat, wr := true, ord := ord.toNat, scp := scp.toNat }
  | .ldq .. => some { size := 128, rd := true }
  | .stq .. => some { size := 128, wr := true }
  | .aadd _ _ _ _ sz ord scp => some (at_ sz ord scp)
  | .amin _ _ _ _ sz ord scp => some (at_ sz ord scp)
  | .amax _ _ _ _ sz ord scp => some (at_ sz ord scp)
  | .aand _ _ _ _ sz ord scp => some (at_ sz ord scp)
  | .aor _ _ _ _ sz ord scp => some (at_ sz ord scp)
  | .axor _ _ _ _ sz ord scp => some (at_ sz ord scp)
  | .axchg _ _ _ _ sz ord scp => some (at_ sz ord scp)
  | .acas _ _ _ _ _ sz ord scp => some (at_ sz ord scp)
  | .await _ _ _ _ _ sz ord scp => some { size := 2 ^ sz.toNat, rd := true, atom := true, ord := ord.toNat, scp := scp.toNat }
  | _ => none
where
  at_ (sz : BitVec 2) (ord : BitVec 2) (scp : BitVec 3) : Acc :=
    { size := 2 ^ sz.toNat, rd := true, wr := true, atom := true, ord := ord.toNat, scp := scp.toNat }

/-! ### Energy (R382) -/

/-- A transfer is charged, and what its coding saves is credited (R382, R383). -/
def Meter.transfer (m : Meter) (kind : Nat) (d : Bytes) : Meter :=
  let e := Config.transferEnergy kind d.length
  { m with charged := m.charged + e, credited := m.credited + min e (Config.transferCredit kind d) }

/-- A partition is charged for a transfer. -/
def State.chargeKind (s : State) (pn kind : Nat) (d : Bytes) : State :=
  { s with meters := sset {} pn ((sget {} pn s.meters : Meter).transfer kind d) s.meters }

/-- Bytes that a partition's agents move to or from a place: only HBM and other devices' windows are reached by a transfer. -/
def State.charge (s : State) (pn : Nat) (p : Place) (d : Bytes) : State :=
  match p with
  | .hbm _ => s.chargeKind pn 0 d
  | .peer .. => s.chargeKind pn 1 d
  | _ => s

/-! ### Who sees a write (R277, R279 to R281). DEDUCED, log entry 97. -/

/-- The number that stands for the agents outside the partitions' cores: other devices, clients, firmware. -/
def outsider : Nat := 192

/-- Memory in which a write may be hidden from some cores; writes in scratchpads are seen at once. -/
def Place.shared : Place → Bool
  | .hbm _ => true
  | .peer .. => true
  | _ => false

/-- Memory that agents share. -/
def Place.common (p : Place) : Bool := p.shared || match p with | .sp .. => true | _ => false

/-- Whether a write touches bytes at a place. -/
def Veil.meets (v : Veil) (p : Place) (n : Nat) : Bool := v.place.overlaps v.old.length p n

/-- What a core reads of one byte, the newest write first: the byte, and the releases of the write that it reads (R280, R281). -/
def byteSeen (m : Nat) (p : Place) : List Veil → Byte → Byte × List Rel
  | [], b => (b, [])
  | v :: t, b =>
    if !v.meets p 1 then byteSeen m p t b
    else if v.blind.contains m then byteSeen m p t (v.old.getD (p.offset - v.place.offset) b)
    else (b, v.rels)

/-- The bytes at a place as a core reads them. -/
def State.seen (s : State) (m : Nat) (p : Place) (n : Nat) : Bytes :=
  if s.order.veils = [] then s.readPlace p n
  else (s.readPlace p n).zipIdx.map fun e => (byteSeen m (p.plus e.2) s.order.veils e.1).1

/-- The releases that a core reads at a place. -/
def State.relsSeen (s : State) (m : Nat) (p : Place) (n : Nat) : List Rel :=
  if s.order.veils = [] then []
  else ((List.range n).flatMap fun i => (byteSeen m (p.plus i) s.order.veils 0#8).2).eraseDups

/-- Nothing is kept once no core is left that does not see a write. -/
def Order.tidy (o : Order) : Order := if o.veils.all fun v => v.blind.isEmpty then { o with veils := [] } else o

/-- Whether a write is still hidden from a core because what it is ordered after toward it has not been performed. -/
def State.locked (s : State) (v : Veil) (m : Nat) : Bool :=
  v.lock != 0 && inScope v.lock v.core m && (s.core v.core).aops.any fun o => v.after.contains o.iseq && o.phase != .done

/-- A write shown to cores, from which with `learn` it happens before what they do next. -/
def Veil.shown (v : Veil) (ms : List Nat) (learn : Bool) : Veil :=
  { v with blind := v.blind.filter fun m => !ms.contains m, known := if learn then (ms.filter fun m => !v.known.contains m) ++ v.known else v.known }

/-- Cores are shown writes, but for those that are still hidden from them. -/
def State.reveal (s : State) (ms : List Nat) (sel : Veil → Bool) (learn : Bool) : State :=
  if s.order.veils = [] then s
  else
    let vs := s.order.veils.map fun v => if sel v then v.shown (ms.filter fun m => !s.locked v m) learn else v
    { s with order := ({ s.order with veils := vs } : Order).tidy }

/-- The writes that happen before a core's next access. -/
def Order.knownBy (o : Order) (n : Nat) : List Nat := (o.veils.filter fun v => v.known.contains n).map (·.id)

/-- Whether a release orders a write before what comes after it: also one of its own core's before it that is performed after it. -/
def Rel.orders (r : Rel) (v : Veil) : Bool := r.covers.contains v.id || (v.core == r.core && v.iseq != 0 && seqBefore v.iseq r.iseq)

/-- Whether a release and an acquire with a scope by core m synchronise when the one reads the other (R277, R280): both scopes contain both, and through
another device's window both are of domain scope. -/
def Rel.joins (r : Rel) (m scp : Nat) : Bool :=
  r.core != m && inScope r.scp r.core m && inScope scp m r.core && (r.space != 2 || (r.scp == 4 && scp == 4))

/-- An acquire of core m with a scope that reads releases (R280). -/
def State.acquire (s : State) (m scp : Nat) (rs : List Rel) : State :=
  (rs.filter fun r => r.joins m scp).foldl (fun s r => s.reveal [m] r.orders true) s

/-- Core m reads n bytes at a place through a memory space: a later FENCE.acq may make it an acquire, and a suffix does at once (R280). -/
def State.reads (s : State) (m space : Nat) (p : Place) (n : Nat) (acq : Option Nat) : State :=
  match (s.relsSeen m p n).filter fun r => r.space == space with
  | [] => s
  | rs =>
    let s := s.modCore m fun c => { c with heard := (rs ++ c.heard).eraseDups }
    match acq with
    | some scp => s.acquire m scp rs
    | none => s

/-- What a write carries: its ISEQ, its releases, and what it stays hidden for. -/
structure Tag where
  iseq : Nat := 0
  rels : List Rel := []
  lock : Nat := 0
  after : List Nat := []

/-- A write joins the order: hidden from the cores that are not to see it at once, never from its own (R264). -/
def Order.write (o : Order) (me : Nat) (p : Place) (old : Bytes) (t : Tag) : Order :=
  if !p.common || (o.veils.isEmpty && (!p.shared || 192 ≤ me || (t.lock = 0 && o.hide.isEmpty))) then o
  else
    let far := (if t.lock = 0 then [] else (List.range 192).filter (inScope t.lock me)) ++ o.hide
    let v : Veil :=
      { id := o.next, core := me, iseq := t.iseq, place := p, old := old, blind := if p.shared && me < 192 then far.eraseDups.filter (· != me) else []
        known := [me], rels := t.rels.map fun r => { r with covers := o.next :: r.covers }, lock := t.lock, after := t.after }
    ({ o with next := o.next + 1, veils := v :: o.veils } : Order).tidy

/-- Store bytes at a place on behalf of a core, in its place in the order of writes. -/
def State.writePlace (s : State) (me : Nat) (p : Place) (d : Bytes) (t : Tag := {}) : State :=
  { s.writeRaw me p d with order := s.order.write me p (s.readPlace p d.length) t }

/-- Every core of a scope is shown what a release of core n orders, and what comes after it happens after that (R279). -/
def State.showScope (s : State) (n scp : Nat) : State :=
  s.reveal ((List.range 192).filter (inScope scp n)) (fun v => v.known.contains n) false

/-- An agent outside reads: what the core did whose write it reads happens before what the agent does next (R280). -/
def State.readsOutside (s : State) (p : Place) (n : Nat) : State :=
  (s.order.veils.filter fun v => v.meets p n).foldl (fun s v => s.reveal [outsider] (fun w => w.id == v.id || w.known.contains v.core) true) s

/-- An agent outside writes bytes at a place, as a release at domain scope (R277, R280). -/
def State.writeOutside (s : State) (p : Place) (d : Bytes) (more : List Rel := []) : State :=
  s.writePlace outsider p d { rels := { core := outsider, scp := 4, space := 2, iseq := 0, covers := s.order.knownBy outsider } :: more }

/-- A load or store that a write was performed before is performed as the group stops (R279, R311). -/
def State.settleOne (s : State) (n : Nat) (o : AOp) : State :=
  match accOf o.instr, (s.core n).part with
  | some a, some pn =>
    if s.readBad o.place a.size || s.copied o.place a.size then s
    else
      let load (sz : BitVec 2) (sx : BitVec 1) : State :=
        let d := s.seen n o.place a.size
        let v := loadValue sz.toNat (sx == 1#1) d
        let s := (s.charge pn o.place d).reads n (spaceOf o.addr) o.place a.size (if a.acq then some a.scp else none)
        s.modCore n fun c => { c with aops := c.aops.map fun y => if y.iseq = o.iseq then { y with phase := .done, value := v } else y }
      let store : State :=
        ((s.charge pn o.place (leBytes a.size o.data.toNat)).writePlace n o.place (leBytes a.size o.data.toNat) { iseq := o.iseq }).modCore n fun c =>
          { c with aops := c.aops.filter fun y => y.iseq != o.iseq }
      (match o.instr with
        | .ld _ _ _ _ sz sx _ _ => load sz sx
        | .ldx _ _ _ _ _ sz sx _ _ => load sz sx
        | .st .. => store
        | .stx .. => store
        | _ => s)
  | _, _ => s

/-- A stop settles what core n has performed out of order: the accesses that an early write waits for are performed (R279, R311). -/
def State.settle (s : State) (n : Nat) : State :=
  let first : List Nat := (s.order.veils.filter fun v => v.core == n).flatMap (·.after)
  if first = [] then s else ((s.core n).aops.filter fun o => o.phase == .ready && first.contains o.iseq).foldl (fun s o => s.settleOne n o) s

/-- Whether nothing issues on a core until an unfinished syllable completes (R138, R260, R265, R270, R295, R297, R299, R302, R129, R105, R274): a FENCE.rel
holds only later writes (`State.relWaits`), and a stall-mode STQ nothing before its pop (`Core.stqWaits`). DEDUCED, log entry 27. DEDUCED, log entry 53. -/
def AOp.blocks (o : AOp) : Bool :=
  match o.instr with
  | .await .. => o.phase != .done
  | .fence _ ord _ => ord != 2#2
  | .tfence .. => true
  | .barw .. => true
  | .tkpush .. => true
  | .tkwait .. => true
  | .cwait .. => o.phase == .sync
  | .spfree .. => true
  | .launchB .. => o.phase == .sync
  | .publish .. => true
  | .hnew .. => true
  | _ => false

/-- Whether a stall-mode STQ that has passed its checks waits for the head of its queue, no earlier STQ being before it at that queue (R265, R335). -/
def Core.stqWaits (c : Core) (o : AOp) : Bool :=
  match o.instr with
  | .stq _ k _ _ md =>
    md == 1#2 && o.phase == .ready && !o.popped && (c.head (8 + k.toNat) c.tick).isNone &&
    !(c.aops.takeWhile fun y => y.iseq != o.iseq).any fun y => !y.popped && match y.instr with | .stq _ u .. => u == k | _ => false
  | _ => false

/-- Whether an unfinished syllable of a core's access stream holds everything that would issue after it. -/
def Core.blocked (c : Core) : Bool := c.aops.any fun o => o.blocks || c.stqWaits o

/-- After a change t of s that lets core n issue again: the cycles of the bundle that waited, and of its Idle value, follow the end of the wait
(R35, R335). DEDUCED, log entry 93. -/
def State.eased (s t : State) (n : Nat) : State :=
  if (s.core n).blocked && !(t.core n).blocked then
    t.modCore n fun c => { c with a := { c.a with ready := max c.a.ready (c.cycle + (1 + c.a.idle) * c.divisor 0) } }
  else t

/-! ### The survey (R315 to R321) -/

/-- Word 1 of a record (R319). -/
def recWord1 (engine kind : Nat) (rst idm fh pw lnd : Bool) (due iseq cause : Nat) : Word :=
  let bit (b : Bool) (n : Nat) : Nat := if b then 2 ^ n else 0
  BitVec.ofNat 64 (engine * 2 ^ 61 + kind * 2 ^ 56 + bit rst 55 + bit idm 54 + bit fh 53 + bit pw 52 + bit lnd 51 +
    due % 65536 * 2 ^ 32 + iseq % 2 ^ 24 * 2 ^ 8 + cause)

/-- The value a scalar landing holds (R321 kind 1); of a compare's pair it is the first register's. DESIGN CHOICE, log entry 116. -/
def Land.scalar : Land → Word
  | .greg _ v => v
  | .wreg _ v => v
  | .creg _ v => if v then 1#64 else 0#64
  | .preg _ _ v => v
  | .breg _ v _ => v
  | .lcnt _ v => v
  | .sys _ v => v
  | .ipsel fn => BitVec.ofNat 64 fn
  | .entries _ ((_, v) :: _) _ => v.setWidth 64
  | _ => 0#64

/-- Word 4 of a flag-mode pop's record: the c pair bound to land (R407). -/
def pairWord : List Land → Word
  | [_, .creg n a, .creg _ b] =>
    BitVec.ofNat 64 (2 ^ 63 + n + (if a then 256 else 0) + (if b then 512 else 0))
  | _ => 0#64

/-- What a landing names: a kind of register, store or queue, and its number. -/
def Land.dest (q : Nat) : Land → Nat × Nat
  | .greg n _ => (0, n)
  | .wreg p _ => (1, p)
  | .creg n _ => (2, n)
  | .preg n _ _ => (3, n)
  | .breg n _ _ => (4, n)
  | .lcnt n _ => (5, n)
  | .sys n _ => (6, n)
  | .rows rs => (7, (rs.headD (0, 0#1024, 0#1024)).1)
  | .acc a _ _ => (8, a)
  | .mzero a _ _ => (8, a)
  | .acq a _ _ => (9, a)
  | .arel a => (9, a)
  | .oclaim o => (10, o)
  | .orel o => (10, o)
  | .slot o off _ => (11, 8192 * o + off)
  | .legends ls => (12, (ls.headD (0, {}, [])).1)
  | .lginv l _ => (12, l)
  | .entries k es _ => (13, 65536 * k + (es.headD (0, 0#1024)).1)
  | .mesh c _ => (14, 2 ^ 24 * c + q)
  | .ipsel _ => (15, 0)
  | .iptab n _ => (16, n)

/-- The bytes that a landing store keeps of a wide result (R332): rows and slot bytes as they are to be written; of an accumulation, whose
values are added one after another, a free value. DESIGN CHOICE, log entry 39. -/
def Land.bytes (q : Nat) : Land → Bytes
  | .rows rs => rs.flatMap fun r => rowBytes r.2.2
  | .acc .. => (List.range 2048).map fun i => Config.freeByte (2048 * q + i)
  | .mzero _ r _ => List.replicate (128 * r) 0#8
  | .slot _ _ d => d
  | .entries _ es _ => es.flatMap fun e => rowBytes e.2
  | .mesh _ v => rowBytes v
  | .iptab _ t => leBytes 4 t.lo.toNat ++ leBytes 4 t.hi.toNat ++ [BitVec.ofNat 8 t.below, BitVec.ofNat 8 t.above] ++ List.replicate 6 0#8 ++
      (t.knots ++ t.slopes).flatMap fun k => leBytes 4 k.toNat
  | _ => []

/-- The wide result of an operation. -/
def Op.wideBytes (o : Op) : Bytes := (o.lands.headD (.greg 0 0#64)).bytes o.iseq

/-- The record of a ticked operation (R321 kinds 1, 2, 3 and 14); a wide result's word 3 holds its offset in the landing store in bits 31:0 and its
length in 63:32. DESIGN CHOICE, log entry 39. -/
def Op.record (o : Op) (ts off : Nat) : List Word :=
  let fh := o.cause != 0
  let due := (o.due - ts) % 4096 + (if o.half then 4096 else 0)
  match o.kind with
  | .land =>
    let d := (o.lands.headD (.greg 0 0#64)).dest o.iseq
    [o.word, recWord1 o.engine (if o.wide then 2 else 1) false false fh false true due o.iseq o.cause, Config.destCode d.1 d.2,
      if o.wide then BitVec.ofNat 64 (o.wideBytes.length * 2 ^ 32 + off) else (o.lands.headD (.greg 0 0#64)).scalar, pairWord o.lands, 0#64, 0#64, 0#64]
  | .start =>
    [o.word, recWord1 o.engine 3 true false fh false false ((o.due - ts) % 65536) o.iseq o.cause, o.fw.getD 0#64, 0#64, 0#64, 0#64,
      if o.fw.isSome then 1#64 else 0#64, 0#64]
  | .fill =>
    [o.word, recWord1 o.engine 14 true false fh false false ((o.due - ts) % 65536) o.iseq o.cause, o.fw.getD 0#64, o.gens, 0#64, 0#64, 0#64, 0#64]

/-- Whether an A-class access only reads and may be repeated (R321: IDM). -/
def AOp.idem (o : AOp) : Bool :=
  match o.instr with
  | .ld .. => true
  | .ldx .. => true
  | .pref .. => true
  | .await .. => true
  | .ldq .. => o.entry.isNone
  | _ => false

/-- The record of an unfinished A-class syllable (R321 kinds 4, 5, 6 and 10). -/
def AOp.record (o : AOp) : List Word :=
  let fh := o.cause != 0
  match o.phase with
  | .sync => [o.word, recWord1 1 6 true false fh false false 0 o.iseq o.cause, o.addr, o.data, o.extra, 0#64, 0#64, 0#64]
  | .done =>
    if o.dest.isSome then
      [o.word, recWord1 1 5 false false fh false true 0 o.iseq o.cause, BitVec.ofNat 64 (o.dest.getD 0), o.value, 0#64, 0#64, 0#64, 0#64]
    else
      [o.word, recWord1 1 4 true o.idem fh false false 0 o.iseq o.cause, o.addr, o.data, o.extra, 0#64,
        if o.entry.isSome then 1#64 else 0#64, 0#64]
  | _ =>
    match o.buf with
    | some (b, r) => [o.word, recWord1 7 10 true true fh false false 0 o.iseq o.cause, o.addr, BitVec.ofNat 64 (b + 256 * r), 0#64, 0#64, 0#64, 0#64]
    | none =>
      [o.word, recWord1 1 4 true o.idem fh false false 0 o.iseq o.cause, o.addr, o.data, o.extra, 0#64,
        if o.entry.isSome then 1#64 else 0#64, 0#64]

/-- Whether a command may be repeated from its start (R321). -/
def Cmd.idem (c : Cmd) : Bool := match c.instr with | .scatter .. => false | _ => true

/-- Progress as a record shows it: bytes of a COPY, rows of the others (R321). DEDUCED, log entry 46. -/
def Cmd.shown (c : Cmd) : Nat := c.progress / c.unit

/-- The record of an unretired command (R321 kind 7). -/
def Cmd.record (c : Cmd) : List Word :=
  [c.word, recWord1 5 7 true c.idem (c.cause != 0) (c.progress != 0) false 0 c.iseq c.cause, c.dst, c.src, c.len, c.aux,
    BitVec.ofNat 64 c.shown, 0#64]

/-- ENGINE, KIND and ISEQ of a record. -/
def recEngine (r : List Word) : Nat := (r.getD 1 0#64).toNat / 2 ^ 61
def recKind (r : List Word) : Nat := (r.getD 1 0#64).toNat / 2 ^ 56 % 32
def recIseq (r : List Word) : Nat := (r.getD 1 0#64).toNat / 2 ^ 8 % 2 ^ 24
/-- Ticked kinds (R321). -/
def ticked (kind : Nat) : Bool := kind == 1 || kind == 2 || kind == 3 || kind == 14

/-- What an unfinished operation may touch, as R320 compares operations: `memory` stands for bytes whose place is not known yet. -/
inductive Touch where
  | queue (q : Nat)
  | token (ch : Nat)
  | bank (core b : Nat)
  | bytes (p : Place) (n : Nat)
  | memory
deriving DecidableEq, Repr

/-- Whether two byte ranges may share a 64-byte line, or a slot (R320); an access of this device to its own window may reach its memory. -/
def linesMeet (p : Place) (n : Nat) (q : Place) (m : Nat) : Bool :=
  let hit (a b : Nat) : Bool := decide (a / 64 * 64 < b + m) && decide (b / 64 * 64 < a + n)
  match p, q with
  | .slot o _, .slot u _ => o == u
  | .hbm a, .hbm b => hit a b
  | .sp c a, .sp d b => c == d && hit a b
  | .peer k a, .peer l b => k == l && hit a b
  | .hbm _, .peer k _ => k == Config.nodeId.toNat
  | .peer k _, .hbm _ => k == Config.nodeId.toNat
  | _, _ => false

/-- Whether a range reaches a scratchpad bank. -/
def Place.inBank (p : Place) (n core b : Nat) : Bool :=
  match p with
  | .sp c off => c == core && decide (off / 65536 ≤ b) && decide (b ≤ (off + n - 1) / 65536)
  | _ => false

/-- Whether two operations may meet in what they touch. -/
def Touch.meets : Touch → Touch → Bool
  | .queue p, .queue q => p == q
  | .token p, .token q => p == q
  | .bank c a, .bank d b => c == d && a == b
  | .bank c b, .bytes p n => p.inBank n c b
  | .bytes p n, .bank c b => p.inBank n c b
  | .bytes p n, .bytes q m => linesMeet p n q m
  | .memory, .bytes .. => true
  | .bytes .., .memory => true
  | .memory, .bank .. => true
  | .bank .., .memory => true
  | .memory, .memory => true
  | _, _ => false

/-- What an A-class syllable of core n may touch, and whether it writes it. DEDUCED, log entry 26. -/
def AOp.touches (o : AOp) (n : Nat) : List (Touch × Bool) :=
  let banks (m : Word) : List (Touch × Bool) := ((List.range 32).filter fun b => m.getLsbD b).map fun b => (.bank n b, true)
  (match accOf o.instr, o.phase with
    | some a, .walking => [(.memory, a.wr)]
    | some a, .ready => [(.bytes o.place a.size, a.wr)]
    | _, _ => []) ++
  (match o.instr with
    | .ldq _ q .. => [(.queue q.toNat, true)]
    | .stq _ q .. => [(.queue (8 + q.toNat), true)]
    | .cwait .. => if o.phase == .sync then [(.queue 19, true)] else []
    | .tkpush _ k => [(.token k.toNat, true)]
    | .tkwait _ k => [(.token k.toNat, true)]
    | .spalloc .. => banks o.mask
    | .spfree .. => banks o.addr
    | .publish .. => [(.memory, true)]
    | .hnew .. => [(.memory, true)]
    | .launchB .. => if o.phase == .sync then [(.memory, false)] else []
    | .launchN .. => if o.phase == .sync then [(.memory, false)] else []
    | _ => [])

/-- What a command may touch: its whole captured range, its queue and its token channel. DEDUCED, log entry 26. -/
def Cmd.touches (m : Cmd) : List (Touch × Bool) :=
  m.reads.map (fun r => (.bytes r.2.1 r.2.2, false)) ++ m.writes.map (fun w => (.bytes w.2.1 w.2.2, true)) ++
  (match m.instr with
    | .ldq2 .. => [(.queue m.dst.toNat, true)]
    | _ => [(.queue 19, true)]) ++
  (match m.push with | some ch => [(.token ch, true)] | none => [])

/-- A record with what its operation touches. -/
abbrev Rec := List Word × List (Touch × Bool)

/-- Whether an operation depends on another of another engine: they may meet in something that one of them writes (R320). -/
def Rec.on (a b : Rec) : Bool := a.2.any fun x => b.2.any fun y => (x.2 || y.2) && x.1.meets y.1

/-- Insertion into a list ordered by ISEQ, which may have wrapped (R315, R317). DEDUCED, log entry 22. -/
def insertRec (r : Rec) : List Rec → List Rec
  | [] => [r]
  | h :: t => if seqBefore (recIseq r.1) (recIseq h.1) then r :: h :: t else h :: insertRec r t

/-- DEP and FAR of word 7 (R320): the earlier unticked records of another engine that a record depends on, within 56 places by its bit and beyond by
FAR. Earlier records are given latest first. DEDUCED, log entry 26. -/
def depWord (r : Rec) (earlier : List Rec) : Word :=
  if ticked (recKind r.1) then 0#64
  else
    let hits := (earlier.zipIdx).filter fun e => !ticked (recKind e.1.1) && recEngine e.1.1 != recEngine r.1 && r.on e.1
    BitVec.ofNat 64 (hits.foldl (fun acc e => if e.2 < 56 then acc ||| 2 ^ e.2 else acc ||| 2 ^ 56) 0)

/-- Give every record its word 7. DEDUCED, log entry 26. -/
def withDeps : List Rec → List Rec → List (List Word)
  | _, [] => []
  | earlier, r :: t => (r.1.take 7 ++ [depWord r earlier]) :: withDeps (r :: earlier) t

/-- The operations of a core whose wide results the landing store holds, with their offsets: 8 KiB each (R332). DESIGN CHOICE, log entry 39. -/
def Core.landings (c : Core) : List (Op × Nat) :=
  ((c.ops.filter fun o => o.kind == .land && o.wide).zipIdx).map fun e => (e.1, 8192 * e.2)

/-- The offset of an operation's result in the landing store. -/
def Core.landingOf (c : Core) (o : Op) : Nat := match c.landings.find? fun e => e.1 == o with | some e => e.2 | none => 0

/-- The records of a core at a halt, in ascending ISEQ order (R312, R315). DEDUCED, log entry 22. -/
def Core.records (c : Core) (n ts : Nat) : List (List Word) :=
  let xs : List Rec := c.ops.map (fun o => (o.record ts (c.landingOf o), [])) ++ c.aops.map (fun o => (o.record, o.touches n)) ++
    c.cmds.map (fun m => (m.record, m.touches)) ++
    (match c.x.align with
      | some (_, q) => [([c.x.alignWord, recWord1 0 8 true false false false false 0 q 0, 0#64, 0#64, 0#64, 0#64, 0#64, 0#64], [])]
      | none => []) ++
    (match c.x.window with
      | some (k, fill) => [([0#64, recWord1 6 9 true true (c.x.windowCause != 0) false false 0 c.x.windowSeq c.x.windowCause, BitVec.ofNat 64 (if fill then c.x.low - 8 * k else c.x.low),
          BitVec.ofNat 64 k, if fill then 1#64 else 0#64, 0#64, 0#64, 0#64], [(.bank n 31, !fill)])]
      | none => [])
  withDeps [] (xs.foldl (fun acc r => insertRec r acc) [])

/-- The cause word (R316), before delivery sets SUPV or HAND. -/
def Core.causeWord (c : Core) : Word :=
  BitVec.ofNat 64 (c.code % 65536 * 2 ^ 48 + c.causeIseq % 2 ^ 24 * 2 ^ 16 + c.causeEngine * 2 ^ 8 + c.cause)

/-- One queue of the cut (R314, R315): pops, reserved but unfilled, filled. -/
def Queue.cut (q : Queue) : Nat :=
  let f := (q.es.filter (·.filled)).length
  q.pops % 65536 * 65536 + (q.es.length - f) * 256 + f

/-- The 256 bytes of the survey header (R315). -/
def Core.header (c : Core) (cw : Word) (n : Nat) : Bytes :=
  let d : Desc := match c.detailLegend with | some l => sget {} l c.e.desc | none => {}
  wordBytes cw ++ wordBytes c.x.k.pc ++ leBytes 8 (max c.x.next c.ts) ++ leBytes 8 c.ts ++ wordBytes c.a.k.pc ++ wordBytes c.detailAddr ++
    wordBytes c.detail ++ leBytes 8 n ++ wordBytes d.w0 ++ wordBytes d.w1 ++ wordBytes d.w2 ++ wordBytes d.w3 ++
    ((List.range 21).flatMap fun q => leBytes 4 (c.queue q).cut) ++ leBytes 4 0 ++
    leBytes 8 ((List.range 16).foldl (fun acc k => acc + c.tokens k * 16 ^ k) 0) ++ List.replicate 64 0#8

/-- Bytes that stand from an address up, as a memory of their own. -/
def bytesAt (a : Nat) (d : Bytes) : Memory := (d.zipIdx.filter fun e => e.1 != unwritten).map fun e => (a + e.2, e.1)

/-- What every stop writes of the save image: the landing store and the survey as written (R332). -/
def Core.stopImage (c : Core) (rs : List (List Word)) : Memory :=
  (c.landings.flatMap fun e => bytesAt (0x10000 + e.2) e.1.wideBytes) ++ bytesAt 0x374000 (rs.flatMap fun r => r.flatMap wordBytes)

/-- The parts of the save image that every stop writes, by offset and length (R332). -/
def Core.stopHas (c : Core) (rs : List (List Word)) : List (Nat × Nat) :=
  (0x374000, 64 * rs.length) :: c.landings.map fun e => (0x10000 + e.2, e.1.wideBytes.length)

/-- Write the survey into bank 31: header, then the records; the race checker sees a write by the save engine to those lines (R287, R315). With it go
the landing store and the survey as written (R332). -/
def Core.writeSurvey (c : Core) (n : Nat) (now : Nat) : Core :=
  let rs := c.records n c.ts
  let bytes := c.header c.causeWord rs.length ++ rs.flatMap fun r => r.flatMap wordBytes
  ({ c with sp := Memory.store c.sp 0x1F0000 bytes, asWritten := rs, edited := none, image := c.stopImage rs, imageHas := c.stopHas rs, lines := sclear 0x7C00 (4 + rs.length) c.lines } : Core).touch now 31 true

/-! ### Taking a stop (R311, R312, R322) -/

/-- Put a cause into the header of a core's stop. -/
def Core.putCause (c : Core) (k : Cause) : Core :=
  { c with cause := k.cause, code := k.code, causeEngine := k.engine, causeIseq := k.iseq, detailAddr := k.addr, detail := k.detail,
           detailLegend := k.legend }

/-- Mark the operation that raised a cause (FH, R319). -/
def Core.markOp (c : Core) (k : Cause) : Core :=
  if k.iseq = 0 then c
  else { c with
    ops := c.ops.map fun o => if o.iseq = k.iseq && o.engine = k.engine then { o with cause := k.cause } else o
    aops := c.aops.map fun o => if o.iseq = k.iseq && (k.engine = 1 || k.engine = 7) then { o with cause := k.cause } else o
    cmds := c.cmds.map fun o => if o.iseq = k.iseq && k.engine = 5 then { o with cause := k.cause } else o
    x := if k.engine = 6 && c.x.window.isSome && c.x.windowSeq = k.iseq then { c.x with windowCause := k.cause } else c.x }

/-- Whether a cause takes the place of the one in a core's header (R322): GROUP-STOP gives way; 0x80 to 0x82 come first; then a cause without a
record, the lowest code first; then the cause of the record with the lowest ISEQ. -/
def Core.outranked (c : Core) (k : Cause) : Bool :=
  let sup (n : Nat) : Bool := decide (0x80 ≤ n) && decide (n ≤ 0x82)
  if c.cause = 0 ∨ c.cause = 0x83 then true
  else if sup k.cause || sup c.cause then sup k.cause && (!sup c.cause || decide (k.cause < c.cause))
  else if k.iseq = 0 then c.causeIseq != 0 || decide (k.cause < c.cause)
  else c.causeIseq != 0 && seqBefore k.iseq c.causeIseq

/-- A cause raised on a core: FH on its record, and the header's place by R322. -/
def Core.joinCause (c : Core) (k : Cause) : Core := if c.outranked k then (c.putCause k).markOp k else c.markOp k

/-- The lowest watchpoint of a mask. -/
def lowest (m : Nat) : Nat := ((List.range 8).find? fun k => m.testBit k).getD 0

/-- A stop finds the copy engine of a core with a watched unit touched: its match is a cause of the stop (R348, R358). -/
def Core.joinWatch (c : Core) : Core :=
  c.cmds.foldl (fun d m => match m.watched with
    | some w => if m.cause = 0 then d.joinCause { cause := 0x42, code := lowest w.1, engine := 5, iseq := m.iseq, addr := w.2 } else d
    | none => d) c

/-- Fill the q7 entry a sender's VSEND reserved (R199), if it is still there and unfilled. -/
def Core.fillSent (c : Core) (sender iseq : Nat) (v : Row) : Core :=
  let u := c.queue 7
  c.setQueue 7 { u with es := u.es.map fun e => if e.src == some (sender, iseq) && !e.filled then { e with filled := true, val := v } else e }

/-- The channel a command pops at its enqueue (R268). -/
def Cmd.pops (m : Cmd) : Option Nat :=
  match m.instr with
  | .copy _ _ _ _ _ _ _ tkop ch => if tkop = 2#2 then some ch.toNat else none
  | _ => none

/-- The command that waits at its enqueue is not enqueued: its captures are released, and the token it had popped is back on its channel (R276). -/
def Core.giveBack (c : Core) : Core :=
  let c := match (if c.a.took then c.a.taken.bind fun t => t.1.pops else none) with
    | some ch => c.setTokens ch (min 15 (c.tokens ch + 1))
    | none => c
  { c with a := { c.a with took := false, taken := none } }

/-- Freeze one core at its tick and write its survey (R311, R312, R315). The operations a handler inserted that are still to be performed stay with the core
(R326). DEDUCED, log entry 7. DEDUCED, log entry 15. -/
def State.freeze (s : State) (g : Grp) (n : Nat) : State :=
  let ts := g.key
  s.modCore n fun c =>
    let c := { c.giveBack with ts := ts, tick := if c.x.align.isSome && c.ops.isEmpty then c.tick else ts, resumed := false, cause := if c.cause = 0 then 0x83 else c.cause }
    if c.saved.isSome then c else c.writeSurvey n s.power.ref

/-- The slip cause of a trace record: the row of R145 (R350). DEDUCED, log entry 78. -/
def Slip.row : Slip → Nat
  | .pop _ => 1
  | .room _ => 1
  | .token _ => 2
  | .start _ => 2
  | .window => 4
  | _ => 3

/-- The trace record of a slip that ends (R148, R350). -/
def State.slipEnds (s : State) (g : Grp) : State :=
  match g.slip with
  | some why => s.trace g.part (2 * g.slipCore) 5 why.row (BitVec.ofNat 64 (s.wall - g.slipSince))
  | none => s

/-- Taking a stop: the whole group of a core halts with a cause on that core, every clock is frozen, every core writes its
survey (R311). In handler mode the survey stays as the handler has edited it and the cause goes to the supervisor (R323). -/
def State.stop (s : State) (n : Nat) (k : Cause) : State :=
  match s.grpAt n with
  | none => s
  | some g =>
    let s := g.cores.foldl State.settle s
    if g.status == .running || g.status == .resuming then
      let s := g.cores.foldl (fun s c => s.modCore c fun x => x.putCause { cause := 0 }) (s.slipEnds g)
      let s := s.modCore n fun c => c.joinCause k
      let s := g.cores.foldl (fun s c => s.freeze g c) (g.cores.foldl (fun s c => s.modCore c Core.joinWatch) s)
      let s := g.cores.foldl (fun s c => s.trace g.part (2 * c) 2 ((s.core c).causeWord.toNat % 2 ^ 32) (BitVec.ofNat 64 (s.core c).ts)) s
      s.setGrp { g with status := .stopped, slip := none }
    else if g.status == .handling then
      let s := s.modCore n fun c => { c.putCause k with toSupv := true }
      s.setGrp { g with status := .stopped }
    else if g.status == .stopped then
      -- a cause raised between the freeze and the end of the survey write: FH on its record, header by R322
      s.modCore n fun c => if c.saved.isSome then c.joinCause k else (c.joinCause k).writeSurvey n s.power.ref
    else s

/-- The engine of the syllable being issued (R318): V, M and I have their own, the rest belong to the stream. DEDUCED, log entry 33. DEDUCED, log entry 82. -/
def Ctx.engine (c : Ctx) : Nat :=
  match c.who with
  | .x => (match classOf c.word with | 3 => 2 | 4 => 3 | 5 => 4 | _ => 0)
  | .a => 1
  | .mgmt => 0

/-- Raise a cause against the syllable being issued (R312, R322): the stop, with the issue marked as stopped; the detail address is the
failing one or, where the cause has none, that of the syllable (R315). DEDUCED, log entry 32. DEDUCED, log entry 33. DEDUCED, log entry 82. -/
def State.raise (s : State) (k : Cause) : State :=
  match s.ctx.who with
  | .mgmt =>
    -- a management core's fault halts it and is reported to the Balore root (R389, R398)
    let n := s.ctx.core
    let s := s.setMcore n { s.mcore n with halted := true }
    let m := s.balore.mcstat.toNat
    let sh := 256 ^ n
    { s with
      balore := { s.balore with
        health := s.balore.health ||| (1#64 <<< (52 + n))
        mcstat := BitVec.ofNat 64 (m - m / sh % 256 * sh + k.cause * sh) }
      ctx := { s.ctx with out := .stopped } }
  | _ =>
    let s1 := s.stop s.ctx.core { k with engine := if k.engine = 0 ∧ k.cause ≠ 0x02 then s.ctx.engine else k.engine, addr := if k.addr = 0#64 then s.ctx.pc else k.addr }
    { s1 with ctx := { s1.ctx with out := .stopped } }

/-- Go on with a syllable whose checks are ok; otherwise wait or raise (R145, R186). -/
def State.gate (s : State) (c : Chk) (body : State → State) : State :=
  match c with
  | .ok => body s
  | .waits w => s.waiting w
  | .fault k => s.raise k

end Sys2Proof.Machine
end

