-- ==== Sys2Proof/Machine/Control.lean ====
section
/-! DEFINITION. The B class (R164 to R185, R353): branches, loops, contours, system registers, ends, traps and marks on every
stream, with the window moves of CALL and RET (R151) and the register file of R181. A syllable leaves its control effect for
the bundle's end (R37, R165). -/

namespace Sys2Proof.Machine

/-! ### Targets (R167, R389) -/

/-- Whether an address lies in a section of a kind of an object (R11, R12). -/
def Obj.holds (o : Obj) (kind : Nat) (a : Word) : Bool :=
  o.secs.any fun s => s.1 == kind && decide (o.base.toNat + s.2.1 ≤ a.toNat) && decide (a.toNat < o.base.toNat + s.2.1 + s.2.2)

/-- Whether a target may be taken: 8-byte aligned and in a text section of the stream's kind of an object loaded in the
partition (R167), or in the accepted stage-1 image on a management core (R389). -/
def State.branchOk (s : State) (t : Word) : Bool :=
  t.toNat % 8 == 0 &&
  match s.ctx.who with
  | .mgmt =>
    (match s.balore.stage1 with
      | none => false
      | some g => decide (3 * 2 ^ 60 + g.base ≤ t.toNat) && decide (t.toNat < 3 * 2 ^ 60 + g.base + g.image.length))
  | w =>
    match s.me.part with
    | none => false
    | some p => (s.part p).objs.any fun o => o.holds (if w = .x then 1 else 2) t

/-! ### System registers (R180, R181, R324, R389) -/

/-- Whether a number may be named on the issuing stream; MTS may not name the pop numbers. -/
def State.sysLegal (s : State) (write : Bool) (n : Nat) : Bool :=
  match s.ctx.who with
  | .mgmt => !write && n == 0x054
  | w =>
    decide (n ≤ 0x016) || n == 0x018 || n == 0x019 || (0x020 ≤ n && n ≤ 0x022) ||
    (0x030 ≤ n && n ≤ 0x033 && w == .a && !write) || (0x040 ≤ n && n ≤ 0x047) || (0x050 ≤ n && n ≤ 0x055) ||
    (0x060 ≤ n && n ≤ 0x06F && w == .x) || (0x090 ≤ n && n ≤ 0x094) ||
    (s.inHandler && (n == 0x100 || n == 0x101 || (0x120 ≤ n && n ≤ 0x140) || (0x148 ≤ n && n ≤ 0x14F)))

/-- LPST of a stream (R181). -/
def Ctrl.lpst (k : Ctrl) : Word :=
  BitVec.ofNat 64 ((if k.rot.on then 512 + 64 * k.rot.lv else 0) + k.loops.foldl (fun acc l => acc ||| 2 ^ l.lv) 0)

/-- LPROT of a stream (R181). -/
def Ctrl.lprot (k : Ctrl) : Word :=
  BitVec.ofNat 64 (k.rot.i % 2 ^ 32 * 2 ^ 32 + k.rot.rho * 2 ^ 26 + k.rot.vb * 2 ^ 16 + k.rot.sm * 2 ^ 10 + k.rot.stages * 2 ^ 7)

/-- WIN (R150). -/
def XStream.win32 (x : XStream) : Word := BitVec.ofNat 64 (x.low * 2 ^ 32 + x.frame * 2 ^ 24 + x.base)

/-- The low eight c registers as bits. -/
def Ctrl.cBits (k : Ctrl) : Word := BitVec.ofNat 64 ((List.range 8).foldl (fun acc n => if k.cNow n then acc + 2 ^ n else acc) 0)

/-- The value of a system register on the issuing stream (R180, R181, R324). DESIGN CHOICE, log entry 49. -/
def State.sysRead (s : State) (n : Nat) : Word :=
  let c := s.me
  if n = 0x054 then BitVec.ofNat 64 s.wall
  else if n < 0x010 then sget 0#64 n c.sys.mb
  else if n < 0x016 then sget 0#64 (n - 0x010) c.sys.lvl
  else if n = 0x016 then c.sys.gpos
  else if n = 0x018 then spPointer s.ctx.core 0x1F2000
  else if n = 0x019 then c.x.win32
  else if n = 0x020 then c.sys.bwph
  else if n = 0x021 then c.sys.bwpa
  else if n = 0x022 then c.sys.spmask.setWidth 64
  else if n = 0x030 ∨ n = 0x031 then ((c.head 16 c.tick).map fun e => e.val.setWidth 64).getD 0#64
  else if n = 0x032 ∨ n = 0x033 then ((c.head 17 c.tick).map fun e => e.val.setWidth 64).getD 0#64
  else if n < 0x046 then sget 0#64 (n - 0x040) s.ctrl.lc
  else if n = 0x046 then s.ctrl.lpst
  else if n = 0x047 then s.ctrl.lprot
  else if n = 0x050 then c.sys.divp
  else if n = 0x051 then c.sys.diva
  else if n = 0x052 then c.sys.contid
  else if n = 0x053 then BitVec.ofNat 64 (if s.ctx.who = .x then s.ctx.tick else c.tick)
  else if n = 0x055 then archHash
  else if n < 0x070 then sget 0#64 (n - 0x060) c.sys.fmtt
  else if n = 0x090 then c.sys.fix.id
  else if n = 0x091 then c.sys.fix.wall
  else if n = 0x092 then c.sys.fix.tick
  else if n = 0x093 then c.sys.fix.iseq
  else if n = 0x094 then c.sys.fix.state
  else if n = 0x100 then spPointer s.ctx.core 0x1F0000
  else if n = 0x101 then Memory.word c.sp 0x1F0000
  else
    let a := c.saved.getD {}
    if n < 0x140 then if n = 0x120 then 0#64 else sget 0#64 (n - 0x120) a.x
    else if n = 0x140 then a.k.cBits
    else (sget {} (n - 0x148) a.k.b).val

/-- A write that reaches a system register of a core: the writable fields change (R113, R123, R180, R324). A number of 0x1000
or more is the hardware's own write of CLKDIV to DIVP (R177). `at_` is the landing tick of an X-stream write. A target written through HB0 to HB7 waits for no
fetch (DESIGN CHOICE, log entry 124). -/
def Core.sysWrite (c : Core) (n : Nat) (v : Word) (at_ : Option Nat) : Core :=
  let sys := c.sys
  if n = 0x1050 then
    { c with sys := { sys with
        divpLate := at_.map fun t => (t, match sys.divpLate with | some (u, w) => if u = t then w else sys.divp | none => sys.divp)
        divp := (v &&& 0xFFFF#64) ||| 0x8000000000000000#64 } }
  else if n = 0x020 then
    { c with sys := { sys with
        bwphLate := at_.map fun t => (t, match sys.bwphLate with | some (u, w) => if u = t then w else sys.bwph | none => sys.bwph)
        bwph := (v &&& 0xFFFFFFFFFF#64) ||| 0x8000000000000000#64 } }
  else if 0x010 ≤ n ∧ n < 0x016 ∧ n - 0x010 < sys.levels then
    let w := sget 0#64 (n - 0x010) sys.lvl
    if w.toNat / 2 ^ 60 = 0 then { c with sys := { sys with lvl := sset 0#64 (n - 0x010) (insertBits32 w v) sys.lvl } } else c
  else if 0x121 ≤ n ∧ n < 0x140 then
    { c with saved := c.saved.map fun a => { a with x := sset 0#64 (n - 0x120) v a.x } }
  else if n = 0x140 then
    { c with saved := c.saved.map fun a => { a with k := { a.k with c := (List.range 8).foldl (fun st k => sset [] k (if v.getLsbD k then [(0, true)] else []) st) a.k.c } } }
  else if 0x148 ≤ n ∧ n < 0x150 then
    { c with saved := c.saved.map fun a => { a with k := { a.k with b := sset {} (n - 0x148) { val := v, ready := 0, fetched := true } a.k.b } } }
  else c
where
  /-- INDEX, bits 59:32, replaced (R113). -/
  insertBits32 (w v : Word) : Word := (w &&& 0xF0000000FFFFFFFF#64) ||| (v &&& 0x0FFFFFFF00000000#64)

/-! ### Pure marks -/

/-- NOP (R185). -/
def execNop (_g : BitVec 4) (s : State) : Result := .next s

/-- TRMARK: one trace record with the tag and the issue tick when the stream is traced (R184, R350). -/
def execTrmark (g : BitVec 4) (tag : BitVec 32) (s : State) : Result :=
  .next (if s.guardB g then
    match s.ctx.who, s.me.part with
    | .x, some p => s.trace p (2 * s.ctx.core) 1 tag.toNat (BitVec.ofNat 64 s.ctx.tick)
    | .a, some p => s.trace p (2 * s.ctx.core + 1) 1 tag.toNat (BitVec.ofNat 64 s.me.tick)
    | _, _ => s
  else s)

/-- The chart clock of a core at a fix: its own when it is held; while it runs, it lags 3 ticks a hop behind the raising core of its group, or
behind its origin where the fix comes from elsewhere (R111, R354). DEDUCED, log entry 7. -/
def State.fixTick (s : State) (scope : Option Nat) (n : Nat) : Nat :=
  match s.grpAt n with
  | some g =>
    let from_ := if scope.isSome ∧ s.ctx.who = .x ∧ g.cores.contains s.ctx.core then g.hops s.ctx.core else 0
    if g.status == .running && g.clock && g.slip.isNone then (s.core n).tick + 3 * from_ - 3 * g.hops n else (s.core n).tick
  | none => (s.core n).tick

/-- Latch the fix snapshot of a core (R354). -/
def State.latch (s : State) (scope : Option Nat) (id n : Nat) : State :=
  let tick := s.fixTick scope n
  let st := match s.grpAt n with | some g => (if g.slip.isSome then 1 else 0) + (if g.status = .running then 0 else 2) | none => 0
  s.modCore n fun c => { c with sys := { c.sys with fix := {
    id := BitVec.ofNat 64 (2 ^ 63 + id), wall := BitVec.ofNat 64 s.wall, tick := BitVec.ofNat 64 tick, iseq := BitVec.ofNat 64 c.iseq,
    state := BitVec.ofNat 64 (st + if c.saved.isSome then 4 else 0) } } }

/-- The FIX records of a partition: its cores' three sources with the chart tick, then the dispatcher with 0 (R349, R350, R354). -/
def State.fixRecords (s : State) (scope : Option Nat) (id p : Nat) : State :=
  let s := (s.part p).cores.foldl (fun s c =>
    let t := BitVec.ofNat 64 (s.fixTick scope c)
    ((s.trace p (2 * c) 8 id t).trace p (2 * c + 1) 8 id t).trace p (384 + c) 8 id t) s
  s.trace p (640 + p) 8 id 0#64

/-- A fix with a scope, a partition or the package, merged into one of the last 100 ns whose scope overlaps (R353, R354). DEDUCED, log entry 23. -/
def State.raiseFix (s : State) (scope : Option Nat) : State :=
  let recent := s.fixes.filter fun f => s.wall ≤ f.1 + 100
  if recent.any fun f => f.2.isNone || scope.isNone || f.2 == scope then s
  else
    let id := (s.fixId + 1) % 65536
    let s := { s with fixId := id, fixes := (s.wall, scope) :: recent }
    match scope with
    | some p => ((s.part p).cores.foldl (fun s c => s.latch scope id c) s).fixRecords scope id p
    | none =>
      let s := (List.range 192).foldl (fun s c => s.latch scope id c) s
      let r := sset 0#64 0xC0 (BitVec.ofNat 64 s.power.refcur) s.power.regs
      let r := sset 0#64 0xD0 (BitVec.ofNat 64 id) (sset 0#64 0xC8 ((Config.power s.wall).setWidth 64) r)
      let s := { s with power := { s.power with regs := r } }
      (List.range 48).foldl (fun s p => s.fixRecords scope id p) s

/-- FIX: a fix of the issuing core's partition (R353). DEDUCED, log entry 23. -/
def execFix (g : BitVec 4) (s : State) : Result :=
  .next (if s.guardB g then
    match s.ctx.who with
    | .mgmt => s.raiseFix none
    | _ => match s.me.part with | some p => s.raiseFix (some p) | none => s
  else s)

/-! ### Branch targets, branch, call, return (R164 to R167) -/

/-- Write a b register one control cycle after issue; its target is ready 7 control cycles after issue, off the X-stream counted by the write (R164,
R166). -/
def State.putB (s : State) (bd : BitVec 3) (v : Word) : State :=
  match s.ctx.who with
  | .x => s.fly (s.op 0 1 (s.me.divisor 0) [.breg bd.toNat v (s.ctx.tick + 7 * s.me.divisor 0)])
  | _ => s.defer (.b bd.toNat v)

/-- PBR: this syllable's address plus 8·off (R164). -/
def execPbr (g : BitVec 4) (bd : BitVec 3) (off : BitVec 32) (s : State) : Result :=
  .next (if s.guardB g then s.putB bd (s.ctx.pc + (off.signExtend 64 <<< 3)) else s)

/-- PBRX (R164). -/
def execPbrx (g : BitVec 4) (bd : BitVec 3) (rs : BitVec 5) (s : State) : Result :=
  .next (if s.guardB g then s.gate (s.regsOk [rs]) fun s => s.putB bd (s.reg rs) else s)

/-- BR (R165, R167). -/
def execBr (g : BitVec 4) (bd : BitVec 3) (s : State) : Result :=
  let b := sget {} bd.toNat s.ctrl.b
  .next (if s.guardB g then s.gate (Chk.need (s.branchOk b.val) 0x05) fun s => s.leave (.goto b.val (some b)) else s)

/-- The bundle waits for window lines to move (R151, R153). -/
def State.needWindow (s : State) (lines : Nat) (fill : Bool) : State :=
  (s.modMe fun c => { c with x := { c.x with window := some (lines, fill), windowSeq := c.iseq, windowCause := 0 } }).waiting .window

/-- Lines that CALL with frame f must spill first (R151). -/
def XStream.spillLines (x : XStream) (f : Nat) : Nat := (x.base + 16 + f - x.low - 256 + 7) / 8

/-- Lines that RET must fill first (R151). -/
def XStream.fillLines (x : XStream) : Nat := (x.low - (x.base - 16) + 7) / 8

/-- CALL (R151, R165, R167): the target is read before b7 is written. -/
def execCall (g : BitVec 4) (bd fr : BitVec 3) (s : State) : Result :=
  let b := sget {} bd.toNat s.ctrl.b
  let f := 4 * fr.toNat
  .next (if s.guardB g then
    match s.ctx.who with
    | .x =>
      s.gate ((Chk.need (decide (s.me.x.base + 16 + f ≤ 6656)) 0x03).seq (Chk.need (s.branchOk b.val) 0x05)) fun s =>
        if s.me.x.spillLines f = 0 then s.leave (.call b.val b f) else s.needWindow (s.me.x.spillLines f) false
    | _ => s.gate (Chk.need (s.branchOk b.val) 0x05) fun s => s.leave (.call b.val b f)
  else s)

/-- Return address and caller's frame of a link (R152). -/
def linkAddr (w : Word) : Word := w &&& 0x00FFFFFFFFFFFFFF#64
def linkFrame (w : Word) : Nat := w.toNat / 2 ^ 56

/-- RET (R151, R165, R167): through the link on the X-stream, through b7 on the others. -/
def execRet (g : BitVec 4) (s : State) : Result :=
  .next (if s.guardB g then
    match s.ctx.who with
    | .x =>
      let t := linkAddr (sget 0#64 s.me.x.base s.me.x.links)
      s.gate ((Chk.need (s.me.x.base != 0) 0x04).seq (Chk.need (s.branchOk t) 0x05)) fun s =>
        if s.me.x.fillLines = 0 then s.leave (.ret t) else s.needWindow s.me.x.fillLines true
    | _ =>
      let t := (sget {} 7 s.ctrl.b).val
      s.gate (Chk.need (s.branchOk t) 0x05) fun s => s.leave (.ret t)
  else s)

/-- The window after CALL: positions above the caller's frame come in with unspecified contents, free values numbered from n
(R149, R151, R152). DEDUCED, log entry 35. -/
def XStream.pushFrame (x : XStream) (f : Nat) (link : Word) (n : Nat) : XStream :=
  let e0 := x.base + x.frame
  let e1 := x.base + 16 + f
  let kept := sclear e1 (e0 - e1) x.win
  let win := (List.range (e1 - e0)).foldl (fun w k => sset 0#64 (e0 + k) (Config.freeWord (n + k)) w) kept
  { x with win := win, base := x.base + 16, frame := f, links := sset 0#64 (x.base + 16) link x.links }

/-- The window after RET (R149, R151): positions beyond the callee's extent come back unspecified. DEDUCED, log entry 35. -/
def XStream.popFrame (x : XStream) (n : Nat) : XStream :=
  let fc := linkFrame (sget 0#64 x.base x.links)
  let e0 := x.base + x.frame
  let e1 := x.base - 16 + fc
  let kept := sclear e1 (e0 - e1) x.win
  let win := (List.range (e1 - e0)).foldl (fun w k => sset 0#64 (e0 + k) (Config.freeWord (n + k)) w) kept
  { x with win := win, base := x.base - 16, frame := fc, links := sset 0#64 x.base 0#64 x.links }

/-- Spill the lowest line, with its link, into bank 31 (R151, R152). -/
def Core.spillLine (c : Core) : Core :=
  let x := c.x
  let sp := (List.range 8).foldl (fun m k => Memory.store m (spillSlot (x.low + k)) (wordBytes (sget 0#64 (x.low + k) x.win))) c.sp
  let sp := if x.low % 16 = 0 then Memory.store sp (linkSlot x.low) (wordBytes (sget 0#64 x.low x.links)) else sp
  { c with sp := sp, x := { x with win := sclear x.low 8 x.win, links := sset 0#64 x.low 0#64 x.links, low := x.low + 8 } }

/-- Fill the line below LOW, with its link, from bank 31 (R151, R152). -/
def Core.fillLine (c : Core) : Core :=
  let x := c.x
  let lo := x.low - 8
  let win := (List.range 8).foldl (fun w k => sset 0#64 (lo + k) (Memory.word c.sp (spillSlot (lo + k))) w) x.win
  let links := if lo % 16 = 0 then sset 0#64 lo (Memory.word c.sp (linkSlot lo)) x.links else x.links
  { c with x := { x with win := win, links := links, low := lo } }

/-- Move n lines. DEDUCED, log entry 80. -/
def Core.moveLines (c : Core) (fill : Bool) : Nat → Core
  | 0 => c
  | n + 1 => Core.moveLines (if fill then c.fillLine else c.spillLine) fill n

/-! ### Loops (R168 to R174) -/

/-- The faults of a loop syllable at issue (R171): a body that is empty or ends before it starts, a level above an active
rotating level. -/
def State.loopChk (s : State) (lv : BitVec 3) (stop : Word) : Chk :=
  let r := s.ctrl.rot
  Chk.need (decide (s.ctx.past.toNat < stop.toNat) && !(r.on && decide (r.lv < lv.toNat))) 0x06

/-- Start a level with a trip count of n iterations: lc is written one control cycle later and the level starts at the
bundle's end (R169). DEDUCED, log entry 36. -/
def State.startLoop (s : State) (lv : BitVec 3) (stop : Word) (n : Nat) (rot : Option Rot) : State :=
  let v := BitVec.ofNat 64 n
  let s := match s.ctx.who with
    | .x => s.fly (s.op 0 1 (s.me.divisor 0) [.lcnt lv.toNat v])
    | _ => s
  s.leave (.loop lv.toNat n stop rot)

/-- The end address of a loop syllable (R168). -/
def State.loopEnd (s : State) (dist : Nat) : Word := s.ctx.pc + BitVec.ofNat 64 (8 * dist)

/-- LOOP (R168, R169). -/
def execLoop (g : BitVec 4) (lv : BitVec 3) (stop : BitVec 17) (trip : BitVec 24) (s : State) : Result :=
  let e := s.loopEnd stop.toNat
  .next (if s.guardB g then s.gate (s.loopChk lv e) fun s => s.startLoop lv e trip.toNat none else s)

/-- LOOPX (R168, R169). -/
def execLoopx (g : BitVec 4) (lv : BitVec 3) (stop : BitVec 17) (rs : BitVec 5) (s : State) : Result :=
  let e := s.loopEnd stop.toNat
  .next (if s.guardB g then s.gate ((s.regsOk [rs]).seq (s.loopChk lv e)) fun s => s.startLoop lv e (s.reg rs).toNat none else s)

/-- Start a rotating level: n + s - 1 kernel iterations when n is at least 1 (R172, R174); off the X-stream it renames nothing
and vb and sm must be zero. -/
def State.startRot (s : State) (lv : BitVec 3) (stop : Word) (stg : BitVec 3) (vb : BitVec 10) (sm : BitVec 6) (n : Nat) : State :=
  if n = 0 then s.startLoop lv stop 0 none
  else s.startLoop lv stop (n + stg.toNat - 1)
    (some { on := true, lv := lv.toNat, i := 0, rho := 0, vb := vb.toNat, sm := sm.toNat, stages := stg.toNat, trip := n })

/-- Whether LOOP.R's fields are an instruction on the issuing stream (R174, R51). -/
def State.rotLegal (s : State) (vb : BitVec 10) (sm : BitVec 6) : Bool := s.ctx.who == .x || (vb == 0#10 && sm == 0#6)

/-- LOOP.R (R168, R172). -/
def execLoopR (g : BitVec 4) (lv : BitVec 3) (stop : BitVec 12) (stg : BitVec 3) (vb : BitVec 10) (sm : BitVec 6) (trip : BitVec 10)
    (s : State) : Result :=
  let e := s.loopEnd stop.toNat
  .next (if !s.rotLegal vb sm then s.raise { cause := 0x01 }
    else if s.guardB g then s.gate (s.loopChk lv e) fun s => s.startRot lv e stg vb sm trip.toNat else s)

/-- LOOPX.R: also LOOP-FORM when n + s - 1 reaches 2^32 (R171, R172). -/
def execLoopxR (g : BitVec 4) (lv : BitVec 3) (stop : BitVec 12) (stg : BitVec 3) (vb : BitVec 10) (sm : BitVec 6) (rs : BitVec 5)
    (s : State) : Result :=
  let e := s.loopEnd stop.toNat
  .next (if !s.rotLegal vb sm then s.raise { cause := 0x01 }
    else if s.guardB g then
      s.gate (((s.regsOk [rs]).seq (s.loopChk lv e)).seq (Chk.need (decide ((s.reg rs).toNat + stg.toNat - 1 < 2 ^ 32)) 0x06)) fun s =>
        s.startRot lv e stg vb sm (s.reg rs).toNat
    else s)

/-- LEXIT: nothing when the level is inactive; else lc is 0 one control cycle later and issue goes on at its end (R170). DEDUCED, log entry 36. -/
def execLexit (g : BitVec 4) (lv : BitVec 3) (s : State) : Result :=
  .next (if s.guardB g && s.ctrl.loops.any (fun l => l.lv == lv.toNat) then
    let s := match s.ctx.who with
      | .x => s.fly (s.op 0 1 (s.me.divisor 0) [.lcnt lv.toNat 0#64])
      | _ => s
    s.leave (.lexit lv.toNat)
  else s)

/-! ### Alignment, contours, divisors, waits -/

/-- ALIGN (R110): the bundle takes its numbers and waits; it has arrived once every earlier X-stream operation has landed or
retired, and issues once the pulse has started the clock. -/
def execAlign (_g : BitVec 4) (s : State) : Result :=
  .next (
    if s.me.x.aligned then s.leave .align
    else (s.modMe fun c => { c with x := { c.x with align := some (c.x.align.getD (s.ctx.first, s.ctx.iseq)), alignWord := s.ctx.word } }).waiting .align)

/-- CONTOUR: passed at the issue tick, with its effects at the bundle's end, after every syllable has used the old divisors
(R176, R178). -/
def execContour (g : BitVec 4) (id : BitVec 16) (s : State) : Result :=
  .next (if s.guardB g then s.leave (.contour id.toNat) else s)

/-- Divisor fields raised to a floor, field by field (R177, R375). -/
def raiseDiv (v floor : Word) : Word :=
  BitVec.ofNat 64 ((List.range 4).foldl (fun acc i => acc + max (v.toNat / 16 ^ i % 16) (floor.toNat / 16 ^ i % 16) * 16 ^ i) 0)

/-- What a contour takes from a register that X-stream landings of its own tick may have just written (R124, R177): the value
to apply when it is pending, and the register afterwards. DEDUCED, log entry 19. -/
def contourTake (late : Option (Nat × Word)) (cur : Word) (t : Nat) : Option Word × Word :=
  let clear (w : Word) : Word := w &&& 0x7FFFFFFFFFFFFFFF#64
  match late with
  | some (u, old) =>
    if u = t then (if old.getLsbD 63 then some (clear old) else none, cur)
    else (if cur.getLsbD 63 then some (clear cur) else none, clear cur)
  | none => (if cur.getLsbD 63 then some (clear cur) else none, clear cur)

/-- A bank under a new hot mask: PIN follows the mask, and a named WARM bank starts to wake (R124, R125). -/
def Bank.phase (b : Bank) (owner : Nat) (hot : Bool) : Bank :=
  if b.owner = owner then { b with pin := hot, st := if hot && b.st == 1 then 3 else b.st } else b

/-- A contour of a core at a tick (R124, R176, R177). DEDUCED, log entry 19. -/
def Core.contour (c : Core) (t : Nat) (id : Nat) (floor : Word) : Core :=
  let (bw, bwph) := contourTake c.sys.bwphLate c.sys.bwph t
  let (dv, divp) := contourTake c.sys.divpLate c.sys.divp t
  let sys := { c.sys with
    bwph := bwph
    divp := divp
    bwpa := bw.getD c.sys.bwpa
    diva := (dv.map fun d => raiseDiv d floor).getD c.sys.diva
    contid := BitVec.ofNat 64 id }
  let banks := match bw with
    | none => c.banks
    | some v => (List.range 31).foldl (fun bs b => sset {} b ((sget {} b bs).phase c.owner (v.getLsbD b)) bs) c.banks
  { c with sys := sys, banks := banks }

/-- What a core has fetched ahead is fetched anew: a patch is seen no later than the next contour (R26). -/
def Core.refetch (c : Core) : Core :=
  { c with x := { c.x with k := { c.x.k with fetched := [] } }, a := { c.a with k := { c.a.k with fetched := [] } } }

/-- A contour in the device: the core's own effects, its trace record, and the conditions for the reference frequency and the
rails (R176, R350, R374, R376). -/
def State.contourAt (s : State) (n t id : Nat) : State :=
  -- FUSEDIV 0x0100 (R373) and the floors of autopilot (R381)
  let s := s.modCore n fun c => (c.contour t id (raiseDiv 0x0100#64 (sget 0#64 n s.power.floors))).refetch
  let s := match (s.core n).part with | some p => s.trace p (2 * n) 4 id (BitVec.ofNat 64 t) | none => s
  match s.grpAt n with
  | none => s
  | some g =>
    let s := s.setGrp { g with passed := if g.passed.contains n then g.passed else n :: g.passed }
    { s with power := { s.power with railPassed := if s.power.railPassed.contains (g.num, n) then s.power.railPassed else (g.num, n) :: s.power.railPassed } }

/-- WAIT (R179). -/
def execWait (g : BitVec 4) (n : BitVec 24) (s : State) : Result := .next (if s.guardB g then s.leave (.wait n.toNat) else s)

/-- CLKDIV (R177): DIVP one control cycle after issue. -/
def execClkdiv (g : BitVec 4) (rs : BitVec 5) (s : State) : Result :=
  .next (if s.guardB g then s.gate (s.regsOk [rs]) fun s => s.fly (s.op 0 1 (s.me.divisor 0) [.sys 0x1050 (s.reg rs)]) else s)

/-- The check of an access-queue pop by MFS (R138, R140): strict pops underflow, the W forms wait. -/
def State.aqChk (s : State) (n : Nat) : Chk :=
  if 0x030 ≤ n ∧ n ≤ 0x033 ∧ (s.me.head (16 + (n - 0x030) / 2) s.me.tick).isNone then
    if n % 2 = 0 then .fault { cause := 0x08 } else .waits (.pop (16 + (n - 0x030) / 2))
  else .ok

/-- MFS (R140, R180, R181). -/
def execMfs (g : BitVec 4) (rd : BitVec 5) (sys : BitVec 12) (s : State) : Result :=
  let n := sys.toNat
  .next (if !s.sysLegal false n then s.raise { cause := 0x01 }
    else if s.guardB g then
      s.gate ((s.regsOk [rd]).seq (s.aqChk n)) fun s =>
        let v := s.sysRead n
        let s := if 0x030 ≤ n ∧ n ≤ 0x033 then s.modMe fun c => c.pop (16 + (n - 0x030) / 2) else s
        s.putReg 1 rd v
    else s)

/-- MTS (R180, R181). -/
def execMts (g : BitVec 4) (rs : BitVec 5) (sys : BitVec 12) (s : State) : Result :=
  let n := sys.toNat
  .next (if !s.sysLegal true n then s.raise { cause := 0x01 }
    else if s.guardB g then
      s.gate (s.regsOk [rs]) fun s =>
        match s.ctx.who with
        | .x => s.fly (s.op 0 1 (s.me.divisor 0) [.sys n (s.reg rs)])
        | _ => s.defer (.sys n (s.reg rs))
    else s)

/-! ### Ends and traps (R182, R183) -/

/-- Whether an access or a command of an earlier bundle of the access core has not retired. -/
def State.unretired (s : State) : Bool :=
  (s.me.aops.any fun o => seqBefore o.iseq s.ctx.first) || s.me.cmds.any fun m => seqBefore m.iseq s.ctx.first

/-- EXIT (R182); ILLEGAL-ENCODING in handler mode (R323). On an A-stream it waits for what is unretired (R338, R363). -/
def execExit (g : BitVec 4) (s : State) : Result :=
  .next (if s.inHandler then s.raise { cause := 0x01 }
    else if s.guardB g then if s.ctx.who = .a ∧ s.unretired then s.waiting .ops else s.leave .exit
    else s)

/-- TRAP (R183): the core stops at the next bundle boundary. DEDUCED, log entry 32. -/
def execTrap (g : BitVec 4) (code : BitVec 16) (s : State) : Result :=
  .next (if s.guardB g then s.leave (.stop 0x40 code.toNat s.ctx.pc) else s)

/-- BKPT (R183). DEDUCED, log entry 32. -/
def execBkpt (g : BitVec 4) (code : BitVec 16) (s : State) : Result :=
  .next (if s.guardB g then s.leave (.stop 0x41 code.toNat s.ctx.pc) else s)

end Sys2Proof.Machine
end

