-- ==== Sys2Proof/Machine/Translate.lean ====
section
/-! DEFINITION. Addresses: the spaces of a tagged pointer (R252 to R254), the walk of the page tables and the translation caches
(R255, R256), page counters (R261), the checks of R262 and the bytes of this device's own shared window. -/

namespace Sys2Proof.Machine

/-! ### The fields of a tagged pointer (R252) -/

def vaOf (p : Word) : Nat := p.toNat % 2 ^ 48
/-- The core a space-1 pointer names (R2, R252). -/
def spCore (p : Word) : Nat := 8 * (p.toNat / 2 ^ 55 % 32) + p.toNat / 2 ^ 52 % 8
def spOff (p : Word) : Nat := p.toNat % 2 ^ 22
def peerNode (p : Word) : Nat := p.toNat / 2 ^ 50 % 1024
def peerOff (p : Word) : Nat := p.toNat % 2 ^ 50

/-- How a syllable reaches space 1 (R253): an access of the access core, a destination or a source of a command. -/
inductive Reach where
  | access
  | dest
  | source
deriving DecidableEq, Repr

/-- Check 1 of R262 for one pointer of a core (R252, R253). -/
def State.spaceOk (s : State) (c : Nat) (reach : Reach) (p : Word) : Bool :=
  match spaceOf p with
  | 0 => p.toNat / 2 ^ 48 % 2 ^ 12 == 0
  | 1 =>
    p.toNat / 2 ^ 22 % 2 ^ 30 == 0 && decide (p.toNat / 2 ^ 55 % 32 < 24) &&
    (if spOff p < 0x200000 then reach != .access || coreCluster (spCore p) == coreCluster c
     else decide (spOff p < 0x280000) && reach == .dest && spCore p == c)
  | 2 =>
    (match (s.core c).part with
      | some pn => (s.part pn).peers.any fun e => e.1 == peerNode p
      | none => false)
  | _ => false

/-! ### The walk (R255) -/

/-- How a walk ends: a leaf with the physical base of its page, the page's log2 size and the entry; or a fault. -/
inductive Walk where
  | leaf (pa sh : Nat) (entry : Word)
  | fault (cause : Nat)
deriving DecidableEq, Repr

/-- The levels from the root: level, shift and table size. -/
def walkLevels : List (Nat × Nat × Nat) := [(3, 39, 512), (2, 30, 512), (1, 21, 512), (0, 16, 32)]

/-- The physical address in an entry's ADDR field. -/
def pteAddr (e : Word) : Nat := e.toNat % 2 ^ 48 / 256 * 256

/-- A walk from a table down. -/
def State.walkFrom (s : State) (va table : Nat) : List (Nat × Nat × Nat) → Walk
  | [] => .fault 0x17
  | (lv, sh, n) :: rest =>
    let at_ := table + 8 * (va / 2 ^ sh % n)
    if s.readBad (.hbm at_) 8 then .fault 0x20
    else
      let e := Memory.word s.hbm at_
      let a := pteAddr e
      if !e.getLsbD 63 || e.toNat / 2 ^ 48 % 2 ^ 12 != 0 || e.toNat % 256 != 0 || 2 ^ 39 ≤ a then .fault 0x17
      else if e.getLsbD 62 then if lv = 3 ∨ a % 2 ^ sh ≠ 0 then .fault 0x17 else .leaf a sh e
      else if lv = 0 ∨ a % (if lv = 1 then 256 else 4096) ≠ 0 then .fault 0x17
      else State.walkFrom s va a rest

/-- Whether a walk from a table down reads an entry in a channel that is being copied (R400). -/
def State.walkCopied (s : State) (va table : Nat) : List (Nat × Nat × Nat) → Bool
  | [] => false
  | (lv, sh, n) :: rest =>
    let at_ := table + 8 * (va / 2 ^ sh % n)
    let e := Memory.word s.hbm at_
    s.copied (.hbm at_) 8 || (e.getLsbD 63 && !e.getLsbD 62 && lv != 0 && State.walkCopied s va (pteAddr e) rest)

/-- Whether the walk of a partition's tables for an address waits (R400). -/
def State.mapCopied (s : State) (pn va : Nat) : Bool :=
  s.copying != [] && s.walkCopied va (((s.part pn).reg 0x400).toNat % 2 ^ 39 / 4096 * 4096) walkLevels

/-- A walk of a partition's tables; a PTROOT of 0 faults (R258). -/
def State.walk (s : State) (pn va : Nat) : Walk :=
  let root := ((s.part pn).reg 0x400).toNat % 2 ^ 39 / 4096 * 4096
  if root = 0 then .fault 0x17 else s.walkFrom va root walkLevels

/-- The cached leaf of a core that maps an address (R256). -/
def Core.cached (c : Core) (va : Nat) : Option Leaf := c.cache.find? fun l => va / 2 ^ l.size == l.vpn

/-- The object whose image holds an address (R12, R21). DESIGN CHOICE, log entry 31. -/
def Part.objAt (p : Part) (va : Nat) : Option Obj :=
  p.objs.find? fun o => decide (o.base.toNat ≤ va) && decide (va < o.base.toNat + (o.size + 65535) / 65536 * 65536)

/-- Whether an address lies on the pages of an object's `.data` section (R11, R21). DESIGN CHOICE, log entry 31. -/
def Obj.dataPage (o : Obj) (va : Nat) : Bool :=
  let k := va - o.base.toNat
  o.secs.any fun s => s.1 == 4 && decide (s.2.1 / 65536 ≤ k / 65536) && decide (k / 65536 ≤ (s.2.1 + s.2.2 - 1) / 65536) && s.2.2 != 0

/-- Whether an address lies in the code region outside every object's `.data` pages, where no program may write (R21, R262). -/
def Part.readOnly (p : Part) (va : Nat) : Bool := match p.objAt va with | some o => !o.dataPage va | none => false

/-- The level-0 entry for an address, when the tables lead to one. -/
def State.entryFrom (s : State) (va table : Nat) : List (Nat × Nat × Nat) → Option Nat
  | [] => none
  | (lv, sh, n) :: rest =>
    let at_ := table + 8 * (va / 2 ^ sh % n)
    let e := Memory.word s.hbm at_
    if lv = 0 then some at_
    else if e.getLsbD 63 && !e.getLsbD 62 && decide (pteAddr e < 2 ^ 39) then State.entryFrom s va (pteAddr e) rest
    else none

/-- The entry that maps a page of an object's image: read and execute, and write on the pages of `.data` (R21, R255). -/
def Obj.entry (o : Obj) (k : Nat) : Word :=
  BitVec.ofNat 64 (2 ^ 63 + 2 ^ 62 + (if o.dataPage (o.base.toNat + 65536 * k) then 2 ^ 61 else 0) + (o.pa + 65536 * k) % 2 ^ 48)

/-- Map or unmap an object's image in its partition's tables, at every page for which they have a level-0 entry (R20, R23). DESIGN CHOICE, log entry 31. -/
def State.mapImage (s : State) (pn : Nat) (o : Obj) (on : Bool) : State :=
  let root := ((s.part pn).reg 0x400).toNat % 2 ^ 39 / 4096 * 4096
  (List.range ((o.size + 65535) / 65536)).foldl (fun s k =>
    match (if root = 0 then none else s.entryFrom ((o.base.toNat + 65536 * k) % 2 ^ 48) root walkLevels) with
    | some a => s.storeHbm a (wordBytes (if on then o.entry k else 0#64))
    | none => s) s

/-- What checks 3 to 5 give: a place, and the leaf that a walk found. -/
structure Hit where
  place : Place
  leaf : Option Leaf
deriving DecidableEq, Repr

/-- Whether an entry allows an access to an address (R262, check 4). -/
def Part.allows (p : Part) (e : Word) (va : Nat) (write raw : Bool) : Bool := (!write || (e.getLsbD 61 && !p.readOnly va)) && !(raw && e.getLsbD 60)

/-- Checks 3 and 4 for a space-0 address of a partition (R255, R262): through a cached leaf or a walk. `raw` is false through a handle. -/
def State.mapVa (s : State) (pn : Nat) (cache : Option Leaf) (va : Nat) (write raw : Bool) : Except Nat Hit :=
  let p := s.part pn
  match cache with
  | some l => if p.allows l.entry va write raw then .ok { place := .hbm (pteAddr l.entry + va % 2 ^ l.size), leaf := none } else .error 0x18
  | none =>
    match s.walk pn va with
    | .fault k => .error k
    | .leaf a sh e =>
      if p.allows e va write raw then .ok { place := .hbm (a + va % 2 ^ sh), leaf := some { vpn := va / 2 ^ sh, size := sh, entry := e, stamp := s.stamp } }
      else .error 0x18

/-- Checks 3 to 5 of R262 for n bytes at a pointer of a core, which do not cross a page, a bank or a slot. -/
def State.resolve (s : State) (c : Nat) (p : Word) (n : Nat) (write raw : Bool) : Except Nat Hit :=
  match (s.core c).part with
  | none => .error 0x17
  | some pn =>
    match spaceOf p with
    | 0 => s.mapVa pn ((s.core c).cached (vaOf p)) (vaOf p) write raw
    | 1 =>
      if 0x200000 ≤ spOff p then .ok { place := .slot ((spOff p - 0x200000) / 8192) (spOff p % 8192), leaf := none }
      else
        if (s.core (spCore p)).bankOwner (spOff p / 65536) = (s.core c).owner then .ok { place := .sp (spCore p) (spOff p), leaf := none } else .error 0x19
    | _ =>
      match (s.part pn).peers.find? fun e => e.1 == peerNode p with
      | some e => if peerOff p + n ≤ e.2 then .ok { place := .peer (peerNode p) (peerOff p), leaf := none } else .error 0x17
      | none => .error 0x17

/-- Whether the translation of a pointer of a core waits for the copy of a channel that holds a table (R400). -/
def State.resolveCopied (s : State) (c : Nat) (p : Word) : Bool :=
  s.copying != [] && spaceOf p == 0 && ((s.core c).cached (vaOf p)).isNone && match (s.core c).part with | some pn => s.mapCopied pn (vaOf p) | none => false

/-- Keep a leaf that a walk found in the core's cache (R256). DEDUCED, log entry 40. -/
def State.keepLeaf (s : State) (c : Nat) (h : Hit) : State :=
  match h.leaf with
  | none => s
  | some l => { s.modCore c fun k => { k with cache := l :: k.cache } with stamp := s.stamp + 1 }

/-! ### Page counters (R261) -/

/-- Add to a sticking 32-bit count of memory. -/
def Memory.bump (m : Memory) (a n : Nat) : Memory := Memory.store m a (leBytes 4 (min (Memory.le m a 4 + n) (2 ^ 32 - 1)))

/-- One translation's counts for the page of a place: reads, writes, arriving peer accesses. A counter in a channel that is being copied can be read only once
the copy has ended (R400), so its counts stand at once. DEDUCED, log entry 86. -/
def State.countPage (s : State) (pn : Nat) (p : Place) (rd wr remote : Nat) : State :=
  match p with
  | .hbm a =>
    if s.balore.pcbase.getLsbD 0 then
      let e := s.balore.pcbase.toNat % 2 ^ 39 / 2 ^ 27 * 2 ^ 27 + 16 * (a / 65536)
      let m := if rd = 0 then s.hbm else Memory.bump s.hbm e rd
      let m := if wr = 0 then m else Memory.bump m (e + 4) wr
      let m := if remote = 0 then m else Memory.bump m (e + 8) remote
      { s with hbm := Memory.write m (e + 12) (BitVec.ofNat 8 pn) }
    else s
  | _ => s

/-- The counts of every page that n bytes at a place reach (R261). -/
def State.countPages (s : State) (pn : Nat) (p : Place) (n rd wr remote : Nat) : State :=
  match p with
  | .hbm a => (List.range ((a + n - 1) / 65536 - a / 65536 + 1)).foldl (fun s k => s.countPage pn (.hbm (65536 * (a / 65536 + k))) rd wr remote) s
  | _ => s

/-! ### The device's own shared window (R254) -/

/-- Where an access of a partition lands: a space-2 access to the device's own node reaches its own shared window. -/
def State.landsAt (s : State) (pn : Nat) (p : Place) : Place :=
  match p with
  | .peer k o => if k = Config.nodeId.toNat then .hbm ((s.part pn).windowBase + o) else p
  | p => p

end Sys2Proof.Machine
end

