-- ==== Sys2Proof/Machine/Debug.lean ====
section
/-! DEFINITION. Watching (R341 to R348, R353, R355, R356): breakpoint matching, watchpoints and their reports, conflict snapshots at
loop exits, and the fixes that come from outside a core. -/

namespace Sys2Proof.Machine

/-! ### Breakpoints (R342, R343) -/

/-- Whether breakpoint n of a partition matches a bundle, given as address, word and guard of each syllable. -/
def Part.bpHit (p : Part) (n : Nat) (astream : Bool) (ctx : Nat) (syls : List (Word × Word × Bool)) : Bool :=
  let a := p.reg (0x500 + 16 * n)
  let c := p.reg (0x508 + 16 * n)
  c.getLsbD 63 && c.getLsbD 62 == astream &&
  (let want := c.toNat / 2 ^ 16 % 2 ^ 24
   want == 0 || want == ctx) &&
  syls.any fun s =>
    (!c.getLsbD 60 || s.2.2) &&
    (if c.getLsbD 61 then
      a.toNat / 256 % 8 == classOf s.2.1 && (classOf s.2.1 == 1 || a.toNat % 256 == opcodeOf s.2.1)
    else a == s.1)

/-- The breakpoints of a partition over a bundle: a match with COUNT above 0 counts down; the lowest match with COUNT 0 stops. -/
def Part.breakpoints (p : Part) (astream : Bool) (ctx : Nat) (syls : List (Word × Word × Bool)) : Part × Option Nat :=
  let hits := (List.range 8).filter fun n => p.bpHit n astream ctx syls
  let count (n : Nat) : Nat := (p.reg (0x508 + 16 * n)).toNat % 65536
  ((hits.filter fun n => count n != 0).foldl (fun q n => q.setReg (0x508 + 16 * n) (q.reg (0x508 + 16 * n) - 1#64)) p,
    hits.find? fun n => count n == 0)

/-! ### Watchpoints (R344 to R347) -/

/-- What an access does, as WPCTL and a report count it. -/
inductive WatchKind where
  | read
  | write
  | atomic
deriving DecidableEq, Repr

/-- WPCTL's enable bit and the report's bit of a kind. -/
def WatchKind.enable : WatchKind → Nat
  | .read => 62
  | .write => 61
  | .atomic => 60
def WatchKind.bit : WatchKind → Nat
  | .read => 1
  | .write => 2
  | .atomic => 4

/-- Bytes i of an access of n bytes at a place that watchpoint k of a partition watches over the range that EN fixed (R344, R345). -/
def Part.watched (p : Part) (k : Nat) (base : Place) (len : Nat) (place : Place) (n : Nat) : List Nat :=
  let c := p.reg (0x588 + 16 * k)
  (List.range n).filter fun i => (place.plus i).overlaps 1 base len && c.getLsbD (32 + (place.offset + i) % 16)

/-- A match: the watchpoints hit as a bit mask and the first watched byte touched. The place of a slot or of a scratchpad names its
core; slots of a core are watched under its number (`owner`). -/
def State.watchHit (s : State) (pn : Nat) (kind : WatchKind) (place : Place) (n : Nat) : Option (Nat × Nat) :=
  let p := s.part pn
  let hits := p.armed.filterMap fun w =>
    if (p.reg (0x588 + 16 * w.1)).getLsbD kind.enable then
      match p.watched w.1 w.2.1 w.2.2 place n with
      | [] => none
      | i :: _ => some (w.1, i)
    else none
  match hits with
  | [] => none
  | h :: t => some ((h :: t).foldl (fun m w => m ||| 2 ^ w.1) 0, t.foldl (fun a w => min a w.2) h.2)

/-- The bytes of a watch report (R347). -/
def reportBytes (kind mask bits engine node core : Nat) (addr info : Word) (wall : Nat) : Bytes :=
  [BitVec.ofNat 8 kind, BitVec.ofNat 8 mask, BitVec.ofNat 8 bits, BitVec.ofNat 8 engine] ++ leBytes 2 node ++ leBytes 2 core ++
    wordBytes addr ++ wordBytes info ++ leBytes 8 wall

/-- Write a report into the ring; a full ring or a base of 0 drops it (R341). -/
def State.report (s : State) (pn : Nat) (r : Bytes) : State :=
  let p := s.part pn
  let base := (p.reg 0x600).toNat % 2 ^ 39
  let head := p.idx 0x608
  if base = 0 ∨ (head + 2 ^ 32 - p.idx 0x610) % 2 ^ 32 ≥ 128 then s
  else
    (s.setPart pn (p.setReg 0x608 (BitVec.ofNat 64 ((head + 1) % 2 ^ 32)))).storeHbm (base + 32 * (head % 128)) r

/-- Where the watched range of a base stands in physical terms, or nothing when it cannot be armed (R344). -/
def State.armPlace (s : State) (pn : Nat) (base : Word) (len : Nat) : Option Place :=
  if base.toNat % 16 ≠ 0 ∨ base.toNat / 65536 ≠ (base.toNat + len - 1) / 65536 then none
  else match spaceOf base with
    | 0 =>
      if base.toNat / 2 ^ 48 ≠ 0 then none
      else match s.mapVa pn none (vaOf base) false false with
        | .ok h => some h.place
        | .error _ => none
    | 1 =>
      if base.toNat / 2 ^ 22 % 2 ^ 30 ≠ 0 ∨ 24 ≤ base.toNat / 2 ^ 55 % 32 ∨ 0x280000 ≤ spOff base then none
      else some (.sp (spCore base) (spOff base))
    | _ => none

/-- A write of WPCTL (R344): ERR is cleared by a 1; EN going from 0 to 1 checks the range and fixes it; EN at 0 frees it. -/
def State.writeWpctl (s : State) (pn n : Nat) (v : Word) : State :=
  let p := s.part pn
  let off := 0x588 + 16 * n
  let old := p.reg off
  let err := if v.getLsbD 0 then 0#64 else old &&& 1#64
  let v := v &&& 0xF000FFFF000001FE#64
  if v.getLsbD 63 && !old.getLsbD 63 then
    let len := 16 * (v.toNat / 2 % 256 + 1)
    match s.armPlace pn (p.reg (0x580 + 16 * n)) len with
    | some pl => s.setPart pn { p.setReg off (v ||| err) with armed := (n, pl, len) :: p.armed.filter fun w => w.1 != n }
    | none => s.setPart pn (p.setReg off ((v &&& 0x7FFFFFFFFFFFFFFF#64) ||| 1#64))
  else if v.getLsbD 63 then s.setPart pn (p.setReg off (v ||| err))
  else s.setPart pn { p.setReg off (v ||| err) with armed := p.armed.filter fun w => w.1 != n }

/-- WATCHPOINT_ARM: a write of WPCTLn (R344). -/
def execWatchpointArm (part n : Nat) (ctl : Word) (s : State) : Result := .next (if n < 8 then s.writeWpctl part n ctl else s)

/-- PEER_WATCH_REPORT: the oldest peer report that waits is written (R346). -/
def execPeerWatchReport (part : Nat) (s : State) : Result :=
  .next (match (s.part part).peerReports with
    | [] => s
    | r :: t => (s.setPart part { s.part part with peerReports := t }).report part r)

/-! ### Conflict snapshots (R355, R356) -/

/-- A loop level's exit on a stream of a core: one entry in the conflict ring when it is selected, then the counts are cleared (R355, R356). DESIGN CHOICE, log entry 49. -/
def State.loopExit (s : State) (core : Nat) (astream : Bool) (lv : Nat) (stop : Word) : State :=
  match (s.core core).part with
  | none => s
  | some pn =>
    let p := s.part pn
    let ctl := p.reg 0x668
    let base := (p.reg 0x660).toNat % 2 ^ 39
    let ht := (p.reg 0x670).toNat
    if ctl.getLsbD 63 && ctl.getLsbD 62 == astream && ctl.getLsbD lv && base != 0 then
      if (ht % 2 ^ 32 + 2 ^ 32 - ht / 2 ^ 32) % 2 ^ 32 ≥ 128 then s
      else
        let c := s.core core
        let counts := (List.range 192).flatMap fun k => leBytes 2 (Config.lostCycles core k c.sys.cleared s.wall).toNat
        let e := leBytes 2 core ++ [BitVec.ofNat 8 lv, if astream then 1#8 else 0#8] ++ leBytes 4 c.owner ++ wordBytes stop ++
          leBytes 8 c.tick ++ leBytes 8 s.wall ++ List.replicate 32 0#8 ++ counts ++ List.replicate 64 0#8
        let s := s.setPart pn (p.setReg 0x670 (BitVec.ofNat 64 (ht / 2 ^ 32 * 2 ^ 32 + (ht + 1) % 2 ^ 32)))
        (s.modCore core fun c => { c with sys := { c.sys with cleared := s.wall } }).storeHbm (base + 512 * (ht % 128)) e
    else s

/-! ### Fixes from outside (R353) -/

/-- FIX_COMMAND: a fix of the package. -/
def execFixCommand (s : State) : Result := .next (s.raiseFix none)

/-- FIXIN_EDGE: a fix of the package. -/
def execFixinEdge (s : State) : Result := .next (s.raiseFix none)

end Sys2Proof.Machine
end

