-- ==== Sys2Proof/Machine/Survey.lean ====
section
/-! DEFINITION. Editing and reissuing the survey (R325 to R330): validity (R327), SVCHK, RESUME, what the edited records make of the
operations in flight, and the delivery of a stop to handlers (R322, R323). -/

namespace Sys2Proof.Machine

/-! ### Reading records (R315, R318 to R321) -/

/-- Record i of a core's survey as it stands in bank 31. -/
def Core.recAt (c : Core) (i : Nat) : List Word := (List.range 8).map fun k => Memory.word c.sp (0x1F0100 + 64 * i + 8 * k)

/-- Records 0 to n-1. -/
def Core.survey (c : Core) (n : Nat) : List (List Word) := (List.range n).map c.recAt

def recWord (r : List Word) (k : Nat) : Word := r.getD k 0#64
def recRst (r : List Word) : Bool := (recWord r 1).getLsbD 55
def recIdm (r : List Word) : Bool := (recWord r 1).getLsbD 54
def recFh (r : List Word) : Bool := (recWord r 1).getLsbD 53
def recHalf (r : List Word) : Bool := (recWord r 1).getLsbD 44
def recFar (r : List Word) : Bool := (recWord r 7).getLsbD 56

/-- Whether two records are one (R327): ISEQ, ENGINE, KIND and the twin half. -/
def sameRec (a b : List Word) : Bool :=
  recIseq a == recIseq b && recEngine a == recEngine b && recKind a == recKind b && recHalf a == recHalf b

/-- The place of a record in the survey as written. -/
def placeIn (written : List (List Word)) (r : List Word) : Option Nat := written.findIdx? (sameRec r)

/-! ### Validity (R327) -/

/-- The engines that a kind allows (R321). -/
def kindEngine (kind engine : Nat) : Bool :=
  match kind with
  | 1 => engine == 0 || engine == 2 || engine == 3 || engine == 4
  | 2 => engine == 2 || engine == 3 || engine == 4
  | 3 => engine == 3
  | 4 => engine == 1
  | 5 => engine == 1
  | 6 => engine == 1
  | 7 => engine == 5
  | 8 => engine == 0
  | 9 => engine == 6
  | 10 => engine == 7
  | 11 => engine == 3
  | 12 => engine == 5
  | 13 => engine == 1
  | 14 => engine == 3
  | _ => false

/-- Code 2: a reserved kind, an engine the kind does not allow, a reserved bit. -/
def badKind (r : List Word) : Bool :=
  !kindEngine (recKind r) (recEngine r) || (recWord r 1).toNat / 2 ^ 48 % 8 != 0 || (recWord r 7).toNat / 2 ^ 57 != 0

/-- Code 4: an original record that differs from the one written where R325 allows no edit. -/
def badEdit (old r : List Word) : Bool :=
  let k := recKind old
  let free := (k == 4 || k == 6 || k == 7) && (recRst old || recFh old)
  let same (i : Nat) : Bool := recWord old i == recWord r i
  !(same 0 && same 1 && same 7) ||
  !(free || ((k == 3 && recFh old) || same 2) && same 3 && same 4 && same 5) ||
  !(same 6 || (recIdm old && recWord r 6 == 0#64))

/-- The word 0 that an inserted record may carry (R327, code 8). -/
def insertOk (r : List Word) : Bool :=
  let w := recWord r 0
  let m := sBit w && idleOf w == 0 && guardOf w == 15#4
  match decode w, recKind r with
  | .ok (.lgb _ w dl _ _ _ t _), 11 => m && w == 0#1 && dl == 0#12 && t == 0#2
  | .ok (.lgbc _ w dl _ _ _ t _), 11 => m && w == 0#1 && dl == 0#12 && t == 0#2
  | .ok (.lgload ..), 11 => m
  | .ok (.copy _ _ _ _ _ _ _ t _), 12 => t == 0#2
  | .ok (.pref ..), 13 => true
  | _, _ => false

/-- Places named by DEP bits of a record at a place: for each bit k, k + 1 places earlier (R320). -/
def depPlaces (r : List Word) : List Nat := (List.range 56).filter fun k => (recWord r 7).getLsbD k

/-- Code 6 for a record at position i: an unticked record that stands before one it depends on, or names a deleted one. -/
def badDep (written rs : List (List Word)) (i : Nat) (r : List Word) : Bool :=
  if ticked (recKind r) || recIseq r = 0 then false
  else match placeIn written r with
    | none => false
    | some p =>
      let pos (q : Nat) : Option Nat := rs.findIdx? (sameRec (written.getD q []))
      let after (q : Nat) : Bool := match pos q with | some j => decide (i < j) | none => false
      (depPlaces r).any (fun k => decide (p ≤ k) || (pos (p - (k + 1))).isNone || after (p - (k + 1))) ||
      (recFar r && (List.range p).any fun q => !ticked (recKind (written.getD q [])) && after q)

/-- Code 7 for an inserted record at position i. -/
def badInsert (rs : List (List Word)) (i : Nat) (r : List Word) : Bool :=
  let k := recKind r
  let flags := if k = 11 then 0x80 else 0xC0
  recIseq r == 0 &&
  (!(k == 11 || k == 12 || k == 13) || (recWord r 1).toNat / 2 ^ 48 % 256 != flags || (recWord r 1).toNat % 2 ^ 48 != 0 ||
    (depPlaces r).any fun d => decide (i ≤ d) || ticked (recKind (rs.getD (i - (d + 1)) [])))

/-- The result code and position of the first offending record (R327); (0, 0) when the survey is valid. DEDUCED, log entry 41. -/
def surveyCode (written rs : List (List Word)) (n : Nat) : Nat × Nat :=
  if 96 < n then (1, 96)
  else
    let orig (r : List Word) : Bool := recIseq r != 0
    let at_ (f : Nat → List Word → Bool) : Option Nat := (rs.zipIdx.find? fun e => f e.2 e.1).map (·.2)
    let checks : List (Nat × (Nat → List Word → Bool)) :=
      [(2, fun _ r => badKind r),
       (3, fun i r => orig r && ((placeIn written r).isNone || (rs.take i).any (sameRec r))),
       (4, fun _ r => orig r && (match placeIn written r with | some p => badEdit (written.getD p []) r | none => false)),
       (5, fun i r => orig r && (rs.take i).any fun q => orig q && recEngine q == recEngine r &&
          seqBefore (recIseq r) (recIseq q)),
       (6, fun i r => badDep written rs i r),
       (7, fun i r => badInsert rs i r),
       (8, fun _ r => recIseq r == 0 && !insertOk r)]
    (checks.findSome? fun c => (at_ c.2).map fun p => (c.1, p)).getD (0, 0)

/-- The check of a core's survey of n records. DEDUCED, log entry 41. -/
def Core.surveyCheck (c : Core) (n : Nat) : Nat × Nat := surveyCode c.asWritten (c.survey (min n 97)) n

/-- The first of some lines of bank 31 that a core cannot read: its address (R90). -/
def State.bank31Bad (s : State) (n : Nat) (at_ : List Nat) : Option Word :=
  at_.findSome? fun a => if s.readBad (.sp n a) 64 then some (spPointer n a) else none

/-- The first line of k records of a survey that a core cannot read: its address (R90). -/
def State.surveyBad (s : State) (n k : Nat) : Option Word := s.bank31Bad n ((List.range (min k 97)).map fun i => 0x1F0100 + 64 * i)

/-- The same for a survey that the device reissues by itself: it reads the header, for n, and then that many records (R315, R329). -/
def State.wholeBad (s : State) (n k : Nat) : Option Word :=
  (s.bank31Bad n ((List.range 4).map fun i => 0x1F0000 + 64 * i)).or (s.surveyBad n k)

/-! ### SVCHK and RESUME (R328, R329) -/

/-- SVCHK: the code in bits 7:0 and the position in bits 14:8, one control cycle after issue. It raises ILLEGAL-ENCODING alone (R328), so over a record that
cannot be read, of which R90 delivers nothing, both fields are a free value. DEDUCED, log entry 41. -/
def execSvchk (g : BitVec 4) (rd rs1 : BitVec 5) (s : State) : Result :=
  .next (if !s.inHandler then s.raise { cause := 0x01 }
    else if s.guardB g then
      s.gate (s.regsOk [rd, rs1]) fun s =>
        match s.surveyBad s.ctx.core (s.reg rs1).toNat with
        | some _ => { s with free := s.free + 1 }.putReg 1 rd (Config.freeWord s.free &&& 0x7FFF#64)
        | none =>
          let r := s.me.surveyCheck (s.reg rs1).toNat
          s.putReg 1 rd (BitVec.ofNat 64 (r.1 + 256 * r.2))
    else s)

/-- What RESUME finds once the handler's accesses have been performed: a record that it cannot read, or a survey that is not valid (R90, R329). -/
def State.resumeChk (s : State) (core n : Nat) : Option Cause :=
  match s.surveyBad core n with
  | some a => some { cause := 0x20, addr := a }
  | none => if ((s.core core).surveyCheck n).1 ≠ 0 then some { cause := 0x21 } else none

/-- Whether an access or a command of a handler is still to be performed. -/
def Core.unperformed (c : Core) : Bool := (c.aops.any fun o => o.phase != .done) || !c.cmds.isEmpty

/-- RESUME: waits for the handler's accesses, then validates; the rest follows when every handler of the group is here. It waits for those of its own bundle
after it has issued (`State.resumeTurn`). DEDUCED, log entry 81. -/
def execResume (g : BitVec 4) (rs1 : BitVec 5) (s : State) : Result :=
  .next (if !s.inHandler then s.raise { cause := 0x01 }
    else if s.guardB g then
      s.gate (s.regsOk [rs1]) fun s =>
        if (s.me.aops.any fun o => seqBefore o.iseq s.ctx.first && o.phase != .done) || s.me.cmds.any fun m => seqBefore m.iseq s.ctx.first then
          s.waiting .ops
        else match s.resumeChk s.ctx.core (s.reg rs1).toNat with
          | some k => s.raise k
          | none => s.leave (.resume (s.reg rs1).toNat)
    else s)

/-! ### What the records make of the operations in flight (R330) -/

/-- The record of an operation among the survey's. -/
def findRec (rs : List (List Word)) (own : List Word) : Option (List Word) := rs.find? (sameRec own)

/-- A ticked operation after editing: gone when its record is, its cause cleared, with an amended format word (R325). -/
def Op.edited (o : Op) (ts : Nat) (rs : List (List Word)) : Option Op :=
  match findRec rs (o.record ts 0) with
  | none => none
  | some r => some { o with cause := 0, fw := if o.kind = .start then o.fw.map fun _ => recWord r 2 else o.fw }

/-- An A-class syllable after editing: performed again at the operands of its record unless it only waits to write rd; a drain
store keeps what it popped. A record that carried WATCHPOINT is reissued without matching (R346). -/
def AOp.edited (o : AOp) (rs : List (List Word)) : Option AOp :=
  match findRec rs o.record with
  | none => none
  | some r =>
    let o1 := { o with cause := 0, quiet := o.quiet || o.cause == 0x42, begun := false, again := true, caps := [], seenV := none }
    if recKind r = 5 then some o1
    else if recKind r = 10 then some { o1 with phase := .walking, addr := recWord r 2 }
    else some { o1 with phase := if recKind r = 6 then .sync else .walking, value := 0#64, mask := 0#64, addr := recWord r 2, data := recWord r 3, extra := recWord r 4 }

/-- A command after editing: amended or reset, it is enqueued again. DEDUCED, log entry 55. -/
def Cmd.edited (c : Cmd) (rs : List (List Word)) : Option Cmd :=
  match findRec rs c.record with
  | none => none
  | some r =>
    let p := (recWord r 6).toNat
    let same := recWord r 2 == c.dst && recWord r 3 == c.src && recWord r 4 == c.len && recWord r 5 == c.aux && p == c.shown
    some { c with dst := recWord r 2, src := recWord r 3, len := recWord r 4, aux := recWord r 5, progress := p * c.unit, again := !same,
                  quiet := c.quiet || c.cause == 0x42, watched := none, ahead := [], cause := 0 }

/-- The inserted operations in position order, each with what its DEP names and what stands before it. -/
def insertedOf (rs : List (List Word)) : List Inserted :=
  (rs.zipIdx.filter fun e => recIseq e.1 == 0).map fun e =>
    { word := recWord e.1 0, kind := recKind e.1, w2 := recWord e.1 2, w3 := recWord e.1 3, w4 := recWord e.1 4, w5 := recWord e.1 5,
      deps := (((depPlaces e.1).map fun d => rs.getD (e.2 - (d + 1)) []).filter fun r => recIseq r != 0).map fun r => (recIseq r, recEngine r),
      before := ((rs.take e.2).filter fun r => !ticked (recKind r) && recIseq r != 0).map fun r => (recIseq r, recEngine r) }

/-- A core whose survey holds the given records, ready to reissue them. When a handler ran, the interrupted stream and its
unfinished syllables come back, with the edits of HX, HC and HB already in them; what an earlier resume had inserted and not yet performed stands first
(R324, R326, R329). A drain buffer whose DRAIN-STORE record is gone stays held (DESIGN CHOICE, log entry 127). DEDUCED, log entry 55. -/
def Core.reissue (c : Core) (rs : List (List Word)) : Core :=
  let a := c.saved.getD c.a
  let held := if c.saved.isSome then c.heldA else c.aops
  let al := match c.x.align with
    | some (f, q) => if rs.any fun r => recKind r == 8 && recIseq r == q % 2 ^ 24 then some (f, q) else none
    | none => none
  let wi := if rs.any fun r => recKind r == 9 then c.x.window else none
  { c with
    x := { c.x with align := al, window := wi, windowCause := 0, k := { c.x.k with exempt := true, fetched := [] } }
    a := { a with k := { a.k with exempt := true, fetched := [] } }
    saved := none
    heldA := []
    ops := c.ops.filterMap fun o => o.edited c.ts rs
    aops := held.filterMap fun o => o.edited rs
    cmds := (if c.saved.isSome then c.heldC else c.cmds).filterMap fun o => o.edited rs
    heldC := []
    inserted := c.inserted ++ insertedOf rs
    resumed := true
    edited := none
    cause := 0
    code := 0
    causeIseq := 0
    causeEngine := 0
    frozen := false }

/-! ### Delivery (R322, R323) -/

/-- Whether a stopped context goes to the partition supervisor. -/
def State.toSupervisor (s : State) (g : Grp) : Bool :=
  g.handler.isNone ||
  g.cores.any fun n =>
    let c := s.core n
    c.toSupv || c.cause == 0x0F || (0x80 ≤ c.cause && c.cause ≤ 0x82) || (c.cause != 0x83 && !g.mask.getLsbD c.cause)

/-- Set a bit of the cause word in a core's survey. -/
def Core.markCause (c : Core) (bit : Nat) : Core :=
  { c with sp := Memory.store c.sp 0x1F0000 (wordBytes (Memory.word c.sp 0x1F0000 ||| (1#64 <<< bit))) }

/-- A core enters handler mode (R323): fresh registers, x31 at the survey header, x1 the cause word. DEDUCED, log entry 81. -/
def Core.enterHandler (c : Core) (n : Nat) (entry : Word) : Core :=
  let c := c.markCause 12
  { c with
    saved := some c.a
    heldA := c.aops
    aops := []
    heldC := c.cmds
    cmds := []
    frozen := false
    a := { k := { pc := entry }, x := sset 0#64 31 (spPointer n 0x1F0000) (sset 0#64 1 (Memory.word c.sp 0x1F0000) []) } }

/-- Delivery to the handlers of the cores that raised a cause. -/
def State.deliverHandlers (s : State) (g : Grp) (entry : Word) : State :=
  (g.cores.foldl (fun s n => if (s.core n).cause = 0x83 then s else s.modCore n fun c => c.enterHandler n entry) s).setGrp
    { g with status := .handling }

/-- The cause for which a stopped group goes to its supervisor (R322, R367): that of a handler, else the first that a core raised. -/
def State.supvCause (s : State) (g : Grp) : Nat :=
  let of (p : Core → Bool) : Option Nat := (g.cores.find? fun n => p (s.core n)).map fun n => (s.core n).cause
  ((of Core.toSupv).or (of fun c => c.cause != 0x83 && c.cause != 0)).getD 0x83

/-- Delivery to the partition supervisor: SUPV in every cause word; the rest of the save image is then written (R332, R334). -/
def State.deliverSupervisor (s : State) (g : Grp) (next : Status) : State :=
  (g.cores.foldl (fun s n => s.modCore n fun c => c.markCause 13) s).setGrp { g with status := next, lastCause := s.supvCause g }

end Sys2Proof.Machine
end

