-- ==== Sys2Proof/Machine/Access.lean ====
section
/-! DEFINITION. How an access core performs its accesses (R262 to R265, R279, R286 to R293, R335): the race checker, the end of a
translation, the instant of the access and its order against earlier ones. -/

namespace Sys2Proof.Machine

/-! ### What an access does -/

/-- The new value of an atomic, none when ACAS finds another value (R291): w bits of old, s and n. -/
def atomicNew (i : Instr) (w : Nat) (old s n : Word) : Option Word :=
  let o := old.setWidth w
  let v := s.setWidth w
  match i with
  | .aadd .. => some ((o + v).setWidth 64)
  | .amin .. => some ((if v.slt o then v else o).setWidth 64)
  | .amax .. => some ((if o.slt v then v else o).setWidth 64)
  | .aand .. => some ((o &&& v).setWidth 64)
  | .aor .. => some ((o ||| v).setWidth 64)
  | .axor .. => some ((o ^^^ v).setWidth 64)
  | .axchg .. => some (v.setWidth 64)
  | .acas .. => if o = v then some ((n.setWidth w).setWidth 64) else none
  | _ => none

/-- Whether the access side of a core works: its group runs, reissues, or the core runs a handler (R311, R323, R329). -/
def State.accessRuns (s : State) (n : Nat) : Bool :=
  match s.grpAt n with
  | none => false
  | some g => g.status == .running || g.status == .resuming || (g.status == .handling && (s.core n).saved.isSome)

/-- Whether an unfinished A-class syllable or command of a core may go on: not while an inserted operation that stands before it is still to be
performed (R329). What a handler's own syllables do waits for none. -/
def State.opRuns (s : State) (n q : Nat) : Bool :=
  s.accessRuns n && ((s.core n).saved.isSome || !(s.core n).inserted.any fun i => !i.before.any fun b => b.1 == q % 2 ^ 24 && (b.2 == 1 || b.2 == 5 || b.2 == 7))

/-- The same for a spill or fill of the window. -/
def Core.windowRuns (c : Core) : Bool := !c.inserted.any fun i => !i.before.contains (c.x.windowSeq % 2 ^ 24, 6)

/-- The unfinished A-class syllables of a core before one. DEDUCED, log entry 77. -/
def Core.earlier (c : Core) (q : Nat) : List AOp := c.aops.takeWhile fun o => o.iseq != q

/-! ### The race checker (R286 to R290) -/

/-- Join of two vectors. -/
def joinV (a b : List Nat) : List Nat := List.zipWith max a b

/-- A snapshot of a core of a rank (R287). -/
def Race.snap (r : Race) (rank : Nat) : List Nat := r.v.set rank r.e

/-- A release raises the epoch, which stays at 2^40 - 1 (R286, R287). -/
def Race.release (r : Race) : Race := { r with e := min (r.e + 1) (2 ^ 40 - 1) }

/-- The lines of n bytes at an offset (R286). -/
def linesOf (off n : Nat) : List Nat := (List.range ((off + n - 1) / 64 - off / 64 + 1)).map (off / 64 + ·)

/-- The carried vectors of lines of a core joined into a vector. -/
def Core.carriedInto (c : Core) (ls : List Nat) (v : List Nat) : List Nat :=
  ls.foldl (fun v l => match (sget {} l c.lines).carried with | some w => joinV v w | none => v) v

/-- The first line whose last writer's epoch a vector does not cover: line, writer, epoch (R288). -/
def Core.raceOn (c : Core) (rank : Nat) (v : List Nat) (ls : List Nat) : Option (Nat × Nat × Nat) :=
  ls.findSome? fun l =>
    let k : Line := sget {} l c.lines
    match k.writer with
    | some q => if q ≠ rank ∧ v.getD q 0 < k.epoch then some (l, q, k.epoch) else none
    | none => none

/-- The vector against which an access of core p is judged, as it stood before any later acquire (R289): an acquire read at cluster scope or wider joins
first (R287). -/
def State.raceVector (s : State) (p : Nat) (o : AOp) (a : Acc) (d off : Nat) : List Nat :=
  let v := o.seenV.getD (s.core p).race.v
  if a.rd && a.acq && 1 ≤ a.scp then (s.core d).carriedInto (linesOf off a.size) v else v

/-- Whether an unfinished syllable is a release that has not come about (R287). -/
def AOp.releases (o : AOp) : Bool :=
  match accOf o.instr with
  | some a => a.wr && a.rel && o.phase != .done
  | none => match o.instr with
    | .fence _ ord _ => ord == 2#2 || ord == 3#2
    | .bara .. => true
    | .publish .. => !o.begun
    | .launchB .. => o.phase == .sync && !o.begun
    | .launchN .. => o.phase == .sync && !o.begun
    | _ => false

/-- E of a core in program order, at a syllable: the releases before it that are still to come count (R287, R289). -/
def Core.epochAt (c : Core) (q : Nat) : Nat := min (c.race.e + ((c.earlier q).filter AOp.releases).length) (2 ^ 40 - 1)

/-- V of a core joined by an acquire: an access or a release before it that is still to come keeps V as it was (R287, R289). -/
def Core.observe (c : Core) (q : Nat) (v : List Nat) : Core :=
  { c with
    race := { c.race with v := v }
    aops := c.aops.map fun o =>
      if (c.earlier q).any (fun y => y.iseq == o.iseq) && o.seenV.isNone then { o with seenV := some c.race.v } else o }

/-- The snapshot that a release carries (R287). -/
def AOp.snap (o : AOp) (r : Race) (rank : Nat) : List Nat := ({ r with v := o.seenV.getD r.v } : Race).snap rank

/-- The race-checker effect of a read by syllable q of core p (R287). -/
def State.raceRead (s : State) (p q : Nat) (a : Acc) (d off : Nat) : State :=
  let ls := linesOf off a.size
  if a.acq && 1 ≤ a.scp then s.modCore p fun c => c.observe q ((s.core d).carriedInto ls c.race.v)
  else s.modCore p fun c => { c with race := { c.race with p := (s.core d).carriedInto ls c.race.p } }

/-- The race-checker effect of a write by an access-core syllable of core p; a release raises its epoch afterwards (R287). -/
def State.raceWrite (s : State) (p : Nat) (o : AOp) (a : Acc) (d off : Nat) : State :=
  let r := (s.core p).race
  let e := (s.core p).epochAt o.iseq
  let carried := if a.rel && 1 ≤ a.scp then some (o.snap r (coreRank p)) else r.f
  s.modCore d fun c => { c with lines := (linesOf off a.size).foldl (fun st l =>
    sset {} l { writer := some (coreRank p), epoch := e, carried := carried } st) c.lines }

/-- An atomic with a release suffix that stores nothing is no release: what core p has written after it takes the epoch before (R287, R289). -/
def State.noRelease (s : State) (p : Nat) : State :=
  let e := (s.core p).race.e
  let late (l : Line) : Bool := l.writer == some (coreRank p) && decide (e < l.epoch)
  if s.cores.any fun k => coreCluster k.1 == coreCluster p && k.2.lines.any fun l => late l.2 then
    s.mapCores fun n c => if coreCluster n == coreCluster p then
      { c with lines := c.lines.map fun l => if late l.2 then (l.1, { l.2 with epoch := l.2.epoch - 1 }) else l } else c
  else s

/-- The race-checker effect of a command's write of n bytes (R287). -/
def State.raceCommand (s : State) (p d off n : Nat) : State :=
  let l : Line := if coreCluster p = coreCluster d then { writer := some (coreRank p), epoch := (s.core p).race.e, carried := none } else {}
  s.modCore d fun c => { c with lines := (linesOf off n).foldl (fun st k => sset {} k l st) c.lines }

/-! ### Order within one access core (R264, R266, R277, R279, R281, R335) -/

/-- Whether a scope holds another agent toward which it can order something: the device always does, a cluster or a die when another of its cores
belongs to a partition (R277, R279). What it orders it orders in time; `Order` shows the agents outside it another order.
DEDUCED, log entry 97. -/
def State.binds (s : State) (n scp : Nat) : Bool :=
  decide (3 ≤ scp) || (decide (1 ≤ scp) && s.cores.any fun e => e.1 != n && e.2.part.isSome && inScope scp n e.1)

/-- An access that is not yet performed, or a fence whose orders do not hold yet. -/
def AOp.pending (o : AOp) : Bool :=
  o.phase != .done && ((accOf o.instr).isSome || match o.instr with | .fence .. => true | _ => false)

/-- Whether an unfinished syllable of core n holds a later access of the core to k bytes at a place where it lands: an access that has not passed its
checks; one that is not performed and touches the bytes, is an acquire read, or comes before a release write; a fence before a write; a LAUNCH that has
yet to read its record (R105, R264, R279, R335). DEDUCED, log entry 27. -/
def State.holds (s : State) (n pn : Nat) (y : AOp) (p : Place) (k : Nat) (wr rel : Bool) : Bool :=
  match accOf y.instr with
  | some a =>
    y.phase == .walking ||
    (y.phase == .ready && (rel || (a.rd && a.acq && s.binds n a.scp) || (s.landsAt pn y.place).overlaps a.size p k))
  | none =>
    let reads : Bool := y.phase == .sync && !y.begun && (y.caps.isEmpty || y.caps.any fun c => (s.landsAt pn c.2.1).overlaps c.2.2 p k)
    match y.instr with
    | .fence .. => wr
    | .launchB .. => reads
    | .launchN .. => reads
    | _ => false

/-- One captured piece of a command: its pointer, its place, its length. -/
abbrev Cap := Word × Place × Nat

/-- What is left of captured pieces after their first k bytes. -/
def restOf (k : Nat) : List Cap → List Cap
  | [] => []
  | (p, pl, n) :: t => if k < n then (p + BitVec.ofNat 64 k, pl.plus k, n - k) :: t else restOf (k - n) t

/-- Whether an earlier command of the core is still to read bytes: a later read of them comes after it (R281), and so does a write when the command is
an LDQ2 (R266). DEDUCED, log entry 27. -/
def State.readOwed (s : State) (n pn q : Nat) (p : Place) (k : Nat) (rd : Bool) : Bool :=
  (s.core n).cmds.any fun m => seqBefore m.iseq q && (rd || match m.instr with | .ldq2 .. => true | _ => false) &&
    (restOf m.progress m.reads).any fun r => (s.landsAt pn r.2.1).overlaps r.2.2 p k

/-- Whether an access of core n that has passed its checks may be performed now; an atomic reads what is newest, and waits while that is hidden from it. -/
def State.mayPerform (s : State) (n pn : Nat) (o : AOp) (a : Acc) : Bool :=
  let p := s.landsAt pn o.place
  !(a.rd && a.wr && s.order.veils.any fun v => v.meets p a.size && s.locked v n) && !(((s.core n).earlier o.iseq).any fun y => s.holds n pn y p a.size a.wr (a.wr && a.rel && s.binds n a.scp)) && !s.readOwed n pn o.iseq p a.size a.rd

/-! ### Results -/

/-- Change one unfinished A-class syllable. -/
def Core.modAop (c : Core) (q : Nat) (f : AOp → AOp) : Core := { c with aops := c.aops.map fun o => if o.iseq = q then f o else o }
def Core.dropAop (c : Core) (q : Nat) : Core := { c with aops := c.aops.filter fun o => o.iseq != q }
def Core.aop (c : Core) (q : Nat) : Option AOp := c.aops.find? fun o => o.iseq == q

/-- Write an x register of a core's current access stream; x0 discards it. -/
def Core.setX (c : Core) (r : Nat) (v : Word) : Core :=
  if r = 0 then c else { c with a := { c.a with x := sset 0#64 r v c.a.x } }

/-- The fault of an access of core n: the stop, with the access marked (R262, R319). -/
def State.failA (s : State) (n : Nat) (o : AOp) (k : Cause) : State :=
  s.stop n { k with engine := if o.buf.isSome then 7 else 1, iseq := o.iseq, addr := if k.addr = 0#64 then o.addr else k.addr }

/-- Free one entry of a drain buffer (R248). -/
def Core.drainStored (c : Core) (b : Option (Nat × Nat)) : Core :=
  match b with
  | some (k, _) => { c with e := { c.e with drain := sset 0 k (sget 0 k c.e.drain - 1) c.e.drain } }
  | none => c

/-- A space-2 access that arrives in the shared window, also one that loops back to this device, is counted, and it is reported on a match unless
it is made in handler mode (R254, R261, R345, R382). -/
def State.arrived (s : State) (pn node off : Nat) (kinds : List WatchKind) (place : Place) (n : Nat) (silent : Bool := false) (count : Bool := true) : State :=
  let s := (if count then s.countPages pn place n 0 0 1 else s).chargeKind pn 1 (s.readPlace place n)
  match (if silent then [] else kinds.filterMap fun k => (s.watchHit pn k place n).map fun h => (k, h)) with
  | [] => s
  | (k, m, i) :: rest =>
    let mask := rest.foldl (fun acc e => acc ||| e.2.1) m
    let bits := rest.foldl (fun acc e => acc ||| e.1.bit) k.bit
    let r := reportBytes 3 mask bits 0 node 0xFFFF (BitVec.ofNat 64 (off + i)) 0#64 s.wall
    s.modPart pn fun p => { p with peerReports := p.peerReports ++ [r] }

/-- The kinds under which an access is watched (R344). -/
def Acc.kinds (a : Acc) : List WatchKind :=
  if a.atom then [.atomic] else (if a.rd then [.read] else []) ++ (if a.wr then [.write] else [])

/-- After core m has moved n bytes at a place p that lands at q: the loopback arrival, if it is one; a command's pages are counted when it captures
them (R261). -/
def State.looped (s : State) (m pn : Nat) (kinds : List WatchKind) (p q : Place) (n : Nat) (count : Bool := true) : State :=
  match p with
  | .peer k off => if p = q then s else s.arrived pn k off kinds q n (s.core m).saved.isSome count
  | _ => s

/-! ### The instant of an access -/

/-- Whether a place can be reached now (R116, R118, R120): a bank of another owner faults, a WARM bank starts to wake, and the requester
waits while it is in TRANSIT. -/
inductive Way where
  | clear
  | waits (s : State)
  | denied

/-- The way to n bytes at a place for a context; a channel that is being copied makes it wait (R400). -/
def State.way (s : State) (owner : Nat) (p : Place) (n : Nat) : Way :=
  match p with
  | .sp d off =>
    let b := off / 65536
    let k := sget {} b (s.core d).banks
    if (s.core d).bankOwner b ≠ owner then .denied
    else if k.st = 2 then .clear
    else if k.st = 1 then .waits (s.modCore d fun c => { c with banks := sset {} b { k with st := 3, last := s.power.ref } c.banks })
    else .waits s
  | _ => if s.copied p n then .waits s else .clear

/-- A read of a bank counts as an access to it (R121). -/
def State.touchPlace (s : State) (p : Place) : State :=
  match p with
  | .sp d off => s.modCore d fun c => c.touch s.power.ref (off / 65536) false
  | _ => s

/-- The releases that a write of core n carries: its suffix, and the FENCEs before it (R280). -/
def State.relsOf (s : State) (n : Nat) (o : AOp) (a : Acc) : List Rel :=
  (if a.rel then [{ core := n, scp := a.scp, space := spaceOf o.addr, iseq := o.iseq, covers := s.order.knownBy n }] else []) ++
    ((s.core n).fences.filter fun f => seqBefore f.iseq o.iseq).map fun f => { f with core := n, space := spaceOf o.addr }

/-- A core sees every write that another device may have seen through what the core writes there (R277, R280). -/
def State.toPeer (s : State) (n : Nat) (p : Place) : State :=
  match p with
  | .peer .. => s.reveal [outsider] (fun v => v.known.contains n) true
  | _ => s

/-- What an access does once nothing stands in its way: its bytes, the race checker and its result. An atomic reads the newest write, and its own
carries on the releases of that (R280). -/
def State.accessEffect (s : State) (n pn : Nat) (o : AOp) (a : Acc) (lock : Nat := 0) (after : List Nat := []) : State :=
  let pl := s.landsAt pn o.place
  let raceR (s : State) : State := match pl with | .sp d off => s.raceRead n o.iseq a d off | _ => s
  let raceW (s : State) : State := match pl with | .sp d off => s.raceWrite n o a d off | _ => s
  let released (s : State) : State := if a.rel && a.wr then s.modCore n fun c => { c with race := c.race.release } else s
  let put (s : State) (d : Bytes) : State :=
    let on := if a.rd then s.relsSeen n pl a.size else []
    released (raceW (((s.writePlace n pl d { iseq := o.iseq, rels := s.relsOf n o a ++ on, lock := lock, after := after }).toPeer n pl).writeGood pl d.length))
  let got (s : State) (v : Word) : State :=
    s.modCore n fun c => if o.dest = some 0 then c.dropAop o.iseq else c.modAop o.iseq fun o => { o with phase := .done, value := v }
  let arrive (s : State) : State := s.looped n pn a.kinds o.place pl a.size
  let s := if a.rd && a.wr then s.reveal [n] (fun v => v.meets pl a.size) false else s
  let d := s.seen n pl a.size
  let read (s : State) : State := if a.rd then s.reads n (spaceOf o.addr) pl a.size (if a.acq then some a.scp else none) else s
  let s := (s.touchPlace pl).charge pn pl (if a.rd then d else match o.instr with | .stq .. => rowBytes o.row | _ => leBytes a.size o.data.toNat)
  match o.instr with
  | .ld _ _ _ _ sz sx _ _ => arrive (got (raceR (read s)) (loadValue sz.toNat (sx == 1#1) d))
  | .ldx _ _ _ _ _ sz sx _ _ => arrive (got (raceR (read s)) (loadValue sz.toNat (sx == 1#1) d))
  | .ldq .. => arrive ((raceR (read s)).modCore n fun c => c.modAop o.iseq fun o => { o with phase := .done, row := rowOf d })
  | .st .. => arrive ((put s (leBytes a.size o.data.toNat)).modCore n fun c => c.dropAop o.iseq)
  | .stx .. => arrive ((put s (leBytes a.size o.data.toNat)).modCore n fun c => c.dropAop o.iseq)
  | .stq .. => arrive ((put s (rowBytes o.row)).modCore n fun c => (c.dropAop o.iseq).drainStored o.buf)
  | .await _ _ _ _ cond sz _ _ =>
    let v := loadValue sz.toNat (2 ≤ cond.toNat && cond.toNat ≤ 5) d
    if awaitHolds cond.toNat sz.toNat v o.data then arrive (got (raceR (read s)) v) else s
  | i =>
    let old := BitVec.ofNat 64 (leNat d)
    let s := raceR (read s)
    let s := match atomicNew i (8 * a.size) old o.data o.extra with
      | some v => put s (leBytes a.size v.toNat)
      | none => if a.rel then s.noRelease n else s
    arrive (got s old)

/-- What stands in the way of an access at its instant. -/
inductive Perf where
  | go
  | waits (s : State)
  | fault (k : Cause)

/-- The checks at the instant of an access (R120, R118, R288, R90): its bank, an uncorrectable error, a race. -/
def State.performChk (s : State) (n pn : Nat) (o : AOp) (a : Acc) : Perf :=
  let pl := s.landsAt pn o.place
  match s.way (s.core n).owner pl a.size with
  | .waits s => .waits s
  | .denied => .fault { cause := 0x19 }
  | .clear =>
    if (a.rd && s.readBad pl a.size) || s.lost pl then .fault { cause := 0x20 }
    else
      let race := match pl with
        | .sp d off => if a.atom then none else ((s.core d).raceOn (coreRank n) (s.raceVector n o a d off) (linesOf off a.size)).map fun r => (d, r)
        | _ => none
      match race with
      | some (d, l, q, e) => .fault { cause := 0x1A, addr := spPointer d (64 * l), detail := BitVec.ofNat 64 (q + e * 2 ^ 24) }
      | none => .go

/-- The drain buffer an STQ's record names when it faults with its entry left in place (R265, R321). -/
def Core.leftBuffer (c : Core) (o : AOp) : Core :=
  match o.instr with
  | .stq _ q .. =>
    if o.popped then c
    else (match (c.queue (8 + q.toNat)).es with
      | { buf := some (b, r), .. } :: _ => c.modAop o.iseq fun o => { o with data := BitVec.ofNat 64 (b + 256 * r) }
      | _ => c)
  | _ => c

/-- A write or atomic that fails because its node is lost may have been performed there (R399): a free value decides. DEDUCED, log entry 72. -/
def State.maybeStore (s : State) (o : AOp) (a : Acc) : State :=
  if a.wr && s.lost o.place then
    let s1 := { s with free := s.free + 1 }
    if (Config.freeWord s.free).getLsbD 0 then
      let old := BitVec.ofNat 64 (leNat (s.readPlace o.place a.size))
      let d : Option Bytes := match o.instr with
        | .stq .. => some (rowBytes o.row)
        | .st .. => some (leBytes a.size o.data.toNat)
        | .stx .. => some (leBytes a.size o.data.toNat)
        | i => (atomicNew i (8 * a.size) old o.data o.extra).map fun v => leBytes a.size v.toNat
      match d with | some d => s1.writePlace outsider o.place d | none => s1
    else s1
  else s

/-- Perform one access of core n that is ready, as far as the checks at its instant allow. DEDUCED, log entry 27. -/
def State.perform (s : State) (n pn : Nat) (o : AOp) (a : Acc) (before : State → State) : State :=
  match s.performChk n pn o a with
  | .waits s => s
  | .fault k => ((s.maybeStore o a).modCore n fun c => c.leftBuffer o).failA n o k
  | .go => (before s).accessEffect n pn o a

/-- Whether an earlier STQ of a core has yet to pop the same queue, or an earlier access to pass its checks (R265, R335). -/
def Core.popHeld (c : Core) (q : Nat) (k : BitVec 4) : Bool :=
  (c.earlier q).any fun y => (accOf y.instr).isSome && (y.phase == .walking || (!y.popped && match y.instr with | .stq _ u .. => u == k | _ => false))

/-- An STQ that has passed its checks (R265): it pops its queue and writes at one instant, so that a fault leaves the entry in place; an entry of a drain
buffer is popped first, and the buffer keeps its row (R248, R321); one in error stays (R90). A strict pop of an empty queue is QUEUE-UNDERFLOW.
DEDUCED, log entry 48. -/
def State.performStq (s : State) (n pn : Nat) (o : AOp) (a : Acc) (k : BitVec 4) (stall : Bool) : State :=
  let c := s.core n
  let q := 8 + k.toNat
  let lost (b : Option (Nat × Nat)) : Bool := match b with | some (k, _) => s.bad.contains (5, n, k) | none => false
  if o.popped then
    if lost o.buf then s.failA n o { cause := 0x20 } else if s.mayPerform n pn o a then s.perform n pn o a id else s
  else if c.popHeld o.iseq k then s
  else match c.head q c.tick with
    | none => if stall then s else s.failA n o { cause := 0x08 }
    | some e =>
      if e.buf.isSome then
        if lost e.buf then (s.modCore n fun c => c.leftBuffer o).failA n o { cause := 0x20 }
        else s.modCore n fun c => (c.pop q).modAop o.iseq fun o => { o with popped := true, row := e.val, buf := e.buf }
      else if s.mayPerform n pn o a then s.perform n pn { o with row := e.val } a fun s => s.modCore n fun c => c.pop q
      else s

/-- An access of core n to a node that has just been lost fails (R399); one that could have been performed by then may have been. DEDUCED, log entry 72. -/
def State.loseAccess (s : State) (n pn : Nat) (o : AOp) (a : Acc) : State :=
  let c := s.core n
  let sent : Option AOp := match o.instr with
    | .stq _ k .. =>
      if o.popped then some o
      else if c.popHeld o.iseq k then none
      else (c.head (8 + k.toNat) c.tick).bind fun e => if e.buf.isSome then none else some { o with row := e.val }
    | _ => some o
  let s := match sent with
    | some p => if o.phase == APhase.ready && s.mayPerform n pn o a then s.maybeStore p a else s
    | none => s
  (s.modCore n fun c => c.leftBuffer o).failA n o { cause := 0x20 }

/-- One access of core n goes on toward its instant (R264, R265, R288). -/
def State.performOne (s : State) (n : Nat) (o : AOp) : State :=
  match accOf o.instr, (s.core n).part with
  | some a, some pn =>
    if o.phase != .ready then s
    else match o.instr with
      | .stq _ k _ _ md => s.performStq n pn o a k (md == 1#2)
      | _ => if s.mayPerform n pn o a then s.perform n pn o a id else s
  | _, _ => s

/-! ### What the cores are shown of the order of writes (R277, R279 to R281) -/

/-- The scope within which a write of core n is ordered after pending accesses that it is performed before: its own scope for a release after plain
accesses, an acquire's for a plain store after it. None is ordered after any of a wider scope (R277, R279). DEDUCED, log entry 97. -/
def State.earlyScope (s : State) (n : Nat) (o : AOp) (a : Acc) (owed : List AOp) : Nat :=
  let acqs := owed.filterMap fun y => (accOf y.instr).bind fun b => if b.acq then some b.scp else none
  let store : Bool := match o.instr with | .st .. => true | .stx .. => true | _ => false
  if a.rel then (if acqs.isEmpty && !a.acq then a.scp else 0)
  else if store && (s.core n).fences.isEmpty then acqs.foldl max 0 else 0

/-- A write of core n to HBM that has passed its checks is performed before loads and stores which it is ordered after toward the cores of a scope: these
see it when the others have been performed (R277, R279, R280). DEDUCED, log entry 97. -/
def State.early (s : State) (n q : Nat) : State :=
  match (s.core n).aop q, (s.core n).part with
  | some o, some pn =>
    (match accOf o.instr with
      | some a =>
        let pl := s.landsAt pn o.place
        let owed := ((s.core n).earlier q).filter AOp.pending
        let goes (y : AOp) (b : Acc) : Bool := match s.performChk n pn y b with | .go => true | _ => false
        let hbm (p : Place) : Bool := match p with | .hbm _ => true | _ => false
        let plain (y : AOp) : Bool := match accOf y.instr with
          | some b => y.phase == .ready && hbm y.place && !b.rel && !y.place.overlaps b.size pl a.size && goes y b &&
            (match y.instr with | .ld .. => true | .ldx .. => true | .st .. => true | .stx .. => true | _ => false)
          | none => false
        let scp := s.earlyScope n o a owed
        if o.phase == .ready && a.wr && hbm pl && (scp == 1 || scp == 2) && !owed.isEmpty && owed.all plain && !s.readOwed n pn q pl a.size a.rd &&
            !(a.rd && s.order.veils.any fun v => v.meets pl a.size && s.locked v n) && goes o a &&
            (match o.instr with | .stq .. => false | _ => true) then
          s.accessEffect n pn o a scp (owed.map (·.iseq))
        else s
      | none => s)
  | _, _ => s

/-- The state as it would be if a write were still to come. -/
def State.without (s : State) (v : Veil) : State :=
  let vs := s.order.veils.map fun w => if w.id = v.id then { w with place := .reg 0 } else w
  { s.writeRaw v.core v.place v.old with order := { s.order with veils := vs } }

/-- A write comes back, over what has been written beneath it. -/
def State.withAgain (t : State) (v w : Veil) (d : Bytes) : State :=
  let vs := { w with place := v.place, old := t.readPlace v.place d.length } :: t.order.veils.filter fun u => u.id != v.id
  { t.writeRaw v.core v.place d with order := { t.order with veils := vs } }

/-- The one write that core n has not been shown and that alone covers n bytes at a place. -/
def State.hiddenOver (s : State) (n : Nat) (p : Place) (k : Nat) : Option Veil :=
  match s.order.veils.filter fun v => v.meets p k with
  | [v] =>
    if v.blind.contains n && decide (v.place.offset ≤ p.offset ∧ p.offset + k ≤ v.place.offset + v.old.length) &&
        !s.order.veils.any fun w => w.id != v.id && w.meets v.place v.old.length then some v else none
  | _ => none

/-- A write of core n is performed as if one write that its core has not been shown were still to come: it stands before that one in the coherence order
(R281). DEDUCED, log entry 97. -/
def State.under (s : State) (n q : Nat) : State :=
  match (s.core n).aop q, (s.core n).part with
  | some o, some pn =>
    (match accOf o.instr with
      | some a =>
        (match (if o.phase == .ready && a.wr then s.hiddenOver n (s.landsAt pn o.place) a.size else none) with
          | some v =>
            let t := (s.without v).performOne n o
            let done := match (t.core n).aop q with | some y => y.phase == .done | none => true
            (match t.order.veils.find? fun w => w.id == v.id with
              | some w => if done && w.blind.contains n then t.withAgain v w (s.readPlace v.place v.old.length) else s
              | none => s)
          | none => s)
      | none => s)
  | _, _ => s

/-- A hidden write is shown to cores, unless what it waits for toward them has not been performed (R279 to R281). -/
def State.spread (s : State) (id : Nat) (ms : List Nat) : State := s.reveal ms (fun v => v.id == id) false

/-! ### The end of a translation (R335, R358) -/

/-- A prefetch makes no access and never faults (R264, R278): it fills the cache and may wake a WARM bank, and is then over. -/
def State.prefetch (s : State) (n : Nat) (o : AOp) : State :=
  let t := match s.resolve n o.addr 1 false true with
    | .error _ => s
    | .ok h =>
      let t := s.keepLeaf n h
      match t.way (t.core n).owner h.place 1 with
      | .waits u => u
      | _ => t
  t.modCore n fun c => c.dropAop o.iseq

/-- Where a watched access of a core stands (R345): spaces 0 and 1 only, never in handler mode. -/
def State.watchA (s : State) (n pn : Nat) (o : AOp) (a : Acc) (pl : Place) : Option (WatchKind × Nat × Nat) :=
  if o.quiet || (s.core n).saved.isSome || 2 ≤ spaceOf o.addr then none
  else a.kinds.findSome? fun k => (s.watchHit pn k pl a.size).map fun h => (k, h.1, h.2)

/-- Checks 3 to 5 of R262 for an access whose walk ends; one that is reissued at the address of its record, which a handler may have amended, makes checks 1
and 2 again before them (R330). -/
def State.recheck (s : State) (n : Nat) (o : AOp) (a : Acc) : Except Nat Hit :=
  if o.again && !s.spaceOk n .access o.addr then .error 0x15
  else if o.again && o.addr.toNat % a.size != 0 then .error 0x16
  else s.resolve n o.addr a.size a.wr true

/-- The end of a translation: a prefetch is over; an access makes checks 3 to 5, is counted and watched, and is then ready. A walk through a table in
a channel that is being copied has not ended (R400). DEDUCED, log entry 48. -/
def State.walkEnd (s : State) (n : Nat) (o : AOp) : State :=
  match (s.core n).part with
  | none => s
  | some pn =>
    if o.phase != .walking || s.resolveCopied n o.addr then s
    else match accOf o.instr with
      | none => (match o.instr with | .pref .. => s.prefetch n o | _ => s)
      | some a =>
        match s.recheck n o a with
        | .error k => (s.modCore n fun c => c.leftBuffer o).failA n o { cause := k }
        | .ok h =>
          let s := s.keepLeaf n h
          let s := if spaceOf o.addr != 0 then s else s.countPage pn h.place (if a.rd then 1 else 0) (if a.wr then 1 else 0) 0
          match s.watchA n pn o a h.place with
          | some (k, m, i) =>
            let at_ := o.addr + BitVec.ofNat 64 i
            let s := s.report pn (reportBytes 1 m k.bit 1 Config.nodeId.toNat n at_ (BitVec.ofNat 64 o.iseq) s.wall)
            (s.modCore n fun c => c.leftBuffer o).failA n o { cause := 0x42, code := lowest m, addr := at_ }
          | none => s.modCore n fun c => c.modAop o.iseq fun o => { o with phase := .ready, place := h.place }

/-- TRANSLATION_WALK_END: the walk of an unfinished access ends (R335). -/
def execTranslationWalkEnd (core iseq : Nat) (s : State) : Result :=
  .next (match (s.core core).aop iseq with
    | some o => if s.opRuns core iseq then s.walkEnd core o else s
    | none => s)

/-- QUEUE_FILL: the row of an LDQ arrives and fills its entry (R139, R265). -/
def State.fillLdq (s : State) (n : Nat) (o : AOp) : State :=
  let s := s.performOne n o
  match (s.core n).aop o.iseq with
  | some o =>
    (match o.instr, o.entry with
      | .ldq _ q .., some e => if o.phase == .done then s.modCore n fun c => (c.fillEntry q.toNat e o.row).dropAop o.iseq else s
      | _, _ => s)
  | none => s

end Sys2Proof.Machine
end

