-- ==== Sys2Proof/Machine/Ecdsa.lean ====
section
/-! DEFINITION. ECDSA on P-384 with SHA-384 (R1, R394, R396): the curve of FIPS 186, which the manual names without restating it. -/

namespace Sys2Proof.Machine

/-- The prime of the field. -/
def p384 : Nat := 0xFFFFFFFFFFFFFFFFFFFFFFFFFFFFFFFFFFFFFFFFFFFFFFFFFFFFFFFFFFFFFFFEFFFFFFFF0000000000000000FFFFFFFF

/-- The order of the base point. -/
def p384Order : Nat := 0xFFFFFFFFFFFFFFFFFFFFFFFFFFFFFFFFFFFFFFFFFFFFFFFFC7634D81F4372DDF581A0DB248B0A77AECEC196ACCC52973

/-- The constant of the curve y² = x³ - 3·x + b. -/
def p384B : Nat := 0xB3312FA7E23EE7E4988E056BE3F82D19181D9C6EFE8141120314088F5013875AC656398D8A2ED19D2A85C8EDD3EC2AEF

/-- A point of the curve by its coordinates; none is the point at infinity. -/
abbrev Point := Option (Nat × Nat)

/-- The base point. -/
def p384Base : Point :=
  some (0xAA87CA22BE8B05378EB1C71EF320AD746E1D3B628BA79B9859F741E082542A385502F25DBF55296C3A545E3872760AB7,
    0x3617DE4A96262C6F5D9E98BF9292DC29F8F41DBD289A147CE9DA3113B5F0B8C00A60B1CE1D7E819D7A431D7C90EA0E5F)

/-- A power modulo m, over the low bits of the exponent. -/
def powMod (m b : Nat) : Nat → Nat → Nat
  | 0, _ => 1 % m
  | k + 1, e =>
    let r := powMod m (b * b % m) k (e / 2)
    if e % 2 = 1 then r * b % m else r

/-- The inverse modulo a prime of at most 384 bits. -/
def invMod (m x : Nat) : Nat := powMod m (x % m) 384 (m - 2)

/-- Whether coordinates lie on the curve. -/
def onCurve (x y : Nat) : Bool :=
  decide (x < p384) && decide (y < p384) && y * y % p384 == (x * x * x + (p384 - 3) * x + p384B) % p384

/-- The sum of two points. -/
def Point.add (a b : Point) : Point :=
  match a, b with
  | none, q => q
  | p, none => p
  | some (x, y), some (u, v) =>
    if x = u ∧ (y + v) % p384 = 0 then none
    else
      let l := (if x = u then (3 * x * x + (p384 - 3)) * invMod p384 (2 * y) else (v + p384 - y) * invMod p384 (u + p384 - x)) % p384
      let w := (l * l + 2 * p384 - x - u) % p384
      some (w, (l * (x + p384 - w) + p384 - y) % p384)

/-- A multiple of a point, over the low bits of the factor. -/
def Point.mul (a : Point) : Nat → Nat → Point
  | 0, _ => none
  | k + 1, e =>
    let r := Point.mul (a.add a) k (e / 2)
    if e % 2 = 1 then r.add a else r

/-- The first coordinate, 0 at infinity. -/
def Point.x (a : Point) : Nat := (a.getD (0, 0)).1

/-- Whether a signature r ‖ s over a digest verifies under a key x ‖ y, every number big-endian (R394). PRESUMED, log entry 38. -/
def ecdsaOk (key sig digest : Bytes) : Bool :=
  let x := beNat (key.take 48)
  let y := beNat (key.drop 48)
  let r := beNat (sig.take 48)
  let s := beNat (sig.drop 48)
  let w := invMod p384Order s
  let u := beNat digest * w % p384Order
  let v := r * w % p384Order
  let t := (p384Base.mul 384 u).add (Point.mul (some (x, y)) 384 v)
  key.length == 96 && sig.length == 96 && onCurve x y && decide (1 ≤ r) && decide (r < p384Order) && decide (1 ≤ s) && decide (s < p384Order) &&
    t.isSome && t.x % p384Order == r

/-- The signature r ‖ s over a digest under a private key with a nonce, big-endian (R396). PRESUMED, log entry 38. -/
def ecdsaSign (key nonce : Nat) (digest : Bytes) : Bytes :=
  let r := (p384Base.mul 384 nonce).x % p384Order
  beBytes 48 r ++ beBytes 48 (invMod p384Order nonce * (beNat digest + r * key) % p384Order)

end Sys2Proof.Machine
end

