-- ==== Sys2Proof/Machine/Image.lean ====
section
/-! DEFINITION. The save image of a core (R332 to R334): the bytes of the regions whose layout the spec gives, at their offsets from the image's base;
the supervisor's edit of them, and the core that a restore reads back. -/

namespace Sys2Proof.Machine

/-- A number with bit k set for each k below n that a test selects. -/
def bitsOf (n : Nat) (f : Nat → Bool) : Nat := (List.range n).foldl (fun acc k => if f k then acc + 2 ^ k else acc) 0

/-- The header of a save image (R333), for context `ctx`; `unres` says that the context cannot be resumed (R24). -/
def Core.imageHeader (c : Core) (ctx : Nat) (unres : Bool) : Bytes :=
  leBytes 8 (ctx % 2 ^ 24) ++ wordBytes (c.causeWord ||| 0x2000#64) ++ leBytes 8 c.ts ++ wordBytes c.x.k.pc ++ leBytes 8 (max c.x.next c.ts) ++
  wordBytes (c.saved.getD c.a).k.pc ++
  leBytes 8 ((if unres then 1 else 0) + (if c.saved.isSome then 2 else 0) + (if c.x.k.exited then 4 else 0) + (if c.a.k.exited then 8 else 0)) ++
  leBytes 8 (bitsOf 64 fun n => (c.bank n).held) ++
  leBytes 16 ((List.range 64).foldl (fun acc n => acc + (c.bank n).ty % 4 * 4 ^ n) 0) ++
  leBytes 8 (bitsOf 64 fun o => (c.slot o).claimed) ++ leBytes 8 (bitsOf 64 fun o => (c.slot o).claimed && (c.slot o).ready) ++
  leBytes 8 c.sys.spmask.toNat ++ leBytes 8 (bitsOf 8 fun i => sget 0 i c.e.drain != 0)

/-- The filled entries of a queue, w bytes each from an offset up. -/
def Queue.imageBytes (q : Queue) (at_ w : Nat) : Memory :=
  q.es.zipIdx.flatMap fun e => if e.1.filled then bytesAt (at_ + w * e.2) (leBytes w e.1.val.toNat) else []

/-- Where the filled entries of a queue stand in its region, w bytes each. -/
def Queue.imageHas (q : Queue) (at_ w : Nat) : List (Nat × Nat) := (q.es.zipIdx.filter fun e => e.1.filled).map fun e => (at_ + w * e.2, w)

/-- The regions of queues with their entries' bytes. DESIGN CHOICE, log entry 101. -/
def queueRegions : List (Nat × Nat × Nat) :=
  ([0, 1, 2, 3, 4, 5, 6, 7, 8, 9, 10, 11, 18].zipIdx.map fun q => (q.1, 0x2000 + 2048 * q.2, 128)) ++
  ([12, 13, 14, 15, 16, 17, 19, 20].zipIdx.map fun q => (q.1, 0x8800 + 256 * q.2, 8))

/-- The image of a core when its group is descheduled: what the stop wrote, and every other region; what the save engine finds in error is not
delivered to it (R90, R134, R332). DESIGN CHOICE, log entry 99. DESIGN CHOICE, log entry 101. -/
def State.saveImage (s : State) (n ctx : Nat) (unres : Bool) : Memory :=
  let c := s.core n
  let good (kind k : Nat) : Bool := !s.bad.contains (kind, n, k)
  let row (v : Nat) : Row := sget 0#1024 v c.e.v
  let kept (lo hi : Nat) : Memory := c.image.filter fun e => decide (lo ≤ e.1) && decide (e.1 < hi)
  bytesAt 0 (c.imageHeader ctx unres) ++
  (queueRegions.flatMap fun q => (c.queue q.1).imageBytes q.2.1 q.2.2) ++
  ((List.range 256).flatMap fun l =>
    let d : Desc := sget {} l c.e.desc
    bytesAt (0xA000 + 32 * l) (wordBytes d.w0 ++ wordBytes d.w1 ++ wordBytes d.w2 ++ wordBytes d.w3)) ++
  ((List.range 4).flatMap fun t => match sget none t c.e.tabs with
    | some tab => bytesAt (0xC000 + 4096 * t) ((Land.iptab t tab).bytes 0)
    | none => []) ++
  kept 0x10000 0xD0000 ++
  ((List.range 64).flatMap fun a =>
    if (c.bank a).held && good 3 a then (List.range 16).flatMap fun i => bytesAt (0xD0000 + 2048 * a + 128 * i) (rowBytes (row (16 * a + i))) else []) ++
  ((c.e.slotMem.filter fun e => (c.slot (e.1 / 8192)).claimed && good 2 (e.1 / 8192)).map fun e => (0xF0000 + e.1, e.2)) ++
  ((c.sp.filter fun e => c.bankOwner (e.1 / 65536) == c.owner && (sget ({} : Bank) (e.1 / 65536) c.banks).live && good 1 (e.1 / 64)).map
    fun e => (0x170000 + e.1, e.2)) ++
  kept 0x374000 0x376000

/-- Which parts of the image of a core stand after it has been saved, by offset and length (R332, R333). DESIGN CHOICE, log entry 99.
DESIGN CHOICE, log entry 101. -/
def State.saveHas (s : State) (n : Nat) : List (Nat × Nat) :=
  let c := s.core n
  let good (kind k : Nat) : Bool := !s.bad.contains (kind, n, k)
  [(0, 0x1000)] ++ (queueRegions.flatMap fun q => (c.queue q.1).imageHas q.2.1 q.2.2) ++ [(0xA000, 0x2000)] ++
  ((List.range 4).filterMap fun t => (sget none t c.e.tabs).map fun tab => (0xC000 + 4096 * t, ((Land.iptab t tab).bytes 0).length)) ++
  (c.imageHas.filter fun e => (decide (0x10000 ≤ e.1) && decide (e.1 < 0xD0000)) || decide (0x374000 ≤ e.1)) ++
  (((List.range 64).filter fun a => (c.bank a).held && good 3 a).map fun a => (0xD0000 + 2048 * a, 2048)) ++
  (((List.range 64).filter fun o => (c.slot o).claimed && good 2 o).map fun o => (0xF0000 + 8192 * o, 8192)) ++
  ((List.range 32).filter fun b => c.bankOwner b == c.owner && (sget ({} : Bank) b c.banks).live).flatMap fun b =>
    if s.bad.any fun e => e.1 == 1 && e.2.1 == n && e.2.2 / 1024 == b then
      ((List.range 1024).filter fun l => good 1 (1024 * b + l)).map fun l => (0x170000 + 65536 * b + 64 * l, 64)
    else [(0x170000 + 65536 * b, 65536)]

/-- The first uncorrectable error that the save engine finds in what it writes of a core: a scratchpad line or a slot is named by its address (R90, R315). -/
def State.saveBad (s : State) (n : Nat) : Option Cause :=
  let c := s.core n
  (s.bad.find? fun b => b.2.1 == n &&
    ((b.1 == 1 && c.bankOwner (b.2.2 / 1024) == c.owner && (sget ({} : Bank) (b.2.2 / 1024) c.banks).live) ||
     (b.1 == 2 && (c.slot b.2.2).claimed) || (b.1 == 3 && (c.bank b.2.2).held) || (b.1 == 5 && sget 0 b.2.2 c.e.drain != 0))).map fun b =>
    { (if b.1 = 2 then slotBad n b.2.2 else { cause := 0x20, addr := if b.1 = 1 then spPointer n (64 * b.2.2) else 0#64 }) with engine := 6 }

/-- A core as the save engine leaves it: its image, and the engine's own cause where it finds an error. DESIGN CHOICE, log entry 99. -/
def State.savedCore (s : State) (n ctx : Nat) (unres : Bool) : Core :=
  let s := match s.saveBad n with | some k => s.modCore n fun c => c.joinCause k | none => s
  { s.core n with image := s.saveImage n ctx unres, imageHas := s.saveHas n }

/-- A saved context whose code is gone: bit 0 of the flags (R24, R333). -/
def Core.markGone (c : Core) : Core := { c with image := Memory.write c.image 0x30 (Memory.read c.image 0x30 ||| 1#8) }

/-- One core's image after the supervisor's edit (R332, R333): bytes of its bank 31, the record count, and the banks and slots it keeps. -/
def Core.supervised (c : Core) (e : CoreEdit) : Core :=
  let m := e.bank31.foldl (fun m b => if b.1 < 65536 then Memory.write m (0x360000 + b.1) b.2 else m) c.image
  let m := Memory.store m 0x360038 (leBytes 8 e.n)
  let m := Memory.store m 0x38 (wordBytes (Memory.word m 0x38 &&& e.held))
  { c with image := Memory.store m 0x50 (wordBytes (Memory.word m 0x50 &&& e.claim)) }

/-- The scratchpad that an image holds. -/
def Core.imageSp (c : Core) : Memory :=
  (c.image.filter fun e => decide (0x170000 ≤ e.1) && decide (e.1 < 0x370000)).map fun e => (e.1 - 0x170000, e.2)

/-- A saved core whose survey is to be reissued as its image now holds it; a handler's own is what its RESUME names (R329, R332). -/
def Core.asked (c : Core) : Core :=
  let d : Core := { c with sp := c.imageSp }
  if c.saved.isSome then c else { c with edited := some (d.survey (Memory.word d.sp 0x1F0038).toNat) }

/-! ### The image in memory (R332, R390) -/

/-- The save image that holds a physical address: context, core, offset. DESIGN CHOICE, log entry 101. -/
def State.imageAt (s : State) (a : Nat) : Option (Nat × Nat × Nat) :=
  s.groups.findSome? fun g => g.cores.findSome? fun n =>
    let b := 8192 * Config.imagePage g.num n
    if b ≤ a ∧ a < b + 0x380000 then some (g.num, n, a - b) else none

/-- The core whose image a context has reserved: as it was saved, or as it runs. -/
def State.imageCore (s : State) (ctx n : Nat) : Core :=
  match (s.grp? ctx).bind fun g => g.images.find? fun e => e.1 == n with
  | some e => e.2
  | none => s.core n

/-- A byte of an image: what was written there, else an unspecified value (R332). -/
def Core.imageByte (c : Core) (ctx n off : Nat) : Byte :=
  if c.imageHas.any fun e => decide (e.1 ≤ off) && decide (off < e.1 + e.2) then Memory.read c.image off else Config.imageByte ctx n c.ts off

/-- Bytes of physical HBM as a management core reads them (R332, R390). -/
def State.mgmtRead (s : State) (a k : Nat) : Bytes :=
  match s.imageAt a with
  | some (ctx, n, off) => (List.range k).map fun i => (s.imageCore ctx n).imageByte ctx n (off + i)
  | none => s.readPlace (.hbm a) k

/-- Bytes written into an image. -/
def Core.imageStore (c : Core) (off : Nat) (d : Bytes) : Core :=
  { c with image := Memory.store c.image off d, imageHas := (off, d.length) :: c.imageHas }

/-- Bytes that a management core writes to physical HBM (R332, R390). -/
def State.mgmtWrite (s : State) (a : Nat) (d : Bytes) : State :=
  match s.imageAt a with
  | some (ctx, n, off) =>
    if (s.grp? ctx).any fun g => g.images.isEmpty then s.modCore n fun c => c.imageStore off d
    else s.modGrp ctx fun g => { g with images := g.images.map fun e => if e.1 = n then (n, e.2.imageStore off d) else e }
  | none => (s.writePlace outsider (.hbm a) d).writeGood (.hbm a) d.length

/-- A saved core with what its image holds: the held banks with their types and rows, the claimed slots with their bytes, SPMASK, the descriptors and
the scratchpad; what the image does not hold is free from `seed` on (R133, R333). DESIGN CHOICE, log entry 96. -/
def Core.readImage (c : Core) (seed : Nat) : Core :=
  let m := c.image
  let on (a k : Nat) : Bool := (Memory.word m a).getLsbD k
  let rowAt (v : Nat) : Row := if on 0x38 (v / 16) then rowOf (Memory.bytes m (0xD0000 + 128 * v) 128) else Config.freeRow (seed + v)
  let slotByte (k : Nat) : Byte := if on 0x50 (k / 8192) then Memory.read m (0xF0000 + k) else Config.freeByte (seed + k)
  { c with
    sp := c.imageSp
    sys := { c.sys with spmask := (Memory.word m 0x60).setWidth 32 }
    e := { c.e with
      v := (List.range 1024).foldl (fun st v => sset 0#1024 v (rowAt v) st) []
      acc := (List.range 64).foldl (fun st a =>
        let b := c.bank a
        sset {} a (if on 0x38 a then { b with held := true, ty := Memory.le m 0x40 16 / 4 ^ a % 4 } else { b with held := false, ty := 0 }) st) []
      slot := (List.range 64).foldl (fun st o => sset {} o { c.slot o with claimed := on 0x50 o, ready := on 0x50 o && on 0x58 o } st) []
      slotMem := (List.range 524288).foldl (fun st k => Memory.write st k (slotByte k)) []
      desc := (List.range 256).foldl (fun st l =>
        let w (i : Nat) : Word := Memory.word m (0xA000 + 32 * l + 8 * i)
        sset {} l { w0 := w 0, w1 := w 1, w2 := w 2, w3 := w 3 } st) [] } }

/-- What the survey of a saved core comes to as its image now stands (R327, R332). -/
def Core.imageCheck (c : Core) : Nat × Nat :=
  ({ c with sp := c.imageSp } : Core).surveyCheck (Memory.word c.imageSp 0x1F0038).toNat

end Sys2Proof.Machine
end

