-- ==== Sys2Proof/Machine/Legends.lean ====
section
/-! DEFINITION. Format words (R230, R231, R84), legends and their descriptors (R212 to R219), and the values that builds and lookups
compute exactly (R213, R214, R236 to R241). -/

namespace Sys2Proof.Machine

/-! ### Format words (R230) -/

/-- Bits of a word as a number. -/
def bitsAt (w : Word) (lo n : Nat) : Nat := w.toNat / 2 ^ lo % 2 ^ n

def fwA (w : Word) : Nat := bitsAt w 60 4
def fwB (w : Word) : Nat := bitsAt w 56 4
def fwASgn (w : Word) : Bool := w.getLsbD 55
def fwBSgn (w : Word) : Bool := w.getLsbD 54
def fwPlanes (w : Word) : Nat := bitsAt w 50 4
def fwSat (w : Word) : Bool := w.getLsbD 49
/-- ACC: 1 for an I32 accumulator. -/
def fwInt (w : Word) : Bool := w.getLsbD 48
def fwRnd (w : Word) : Nat := bitsAt w 44 4
def fwFlush (w : Word) : Bool := w.getLsbD 43
def fwRows (w : Word) : Nat := bitsAt w 39 4 + 1
def fwCols (w : Word) : Nat := bitsAt w 34 5 + 1
def fwCb (w : Word) : Nat := bitsAt w 28 6
def fwPslot (w : Word) : Nat := bitsAt w 22 6
def fwZps (w : Word) : Nat := bitsAt w 20 2
def fwDms (w : Word) : Nat := bitsAt w 18 2
def fwOut (w : Word) : Nat := bitsAt w 15 3

/-- The plane count of a plane-mode B format (R83); 0 for the others. -/
def planesOf (b : Nat) : Nat := match b with | 3 => 8 | 4 => 4 | 5 => 2 | 6 => 1 | 7 => 8 | 8 => 6 | 9 => 4 | _ => 0

/-- What every consumer requires of a format word (R84, R231). -/
def fwOk (w : Word) : Bool :=
  decide (fwA w ≤ 3) && decide (3 ≤ fwB w) && decide (fwB w ≤ 11) &&
  (if fwB w ≤ 9 then fwPlanes w == planesOf (fwB w)
   else if fwB w = 10 then fwPlanes w == 1 else fwPlanes w == 1 || fwPlanes w == 2) &&
  (!fwInt w || (fwA w == 3 && fwB w ≤ 6)) &&
  decide (fwRnd w ≤ 4) && decide (fwZps w ≤ 1) && decide (fwDms w ≤ 2) && decide (fwOut w ≤ 5) && bitsAt w 0 15 == 0

/-- Column size C of a B format in bytes (R236). -/
def colBytes (b : Nat) : Nat := match b with | 3 => 64 | 4 => 32 | 5 => 16 | 6 => 8 | 7 => 68 | 8 => 52 | 9 => 36 | 10 => 8 | _ => 16

/-- Segments per slot of a B format (R236). -/
def segLimit (b : Nat) : Nat := match b with | 3 => 4 | 4 => 8 | 5 => 16 | 6 => 32 | 7 => 3 | 8 => 4 | 9 => 7 | 10 => 32 | _ => 16

/-! ### Descriptors (R218, R219) -/

def Core.desc (c : Core) (l : Nat) : Desc := sget {} l c.e.desc
/-- Entry e of legend l. -/
def Core.entry (c : Core) (l e : Nat) : BitVec 32 := sget 0#32 (256 * l + e) c.e.ent

def Desc.valid (d : Desc) : Bool := d.w2.getLsbD 63
def Desc.kind (d : Desc) : Nat := bitsAt d.w2 61 2
def Desc.slotSrc (d : Desc) : Bool := d.w2.getLsbD 60
def Desc.src (d : Desc) : Nat := bitsAt d.w2 54 6
def Desc.cbSlot (d : Desc) : Nat := bitsAt d.w2 40 6
def Desc.k (d : Desc) : Nat := bitsAt d.w2 31 9

/-- Word 2 of a descriptor (R218). -/
def descWord2 (kind : Nat) (slotSrc : Bool) (src row group cbs cbslot k : Nat) (int sgn : Bool) : Word :=
  BitVec.ofNat 64 (2 ^ 63 + kind * 2 ^ 61 + (if slotSrc then 2 ^ 60 else 0) + src * 2 ^ 54 + row * 2 ^ 50 + group * 2 ^ 47 + cbs * 2 ^ 46 +
    cbslot * 2 ^ 40 + k * 2 ^ 31 + (if int then 2 ^ 30 else 0) + if sgn then 2 ^ 29 else 0)

/-- The first condition of R219 that a legend fails. -/
def Core.legendFault (c : Core) (l : Nat) : Option Cause :=
  let d := c.desc l
  let gen := if d.slotSrc then (c.slot d.src).gen else (c.bank d.src).gen
  if !d.valid then some { cause := 0x11, detail := BitVec.ofNat 64 l, legend := some l }
  else if bitsAt d.w3 32 32 ≠ gen then some { cause := 0x12, detail := BitVec.ofNat 64 l, legend := some l }
  else if d.kind = 2 ∧ bitsAt d.w3 0 32 ≠ (c.slot d.cbSlot).gen then some { cause := 0x12, detail := BitVec.ofNat 64 l, legend := some l }
  else none

/-- R219 over legends l to l + n − 1, in ascending order. -/
def Core.legendsFault (c : Core) (l n : Nat) : Option Cause := (List.range n).findSome? fun i => c.legendFault (l + i)

/-! ### Activations and builds (R213, R214, R216) -/

/-- The 64 activations of a row under an A format, subnormals flushed when asked (R75, R216). -/
def activations (fw : Word) (row : Row) : List Val :=
  let fl (f : Fmt) (c : Nat) : Val := f.dec (if fwFlush fw then f.flush c else c)
  match fwA fw with
  | 0 => (lanes 16 64 row).map fun c => fl bf16 c.toNat
  | 1 => (lanes 8 64 row).map fun c => fl f8e4 c.toNat
  | 2 => (lanes 8 64 row).map fun c => fl f8e5 c.toNat
  | _ => (lanes 8 64 row).map fun c => Val.ofInt (if fwASgn fw then c.toInt else c.toNat)

/-- An FP32 sum, rounded RNE after each addition (R88, R213). -/
def sumF32 : List Val → Nat
  | [] => 0
  | a :: t => t.foldl (fun acc v => f32.enc 0 (Val.add 0 (f32.dec acc) v)) (f32.enc 0 a)

/-- The integer of a finite value. -/
def valInt (v : Val) : Int := match v with | .fin d => d.roundInt 1 | _ => 0

/-- Entry i of a group of four activations (R213). -/
def planeEntry (int sgn : Bool) (acts : List Val) (i : Nat) : BitVec 32 :=
  let terms := if sgn then acts.mapIdx fun t a => if i / 2 ^ t % 2 = 1 then a else a.neg
    else (acts.zipIdx.filter fun p => i / 2 ^ p.2 % 2 = 1).map (·.1)
  if int then BitVec.ofInt 32 ((terms.map valInt).foldl (· + ·) 0) else BitVec.ofNat 32 (sumF32 terms)

/-- The 256 entries of a plane-mode legend over one row (R213). -/
def planeLegend (fw : Word) (row : Row) : List (BitVec 32) :=
  let acts := activations fw row
  (List.range 256).map fun e => planeEntry (fwA fw == 3) (fwB fw == 6) ((acts.drop (4 * (e / 16))).take 4) (e % 16)

/-- Centroid element t of centroid j of a codebook image (R82). -/
def centroid (book : Bytes) (j t : Nat) : Nat := leNat ((book.drop (16 * j + 2 * t)).take 2)

/-- The centroid count of a codebook image (R214). -/
def centroids (book : Bytes) : Nat := ((List.range 256).find? fun j => centroid book j 0 == 0xFFFF).getD 256

/-- The 256 entries of a codebook legend over group g of a row (R214). -/
def bookLegend (fw : Word) (book : Bytes) (k : Nat) (row : Row) (g : Nat) : List (BitVec 32) :=
  let acts := ((activations fw row).drop (8 * g)).take 8
  (List.range 256).map fun j =>
    if k ≤ j then 0#32
    else encF32 0 (Val.sum 0 (acts.mapIdx fun t a => Val.mul a (bf16.dec (centroid book j t))))

/-! ### Lookups (R236 to R241) -/

/-- The bytes of column j of a segment, as a number (R236). -/
def Core.column (c : Core) (o b seg j : Nat) : Nat :=
  Memory.le c.e.slotMem (8192 * o + seg * 32 * colBytes b + j * colBytes b) (colBytes b)

/-- Bit of plane k of element n of a column of a non-BX format (R85). -/
def planeBit (b col k n : Nat) : Bool :=
  match b with
  | 3 => packed col 8 n / 2 ^ k % 2 == 1
  | 4 => packed col 4 n / 2 ^ k % 2 == 1
  | 5 => packed col 2 n == (if k = 0 then 1 else 3)
  | _ => packed col 1 n == 1

/-- The 4-bit index of a group from a test on its four elements. -/
def index4 (test : Nat → Bool) (g : Nat) : Nat := (List.range 4).foldl (fun acc t => if test (4 * g + t) then acc + 2 ^ t else acc) 0

/-- The weight of plane k (R85, R239). -/
def planeWeight (fw : Word) (k : Nat) : Int :=
  let b := fwB fw
  let top := if b ≥ 7 then bxM b - 1 else planesOf b - 1
  if b = 5 then (if k = 0 then 1 else -1)
  else if b = 6 then 1
  else if k = top && (b ≥ 7 || fwBSgn fw) then -(2 ^ k : Nat) else (2 ^ k : Nat)

/-- A legend entry as a value under the format word (R238). -/
def Core.entryVal (c : Core) (fw : Word) (l e : Nat) : Val :=
  if fwA fw = 3 && fwB fw ≤ 9 then Val.ofInt (c.entry l e).toInt else decF32 (c.entry l e)

/-- P(i, j, k) of a non-BX format over one column (R238). -/
def Core.planeSum (c : Core) (fw : Word) (l col k : Nat) : Val :=
  Val.mul (Val.ofInt (planeWeight fw k))
    (treeSum (fwRnd fw) ((List.range 16).map fun g => c.entryVal fw l (16 * g + index4 (planeBit (fwB fw) col k) g)))

/-- P(i, j, k) of a BX format over one column of two blocks (R239). -/
def Core.bxSum (c : Core) (fw : Word) (l col k : Nat) : Val :=
  let b := fwB fw
  let m := bxM b
  let n := bxBytes b
  let block (h : Nat) : Nat := col / 2 ^ (8 * n * h) % 2 ^ (8 * n)
  let el (e : Nat) : Nat := packed (block (e / 32) / 65536) (m + 1) (e % 32)
  let term (sg g : Nat) : Val :=
    let idx := index4 (fun e => decide (el e / 2 ^ m = sg) && el e / 2 ^ k % 2 == 1) g
    let ex := block (g / 8) / 256 ^ sg % 256
    (c.entryVal fw l (16 * g + idx)).scale ((ex : Int) - 127 - (m - 2 : Nat))
  Val.mul (Val.ofInt (planeWeight fw k)) (Val.sum (fwRnd fw) ((List.range 32).map fun q => term (q / 16) (q % 16)))

/-- Whether a BX column holds a NaN block (R79, R239). -/
def bxNan (b col : Nat) : Bool :=
  let n := bxBytes b
  let block (h : Nat) : Nat := col / 2 ^ (8 * n * h) % 2 ^ (8 * n)
  [block 0 % 256, block 0 / 256 % 256, block 1 % 256, block 1 / 256 % 256].contains 255

/-- What MLU adds to element (i, j): the planes in ascending order, or a NaN block (R238, R239). -/
def Core.mluAt (c : Core) (fw : Word) (l o seg i j : Nat) : Option (List Val) :=
  let b := fwB fw
  let col := c.column o b seg j
  if b ≥ 7 then
    if bxNan b col then none else some ((List.range (bxM b)).map fun k => c.bxSum fw (l + i) col k)
  else some ((List.range (fwPlanes fw)).map fun k => c.planeSum fw (l + i) col k)

/-- The code bytes that MLUC reads for a group of a column: one or two (R82, R236). -/
def bookCodes (b col g : Nat) : List Nat := if b = 10 then [packed col 8 g] else [packed col 8 (2 * g), packed col 8 (2 * g + 1)]

/-- The legends and entries of one element of MLUC (R241). -/
def mlucReads (fw : Word) (l col i : Nat) : List (Nat × Nat) :=
  (List.range 8).flatMap fun g => (bookCodes (fwB fw) col g).mapIdx fun n u => (l + 8 * fwRows fw * n + 8 * i + g, u)

/-- Whether a code of an active row and column selects at or above its legend's K (R214, R241). A plane-built legend, which has none, counts as K = 0
(DESIGN CHOICE, log entry 128). -/
def Core.mlucRange (c : Core) (fw : Word) (l o seg : Nat) : Bool :=
  (List.range (fwCols fw)).any fun j =>
    let col := c.column o (fwB fw) seg j
    (List.range (fwRows fw)).any fun i => (mlucReads fw l col i).any fun p => (c.desc p.1).k ≤ p.2

/-- What MLUC adds to element (i, j) (R241). -/
def Core.mlucAt (c : Core) (fw : Word) (l o seg i j : Nat) : Option (List Val) :=
  some [Val.sum (fwRnd fw) ((mlucReads fw l (c.column o (fwB fw) seg j) i).map fun p => decF32 (c.entry p.1 p.2))]

/-- accum(e, P) on a lane code (R240). -/
def accum (fw : Word) (e : Nat) (p : Val) : Nat :=
  if fwInt fw then
    let r := (BitVec.ofNat 32 e).toInt + valInt p
    (BitVec.ofInt 32 (if fwSat fw then clampI (sMin 32) (sMax 32) r else r)).toNat
  else
    let r := f32.enc (fwRnd fw) (Val.add (fwRnd fw) (f32.dec e) p)
    if fwFlush fw then f32.flush r else r

/-- Row sums of LGSUM (R226): an exact sum of the 16 group sums in the destination's type. -/
def Core.rowSum (c : Core) (ty l : Nat) : Nat :=
  if ty = 0 then f32.enc 0 (Val.sum 0 ((List.range 16).map fun g => decF32 (c.entry l (16 * g + 15))))
  else (BitVec.ofInt 32 (clampI (sMin 32) (sMax 32) ((List.range 16).foldl (fun acc g => acc + (c.entry l (16 * g + 15)).toInt) 0))).toNat

/-! ### Drain arithmetic (R245 to R247) -/

/-- The parameter rows of a slot, as lane codes (R245). -/
def Core.param (c : Core) (o row lane : Nat) : Nat := Memory.le c.e.slotMem (8192 * o + 128 * row + 4 * lane) 4

/-- convert of a value under OUT, as bytes (R247). -/
def drainOut (fw : Word) (v : Val) : Bytes :=
  let rm := fwRnd fw
  match fwOut fw with
  | 0 =>
    if fwInt fw then leBytes 4 (BitVec.ofInt 32 (clampI (sMin 32) (sMax 32) (valInt v))).toNat
    else leBytes 4 (let r := f32.enc rm v; if fwFlush fw then f32.flush r else r)
  | 1 => [BitVec.ofInt 8 (v.toIntSat rm 0 255)]
  | 2 => [BitVec.ofInt 8 (v.toIntSat rm (-128) 127)]
  | 3 => leBytes 2 (bf16.enc rm v)
  | 4 => [BitVec.ofNat 8 (f8e4.encSat rm v)]
  | _ => [BitVec.ofNat 8 (f8e5.encSat rm v)]

/-- The exact value of element (i, j) before convert (R246). -/
def Core.drainVal (c : Core) (fw : Word) (a i j : Nat) : Val :=
  let rm := fwRnd fw
  let o := fwPslot fw
  let x := (lane 32 j (c.row (16 * a + i))).toNat
  if fwInt fw then
    let par (row ln : Nat) : Int := (BitVec.ofNat 32 (c.param o row ln)).toInt
    let v0 := (BitVec.ofNat 32 x).toInt
    let v1 := if fwZps fw = 1 then v0 - par 2 j * par 3 i else v0
    let jj := if fwDms fw = 1 then j else 0
    if fwDms fw = 0 then Val.ofInt v1
    else Val.ofInt ((Dy.ofInt (v1 * par 0 jj) (-((c.param o 1 jj % 64 : Nat) : Int))).roundInt rm + par 4 0)
  else
    let par (row ln : Nat) : Val := f32.dec (c.param o row ln)
    let v0 := f32.dec x
    let v1 := if fwZps fw = 1 then Val.add rm v0 (Val.mul (par 2 j) (par 3 i)).neg else v0
    let jj := if fwDms fw = 1 then j else 0
    if fwDms fw = 0 then v1 else Val.add rm (Val.mul v1 (par 0 jj)) (par 4 0)

/-- A converted tile row and the mask of its active bytes (R247). -/
def Core.drainRow (c : Core) (fw : Word) (a i : Nat) : Row × Row :=
  let bs := (List.range (fwCols fw)).flatMap fun j => drainOut fw (c.drainVal fw a i j)
  (rowOf (List.replicate bs.length 0xFF#8), rowOf bs)

end Sys2Proof.Machine
end

