-- ==== Sys2Proof/Machine/InterpTables.lean ====
section
/-! DEFINITION. The knots k_0 to k_256 of the eight built-in interpolation functions: FP32 of f(x_j), correctly rounded to
nearest-even from the exact value (R207). The codes were computed from the definitions of R207 with 110 decimal digits. -/

namespace Sys2Proof.Machine

/-- Knots 0 on of GELU (R207). -/
def geluKnots0 : List Nat := [
  0xA7B34E96, 0xA8137DC8, 0xA871B1D7, 0xA8C5428B, 0xA9205DA6, 0xA981DCF3, 0xA9D180D2, 0xAA2854F9, 0xAA86B932, 0xAAD6CED9,
  0xAB2A9484, 0xAB86EDF5, 0xABD4A034, 0xAC26E065, 0xAC827591, 0xACCB2E82, 0xAD1D9A58, 0xAD738ABE, 0xADBB6FA2, 0xAE0FB11E,
  0xAE5B73DC, 0xAEA6EC86, 0xAEFCF1DC, 0xAF3EE5F1, 0xAF8F821F, 0xAFD6EC05, 0xB0204EA8, 0xB06E34EA, 0xB0B049C0, 0xB101F43F,
  0xB13ED8C3, 0xB18B9672, 0xB1CB64B3, 0xB2139A3A, 0xB255643D, 0xB299A5F1, 0xB2DC656C, 0xB31D7392, 0xB360160D, 0xB39ED5FF,
  0xB3E049EC, 0xB41DBC70, 0xB45CFE43, 0xB49A33C8, 0xB4D659EF, 0xB5146597, 0xB54CAA83, 0xB58C94F3, 0xB5C05E5D, 0xB603196C,
  0xB631FC8E, 0xB670B178, 0xB6A21B39, 0xB6D97F6D, 0xB7115588, 0xB741767D, 0xB7804203, 0xB7A963AB, 0xB7DED45F, 0xB811FC9A,
  0xB83E880C, 0xB877AFA4, 0xB8A05B52, 0xB8CED0A4, 0xB904D6BD]

/-- Knots 65 on of GELU (R207). -/
def geluKnots1 : List Nat := [
  0xB929F88E, 0xB9589ED6, 0xB9897D2E, 0xB9ADD5E0, 0xB9DAEAB0, 0xBA094BC6, 0xBA2B86F4, 0xBA557028, 0xBA8443A9, 0xBAA344BC,
  0xBAC8BB9D, 0xBAF5CDAE, 0xBB15E447, 0xBB361288, 0xBB5C44E4, 0xBB84B34C, 0xBB9F3DBF, 0xBBBE5028, 0xBBE2852A, 0xBC064197,
  0xBC1E7DC0, 0xBC3A5477, 0xBC5A26F6, 0xBC7E590F, 0xBC93A7D0, 0xBCAAB758, 0xBCC48B9E, 0xBCE1524D, 0xBD009A63, 0xBD122B40,
  0xBD25699A, 0xBD3A5E7C, 0xBD510D16, 0xBD6971AE, 0xBD81C045, 0xBD8F9270, 0xBD9E1FE1, 0xBDAD5395, 0xBDBD1288, 0xBDCD3B52,
  0xBDDDA5D8, 0xBDEE2317, 0xBDFE7D08, 0xBE073B51, 0xBE0EE605, 0xBE16196B, 0xBE1CAD40, 0xBE227686, 0xBE2747DB, 0xBE2AF1F3,
  0xBE2D4418, 0xBE2E0CC0, 0xBE2D1A2C, 0xBE2A3B12, 0xBE253F50, 0xBE1DF8A2, 0xBE143B52, 0xBE07DEED, 0xBDF17DCB, 0xBDCD765D,
  0xBDA3718E, 0xBD6688B6, 0xBCF33DFE, 0x00000000, 0x3D066101]

/-- Knots 130 on of GELU (R207). -/
def geluKnots2 : List Nat := [
  0x3D8CBBA5, 0x3DDC8E72, 0x3E1944D1, 0x3E47411A, 0x3E782113, 0x3E95E257, 0x3EB103AF, 0x3ECD6058, 0x3EEAE277, 0x3F04B975,
  0x3F147CD0, 0x3F24AEFA, 0x3F354383, 0x3F462E09, 0x3F57625F, 0x3F68D4B0, 0x3F7A79A5, 0x3F86233F, 0x3F8F1896, 0x3F981830,
  0x3FA11DCF, 0x3FAA25A2, 0x3FB32C4B, 0x3FBC2ED7, 0x3FC52AC7, 0x3FCE1E02, 0x3FD706D9, 0x3FDFE3FC, 0x3FE8B473, 0x3FF17797,
  0x3FFA2D0C, 0x40016A5A, 0x4005B753, 0x4009FD96, 0x400E3D5B, 0x401276E9, 0x4016AA91, 0x401AD8B0, 0x401F01A7, 0x402325D9,
  0x402745AC, 0x402B6182, 0x402F79BE, 0x40338EBD, 0x4037A0D8, 0x403BB061, 0x403FBDA6, 0x4043C8EF, 0x4047D27B, 0x404BDA87,
  0x404FE146, 0x4053E6E9, 0x4057EB97, 0x405BEF78, 0x405FF2A9, 0x4063F548, 0x4067F76B, 0x406BF929, 0x406FFA91, 0x4073FBB4,
  0x4077FC9E, 0x407BFD58, 0x407FFDED, 0x4081FF31, 0x4083FF60]

/-- Knots 195 on of GELU (R207). -/
def geluKnots3 : List Nat := [
  0x4085FF84, 0x4087FFA1, 0x4089FFB7, 0x408BFFC8, 0x408DFFD6, 0x408FFFE0, 0x4091FFE8, 0x4093FFEE, 0x4095FFF2, 0x4097FFF6,
  0x4099FFF8, 0x409BFFFA, 0x409DFFFC, 0x409FFFFD, 0x40A1FFFE, 0x40A3FFFE, 0x40A5FFFF, 0x40A7FFFF, 0x40A9FFFF, 0x40AC0000,
  0x40AE0000, 0x40B00000, 0x40B20000, 0x40B40000, 0x40B60000, 0x40B80000, 0x40BA0000, 0x40BC0000, 0x40BE0000, 0x40C00000,
  0x40C20000, 0x40C40000, 0x40C60000, 0x40C80000, 0x40CA0000, 0x40CC0000, 0x40CE0000, 0x40D00000, 0x40D20000, 0x40D40000,
  0x40D60000, 0x40D80000, 0x40DA0000, 0x40DC0000, 0x40DE0000, 0x40E00000, 0x40E20000, 0x40E40000, 0x40E60000, 0x40E80000,
  0x40EA0000, 0x40EC0000, 0x40EE0000, 0x40F00000, 0x40F20000, 0x40F40000, 0x40F60000, 0x40F80000, 0x40FA0000, 0x40FC0000,
  0x40FE0000, 0x41000000]

/-- The knots of GELU over [-8, 8] (R207). PRESUMED, log entry 84. -/
def geluKnots : List Nat := geluKnots0 ++ geluKnots1 ++ geluKnots2 ++ geluKnots3

/-- Knots 0 on of SILU (R207). -/
def siluKnots0 : List Nat := [
  0xB5F1AADC, 0xB607DA53, 0xB618BAB2, 0xB62BB100, 0xB640FED5, 0xB658EDC7, 0xB673D067, 0xB68901A9, 0xB699F734, 0xB6AD0314,
  0xB6C2669D, 0xB6DA6B0E, 0xB6F56283, 0xB709D487, 0xB71AD2EE, 0xB72DE649, 0xB7434F66, 0xB75B56DF, 0xB7764E0C, 0xB78A4806,
  0xB79B4176, 0xB7AE4C7C, 0xB7C3A916, 0xB7DB9EE6, 0xB7F67E20, 0xB80A5042, 0xB81B3541, 0xB82E2640, 0xB843621B, 0xB85B2F22,
  0xB875DBF6, 0xB889E042, 0xB89A9F8B, 0xB8AD62C4, 0xB8C2674F, 0xB8D9F1C2, 0xB8F44EB9, 0xB908E9E2, 0xB9197036, 0xB92BEFAD,
  0xB940A3CB, 0xB957CEF7, 0xB971BB49, 0xB9875DAF, 0xB99795AB, 0xB9A9B8F1, 0xB9BE00B7, 0xB9D4ACBC, 0xB9EE03FD, 0xBA052AC2,
  0xBA14FCA4, 0xBA26A896, 0xBA3A6508, 0xBA506E7E, 0xBA69083F, 0xBA823E83, 0xBA918FEA, 0xBAA2A666, 0xBAB5B514, 0xBACAF4A6,
  0xBAE2A3F4, 0xBAFD089F, 0xBB0D37E2, 0xBB1D975C, 0xBB2FD1EF]

/-- Knots 65 on of SILU (R207). -/
def siluKnots1 : List Nat := [
  0xBB441BC6, 0xBB5AAE82, 0xBB73C9BE, 0xBB87D9D3, 0xBB975CC7, 0xBBA89850, 0xBBBBBB47, 0xBBD0F929, 0xBBE88A7F, 0xBC0156A7,
  0xBC0FD2BF, 0xBC1FDEB2, 0xBC31A316, 0xBC454C31, 0xBC5B0A3B, 0xBC731199, 0xBC86CD92, 0xBC957231, 0xBCA597DC, 0xBCB76256,
  0xBCCAF7FC, 0xBCE081D6, 0xBCF82B9A, 0xBD0911D0, 0xBD174D67, 0xBD26E231, 0xBD37EAD9, 0xBD4A82E6, 0xBD5EC672, 0xBD74D1D3,
  0xBD866090, 0xBD9357D1, 0xBDA15B89, 0xBDB07759, 0xBDC0B519, 0xBDD21C2E, 0xBDE4B0B6, 0xBDF872A1, 0xBE06AE44, 0xBE11B139,
  0xBE1D382B, 0xBE29343A, 0xBE3590C5, 0xBE42326B, 0xBE4EF5FC, 0xBE5BAF67, 0xBE6828A3, 0xBE7420A9, 0xBE7F4A95, 0xBE84A679,
  0xBE88E0B1, 0xBE8C1A51, 0xBE8E1396, 0xBE8E8731, 0xBE8D2B41, 0xBE89B2B1, 0xBE83CEED, 0xBE766409, 0xBE5F2205, 0xBE414D03,
  0xBE1C6A81, 0xBDE02A67, 0xBD700553, 0x00000000, 0x3D87FD56]

/-- Knots 130 on of SILU (R207). -/
def siluKnots2 : List Nat := [
  0x3E0FEACD, 0x3E63957F, 0x3E9F597F, 0x3ED06EFE, 0x3F0266FE, 0x3F1E1889, 0x3F3B26A8, 0x3F596A5F, 0x3F78BC68, 0x3F8C7B1A,
  0x3F9CF96C, 0x3FADC7D4, 0x3FBED662, 0x3FD016AD, 0x3FE17BEB, 0x3FF2FAEC, 0x4002450A, 0x400B10A0, 0x4013DCD9, 0x401CA6F4,
  0x40256CBC, 0x402E2C7D, 0x4036E4EC, 0x403F951C, 0x40483C6B, 0x4050DA7A, 0x40596F1F, 0x4061FA57, 0x406A7C45, 0x4072F524,
  0x407B6541, 0x4081E67E, 0x4086165C, 0x408A4273, 0x408E6AFA, 0x4092902A, 0x4096B23C, 0x409AD165, 0x409EEDDC, 0x40A307D4,
  0x40A71F7E, 0x40AB3508, 0x40AF489E, 0x40B35A68, 0x40B76A8E, 0x40BB7932, 0x40BF8677, 0x40C3927B, 0x40C79D5A, 0x40CBA72E,
  0x40CFB011, 0x40D3B817, 0x40D7BF55, 0x40DBC5DD, 0x40DFCBC2, 0x40E3D111, 0x40E7D5DA, 0x40EBDA29, 0x40EFDE0A, 0x40F3E187,
  0x40F7E4AA, 0x40FBE77D, 0x40FFEA06, 0x4101F627, 0x4103F72D]

/-- Knots 195 on of SILU (R207). -/
def siluKnots3 : List Nat := [
  0x4105F818, 0x4107F8EB, 0x4109F9A8, 0x410BFA52, 0x410DFAEB, 0x410FFB74, 0x4111FBEE, 0x4113FC5C, 0x4115FCBE, 0x4117FD16,
  0x4119FD65, 0x411BFDAC, 0x411DFDEB, 0x411FFE24, 0x4121FE57, 0x4123FE84, 0x4125FEAD, 0x4127FED1, 0x4129FEF1, 0x412BFF0E,
  0x412DFF28, 0x412FFF3F, 0x4131FF54, 0x4133FF67, 0x4135FF77, 0x4137FF86, 0x4139FF93, 0x413BFF9F, 0x413DFFA9, 0x413FFFB3,
  0x4141FFBB, 0x4143FFC3, 0x4145FFC9, 0x4147FFCF, 0x4149FFD4, 0x414BFFD9, 0x414DFFDD, 0x414FFFE1, 0x4151FFE5, 0x4153FFE8,
  0x4155FFEA, 0x4157FFED, 0x4159FFEF, 0x415BFFF1, 0x415DFFF2, 0x415FFFF4, 0x4161FFF5, 0x4163FFF6, 0x4165FFF7, 0x4167FFF8,
  0x4169FFF9, 0x416BFFFA, 0x416DFFFB, 0x416FFFFB, 0x4171FFFC, 0x4173FFFC, 0x4175FFFD, 0x4177FFFD, 0x4179FFFD, 0x417BFFFE,
  0x417DFFFE, 0x417FFFFE]

/-- The knots of SILU over [-16, 16] (R207). PRESUMED, log entry 84. -/
def siluKnots : List Nat := siluKnots0 ++ siluKnots1 ++ siluKnots2 ++ siluKnots3

/-- Knots 0 on of EXP2 (R207). -/
def exp2Knots0 : List Nat := [
  0x2F800000, 0x2F8B95C2, 0x2F9837F0, 0x2FA5FED7, 0x2FB504F3, 0x2FC5672A, 0x2FD744FD, 0x2FEAC0C7, 0x30000000, 0x300B95C2,
  0x301837F0, 0x3025FED7, 0x303504F3, 0x3045672A, 0x305744FD, 0x306AC0C7, 0x30800000, 0x308B95C2, 0x309837F0, 0x30A5FED7,
  0x30B504F3, 0x30C5672A, 0x30D744FD, 0x30EAC0C7, 0x31000000, 0x310B95C2, 0x311837F0, 0x3125FED7, 0x313504F3, 0x3145672A,
  0x315744FD, 0x316AC0C7, 0x31800000, 0x318B95C2, 0x319837F0, 0x31A5FED7, 0x31B504F3, 0x31C5672A, 0x31D744FD, 0x31EAC0C7,
  0x32000000, 0x320B95C2, 0x321837F0, 0x3225FED7, 0x323504F3, 0x3245672A, 0x325744FD, 0x326AC0C7, 0x32800000, 0x328B95C2,
  0x329837F0, 0x32A5FED7, 0x32B504F3, 0x32C5672A, 0x32D744FD, 0x32EAC0C7, 0x33000000, 0x330B95C2, 0x331837F0, 0x3325FED7,
  0x333504F3, 0x3345672A, 0x335744FD, 0x336AC0C7, 0x33800000]

/-- Knots 65 on of EXP2 (R207). -/
def exp2Knots1 : List Nat := [
  0x338B95C2, 0x339837F0, 0x33A5FED7, 0x33B504F3, 0x33C5672A, 0x33D744FD, 0x33EAC0C7, 0x34000000, 0x340B95C2, 0x341837F0,
  0x3425FED7, 0x343504F3, 0x3445672A, 0x345744FD, 0x346AC0C7, 0x34800000, 0x348B95C2, 0x349837F0, 0x34A5FED7, 0x34B504F3,
  0x34C5672A, 0x34D744FD, 0x34EAC0C7, 0x35000000, 0x350B95C2, 0x351837F0, 0x3525FED7, 0x353504F3, 0x3545672A, 0x355744FD,
  0x356AC0C7, 0x35800000, 0x358B95C2, 0x359837F0, 0x35A5FED7, 0x35B504F3, 0x35C5672A, 0x35D744FD, 0x35EAC0C7, 0x36000000,
  0x360B95C2, 0x361837F0, 0x3625FED7, 0x363504F3, 0x3645672A, 0x365744FD, 0x366AC0C7, 0x36800000, 0x368B95C2, 0x369837F0,
  0x36A5FED7, 0x36B504F3, 0x36C5672A, 0x36D744FD, 0x36EAC0C7, 0x37000000, 0x370B95C2, 0x371837F0, 0x3725FED7, 0x373504F3,
  0x3745672A, 0x375744FD, 0x376AC0C7, 0x37800000, 0x378B95C2]

/-- Knots 130 on of EXP2 (R207). -/
def exp2Knots2 : List Nat := [
  0x379837F0, 0x37A5FED7, 0x37B504F3, 0x37C5672A, 0x37D744FD, 0x37EAC0C7, 0x38000000, 0x380B95C2, 0x381837F0, 0x3825FED7,
  0x383504F3, 0x3845672A, 0x385744FD, 0x386AC0C7, 0x38800000, 0x388B95C2, 0x389837F0, 0x38A5FED7, 0x38B504F3, 0x38C5672A,
  0x38D744FD, 0x38EAC0C7, 0x39000000, 0x390B95C2, 0x391837F0, 0x3925FED7, 0x393504F3, 0x3945672A, 0x395744FD, 0x396AC0C7,
  0x39800000, 0x398B95C2, 0x399837F0, 0x39A5FED7, 0x39B504F3, 0x39C5672A, 0x39D744FD, 0x39EAC0C7, 0x3A000000, 0x3A0B95C2,
  0x3A1837F0, 0x3A25FED7, 0x3A3504F3, 0x3A45672A, 0x3A5744FD, 0x3A6AC0C7, 0x3A800000, 0x3A8B95C2, 0x3A9837F0, 0x3AA5FED7,
  0x3AB504F3, 0x3AC5672A, 0x3AD744FD, 0x3AEAC0C7, 0x3B000000, 0x3B0B95C2, 0x3B1837F0, 0x3B25FED7, 0x3B3504F3, 0x3B45672A,
  0x3B5744FD, 0x3B6AC0C7, 0x3B800000, 0x3B8B95C2, 0x3B9837F0]

/-- Knots 195 on of EXP2 (R207). -/
def exp2Knots3 : List Nat := [
  0x3BA5FED7, 0x3BB504F3, 0x3BC5672A, 0x3BD744FD, 0x3BEAC0C7, 0x3C000000, 0x3C0B95C2, 0x3C1837F0, 0x3C25FED7, 0x3C3504F3,
  0x3C45672A, 0x3C5744FD, 0x3C6AC0C7, 0x3C800000, 0x3C8B95C2, 0x3C9837F0, 0x3CA5FED7, 0x3CB504F3, 0x3CC5672A, 0x3CD744FD,
  0x3CEAC0C7, 0x3D000000, 0x3D0B95C2, 0x3D1837F0, 0x3D25FED7, 0x3D3504F3, 0x3D45672A, 0x3D5744FD, 0x3D6AC0C7, 0x3D800000,
  0x3D8B95C2, 0x3D9837F0, 0x3DA5FED7, 0x3DB504F3, 0x3DC5672A, 0x3DD744FD, 0x3DEAC0C7, 0x3E000000, 0x3E0B95C2, 0x3E1837F0,
  0x3E25FED7, 0x3E3504F3, 0x3E45672A, 0x3E5744FD, 0x3E6AC0C7, 0x3E800000, 0x3E8B95C2, 0x3E9837F0, 0x3EA5FED7, 0x3EB504F3,
  0x3EC5672A, 0x3ED744FD, 0x3EEAC0C7, 0x3F000000, 0x3F0B95C2, 0x3F1837F0, 0x3F25FED7, 0x3F3504F3, 0x3F45672A, 0x3F5744FD,
  0x3F6AC0C7, 0x3F800000]

/-- The knots of EXP2 over [-32, 0] (R207). PRESUMED, log entry 84. -/
def exp2Knots : List Nat := exp2Knots0 ++ exp2Knots1 ++ exp2Knots2 ++ exp2Knots3

/-- Knots 0 on of RCP (R207). -/
def rcpKnots0 : List Nat := [
  0x3F800000, 0x3F7F00FF, 0x3F7E03F8, 0x3F7D08E5, 0x3F7C0FC1, 0x3F7B1885, 0x3F7A232D, 0x3F792FB2, 0x3F783E10, 0x3F774E40,
  0x3F76603E, 0x3F757404, 0x3F74898D, 0x3F73A0D5, 0x3F72B9D6, 0x3F71D48C, 0x3F70F0F1, 0x3F700F01, 0x3F6F2EB7, 0x3F6E500F,
  0x3F6D7304, 0x3F6C9791, 0x3F6BBDB3, 0x3F6AE564, 0x3F6A0EA1, 0x3F693965, 0x3F6865AC, 0x3F679373, 0x3F66C2B4, 0x3F65F36D,
  0x3F652598, 0x3F645933, 0x3F638E39, 0x3F62C4A7, 0x3F61FC78, 0x3F6135AA, 0x3F607038, 0x3F5FAC1F, 0x3F5EE95C, 0x3F5E27EB,
  0x3F5D67C9, 0x3F5CA8F1, 0x3F5BEB62, 0x3F5B2F17, 0x3F5A740E, 0x3F59BA42, 0x3F5901B2, 0x3F584A5A, 0x3F579436, 0x3F56DF44,
  0x3F562B81, 0x3F5578E9, 0x3F54C77B, 0x3F541733, 0x3F53680D, 0x3F52BA08, 0x3F520D21, 0x3F516154, 0x3F50B6A0, 0x3F500D01,
  0x3F4F6475, 0x3F4EBCF9, 0x3F4E168A, 0x3F4D7127, 0x3F4CCCCD]

/-- Knots 65 on of RCP (R207). -/
def rcpKnots1 : List Nat := [
  0x3F4C2978, 0x3F4B8728, 0x3F4AE5D8, 0x3F4A4588, 0x3F49A634, 0x3F4907DA, 0x3F486A79, 0x3F47CE0C, 0x3F473294, 0x3F46980C,
  0x3F45FE74, 0x3F4565C8, 0x3F44CE08, 0x3F443730, 0x3F43A13E, 0x3F430C31, 0x3F427806, 0x3F41E4BC, 0x3F415250, 0x3F40C0C1,
  0x3F40300C, 0x3F3FA030, 0x3F3F112B, 0x3F3E82FA, 0x3F3DF59D, 0x3F3D6910, 0x3F3CDD53, 0x3F3C5264, 0x3F3BC841, 0x3F3B3EE7,
  0x3F3AB656, 0x3F3A2E8C, 0x3F39A786, 0x3F392144, 0x3F389BC3, 0x3F381703, 0x3F379301, 0x3F370FBB, 0x3F368D31, 0x3F360B61,
  0x3F358A48, 0x3F3509E7, 0x3F348A3A, 0x3F340B41, 0x3F338CFA, 0x3F330F63, 0x3F32927C, 0x3F321643, 0x3F319AB6, 0x3F311FD4,
  0x3F30A59B, 0x3F302C0B, 0x3F2FB322, 0x3F2F3ADE, 0x3F2EC33E, 0x3F2E4C41, 0x3F2DD5E6, 0x3F2D602B, 0x3F2CEB10, 0x3F2C7692,
  0x3F2C02B0, 0x3F2B8F6A, 0x3F2B1CBE, 0x3F2AAAAB, 0x3F2A392F]

/-- Knots 130 on of RCP (R207). -/
def rcpKnots2 : List Nat := [
  0x3F29C84A, 0x3F2957FB, 0x3F28E83F, 0x3F287917, 0x3F280A81, 0x3F279C7B, 0x3F272F05, 0x3F26C21E, 0x3F2655C4, 0x3F25E9F7,
  0x3F257EB5, 0x3F2513FD, 0x3F24A9CF, 0x3F244029, 0x3F23D70A, 0x3F236E72, 0x3F23065E, 0x3F229ECF, 0x3F2237C3, 0x3F21D13A,
  0x3F216B31, 0x3F2105A9, 0x3F20A0A1, 0x3F203C17, 0x3F1FD80A, 0x3F1F747A, 0x3F1F1166, 0x3F1EAECD, 0x3F1E4CAD, 0x3F1DEB07,
  0x3F1D89D9, 0x3F1D2922, 0x3F1CC8E1, 0x3F1C6917, 0x3F1C09C1, 0x3F1BAADF, 0x3F1B4C70, 0x3F1AEE73, 0x3F1A90E8, 0x3F1A33CD,
  0x3F19D723, 0x3F197AE7, 0x3F191F1A, 0x3F18C3BB, 0x3F1868C8, 0x3F180E41, 0x3F17B426, 0x3F175A75, 0x3F17012E, 0x3F16A850,
  0x3F164FDA, 0x3F15F7CC, 0x3F15A025, 0x3F1548E5, 0x3F14F209, 0x3F149B93, 0x3F144581, 0x3F13EFD2, 0x3F139A86, 0x3F13459C,
  0x3F12F114, 0x3F129CEC, 0x3F124925, 0x3F11F5BD, 0x3F11A2B4]

/-- Knots 195 on of RCP (R207). -/
def rcpKnots3 : List Nat := [
  0x3F115009, 0x3F10FDBC, 0x3F10ABCC, 0x3F105A38, 0x3F100901, 0x3F0FB824, 0x3F0F67A2, 0x3F0F177A, 0x3F0EC7AB, 0x3F0E7835,
  0x3F0E2918, 0x3F0DDA52, 0x3F0D8BE3, 0x3F0D3DCB, 0x3F0CF009, 0x3F0CA29C, 0x3F0C5584, 0x3F0C08C1, 0x3F0BBC51, 0x3F0B7034,
  0x3F0B246B, 0x3F0AD8F3, 0x3F0A8DCD, 0x3F0A42F8, 0x3F09F874, 0x3F09AE41, 0x3F09645C, 0x3F091AC7, 0x3F08D181, 0x3F088889,
  0x3F083FDE, 0x3F07F781, 0x3F07AF70, 0x3F0767AB, 0x3F072033, 0x3F06D905, 0x3F069223, 0x3F064B8A, 0x3F06053C, 0x3F05BF37,
  0x3F05797C, 0x3F053408, 0x3F04EEDD, 0x3F04A9FA, 0x3F04655E, 0x3F042108, 0x3F03DCF9, 0x3F039930, 0x3F0355AD, 0x3F03126F,
  0x3F02CF75, 0x3F028CC0, 0x3F024A4E, 0x3F020821, 0x3F01C636, 0x3F01848E, 0x3F014328, 0x3F010204, 0x3F00C122, 0x3F008081,
  0x3F004020, 0x3F000000]

/-- The knots of RCP over [1, 2] (R207). PRESUMED, log entry 84. -/
def rcpKnots : List Nat := rcpKnots0 ++ rcpKnots1 ++ rcpKnots2 ++ rcpKnots3

/-- Knots 0 on of RSQRT (R207). -/
def rsqrtKnots0 : List Nat := [
  0x3F800000, 0x3F7E8358, 0x3F7D0D3E, 0x3F7B9D83, 0x3F7A33F9, 0x3F78D075, 0x3F7772CB, 0x3F761AD3, 0x3F74C867, 0x3F737B60,
  0x3F723399, 0x3F70F0F1, 0x3F6FB345, 0x3F6E7A74, 0x3F6D4660, 0x3F6C16EA, 0x3F6AEBF5, 0x3F69C565, 0x3F68A31D, 0x3F678505,
  0x3F666B02, 0x3F6554FC, 0x3F6442DB, 0x3F633488, 0x3F6229ED, 0x3F6122F3, 0x3F601F87, 0x3F5F1F93, 0x3F5E2305, 0x3F5D29C8,
  0x3F5C33CC, 0x3F5B40FD, 0x3F5A514A, 0x3F5964A3, 0x3F587AF7, 0x3F579436, 0x3F56B051, 0x3F55CF39, 0x3F54F0DF, 0x3F541535,
  0x3F533C2E, 0x3F5265BB, 0x3F5191D1, 0x3F50C062, 0x3F4FF162, 0x3F4F24C5, 0x3F4E5A7F, 0x3F4D9285, 0x3F4CCCCD, 0x3F4C094B,
  0x3F4B47F4, 0x3F4A88BF, 0x3F49CBA2, 0x3F491092, 0x3F485787, 0x3F47A078, 0x3F46EB5A, 0x3F463826, 0x3F4586D3, 0x3F44D759,
  0x3F4429AF, 0x3F437DCD, 0x3F42D3AD, 0x3F422B45, 0x3F41848F]

/-- Knots 65 on of RSQRT (R207). -/
def rsqrtKnots1 : List Nat := [
  0x3F40DF84, 0x3F403C1C, 0x3F3F9A51, 0x3F3EFA1C, 0x3F3E5B76, 0x3F3DBE58, 0x3F3D22BE, 0x3F3C889F, 0x3F3BEFF7, 0x3F3B58C0,
  0x3F3AC2F3, 0x3F3A2E8C, 0x3F399B84, 0x3F3909D6, 0x3F38797D, 0x3F37EA74, 0x3F375CB5, 0x3F36D03D, 0x3F364505, 0x3F35BB09,
  0x3F353245, 0x3F34AAB4, 0x3F342452, 0x3F339F19, 0x3F331B07, 0x3F329816, 0x3F321643, 0x3F319589, 0x3F3115E5, 0x3F309752,
  0x3F3019CE, 0x3F2F9D53, 0x3F2F21DF, 0x3F2EA76E, 0x3F2E2DFD, 0x3F2DB587, 0x3F2D3E0A, 0x3F2CC782, 0x3F2C51ED, 0x3F2BDD46,
  0x3F2B698A, 0x3F2AF6B7, 0x3F2A84CA, 0x3F2A13C0, 0x3F29A395, 0x3F293446, 0x3F28C5D2, 0x3F285835, 0x3F27EB6D, 0x3F277F76,
  0x3F27144F, 0x3F26A9F4, 0x3F264063, 0x3F25D79A, 0x3F256F96, 0x3F250855, 0x3F24A1D4, 0x3F243C11, 0x3F23D70A, 0x3F2372BD,
  0x3F230F27, 0x3F22AC46, 0x3F224A18, 0x3F21E89B, 0x3F2187CD]

/-- Knots 130 on of RSQRT (R207). -/
def rsqrtKnots2 : List Nat := [
  0x3F2127AC, 0x3F20C835, 0x3F206968, 0x3F200B41, 0x3F1FADC0, 0x3F1F50E1, 0x3F1EF4A4, 0x3F1E9906, 0x3F1E3E06, 0x3F1DE3A2,
  0x3F1D89D9, 0x3F1D30A7, 0x3F1CD80D, 0x3F1C8008, 0x3F1C2896, 0x3F1BD1B6, 0x3F1B7B67, 0x3F1B25A6, 0x3F1AD073, 0x3F1A7BCB,
  0x3F1A27AE, 0x3F19D419, 0x3F19810C, 0x3F192E85, 0x3F18DC82, 0x3F188B03, 0x3F183A05, 0x3F17E988, 0x3F17998A, 0x3F174A0A,
  0x3F16FB06, 0x3F16AC7E, 0x3F165E70, 0x3F1610DA, 0x3F15C3BC, 0x3F157715, 0x3F152AE3, 0x3F14DF25, 0x3F1493D9, 0x3F144900,
  0x3F13FE97, 0x3F13B49E, 0x3F136B13, 0x3F1321F6, 0x3F12D945, 0x3F129100, 0x3F124925, 0x3F1201B3, 0x3F11BAA9, 0x3F117407,
  0x3F112DCA, 0x3F10E7F4, 0x3F10A281, 0x3F105D73, 0x3F1018C6, 0x3F0FD47C, 0x3F0F9092, 0x3F0F4D08, 0x3F0F09DD, 0x3F0EC710,
  0x3F0E84A0, 0x3F0E428D, 0x3F0E00D5, 0x3F0DBF78, 0x3F0D7E75]

/-- Knots 195 on of RSQRT (R207). -/
def rsqrtKnots3 : List Nat := [
  0x3F0D3DCB, 0x3F0CFD79, 0x3F0CBD7F, 0x3F0C7DDC, 0x3F0C3E8F, 0x3F0BFF97, 0x3F0BC0F4, 0x3F0B82A4, 0x3F0B44A7, 0x3F0B06FD,
  0x3F0AC9A4, 0x3F0A8C9D, 0x3F0A4FE5, 0x3F0A137D, 0x3F09D764, 0x3F099B9A, 0x3F09601C, 0x3F0924EC, 0x3F08EA08, 0x3F08AF6F,
  0x3F087522, 0x3F083B1E, 0x3F080165, 0x3F07C7F5, 0x3F078ECD, 0x3F0755ED, 0x3F071D55, 0x3F06E503, 0x3F06ACF7, 0x3F067532,
  0x3F063DB1, 0x3F060674, 0x3F05CF7C, 0x3F0598C7, 0x3F056255, 0x3F052C25, 0x3F04F638, 0x3F04C08B, 0x3F048B1F, 0x3F0455F4,
  0x3F042108, 0x3F03EC5C, 0x3F03B7EE, 0x3F0383BF, 0x3F034FCE, 0x3F031C1A, 0x3F02E8A2, 0x3F02B568, 0x3F028269, 0x3F024FA6,
  0x3F021D1D, 0x3F01EAD0, 0x3F01B8BC, 0x3F0186E2, 0x3F015542, 0x3F0123DA, 0x3F00F2AB, 0x3F00C1B4, 0x3F0090F5, 0x3F00606D,
  0x3F00301B, 0x3F000000]

/-- The knots of RSQRT over [1, 4] (R207). PRESUMED, log entry 84. -/
def rsqrtKnots : List Nat := rsqrtKnots0 ++ rsqrtKnots1 ++ rsqrtKnots2 ++ rsqrtKnots3

/-- Knots 0 on of TANH (R207). -/
def tanhKnots0 : List Nat := [
  0xBF7FFFFC, 0xBF7FFFFC, 0xBF7FFFFB, 0xBF7FFFFB, 0xBF7FFFFA, 0xBF7FFFF9, 0xBF7FFFF8, 0xBF7FFFF7, 0xBF7FFFF6, 0xBF7FFFF4,
  0xBF7FFFF3, 0xBF7FFFF1, 0xBF7FFFEF, 0xBF7FFFED, 0xBF7FFFEA, 0xBF7FFFE7, 0xBF7FFFE4, 0xBF7FFFE0, 0xBF7FFFDC, 0xBF7FFFD7,
  0xBF7FFFD2, 0xBF7FFFCC, 0xBF7FFFC5, 0xBF7FFFBD, 0xBF7FFFB4, 0xBF7FFFAA, 0xBF7FFF9F, 0xBF7FFF92, 0xBF7FFF83, 0xBF7FFF72,
  0xBF7FFF5F, 0xBF7FFF4A, 0xBF7FFF32, 0xBF7FFF16, 0xBF7FFEF7, 0xBF7FFED4, 0xBF7FFEAC, 0xBF7FFE7F, 0xBF7FFE4C, 0xBF7FFE11,
  0xBF7FFDD0, 0xBF7FFD85, 0xBF7FFD30, 0xBF7FFCD1, 0xBF7FFC64, 0xBF7FFBE9, 0xBF7FFB5E, 0xBF7FFAC0, 0xBF7FFA0D, 0xBF7FF942,
  0xBF7FF85C, 0xBF7FF758, 0xBF7FF631, 0xBF7FF4E2, 0xBF7FF367, 0xBF7FF1BA, 0xBF7FEFD4, 0xBF7FEDAC, 0xBF7FEB3C, 0xBF7FE878,
  0xBF7FE556, 0xBF7FE1C9, 0xBF7FDDC4, 0xBF7FD935, 0xBF7FD40C]

/-- Knots 65 on of TANH (R207). -/
def tanhKnots1 : List Nat := [
  0xBF7FCE32, 0xBF7FC791, 0xBF7FC00E, 0xBF7FB78C, 0xBF7FADE8, 0xBF7FA2FB, 0xBF7F969B, 0xBF7F8896, 0xBF7F78B4, 0xBF7F66B6,
  0xBF7F5254, 0xBF7F3B3D, 0xBF7F2115, 0xBF7F0376, 0xBF7EE1E8, 0xBF7EBBE9, 0xBF7E90E0, 0xBF7E6026, 0xBF7E28FB, 0xBF7DEA85,
  0xBF7DA3D0, 0xBF7D53CA, 0xBF7CF939, 0xBF7C92C1, 0xBF7C1ED6, 0xBF7B9BBB, 0xBF7B077E, 0xBF7A5FEB, 0xBF79A28F, 0xBF78CCA7,
  0xBF77DB1E, 0xBF76CA83, 0xBF7596FF, 0xBF743C4F, 0xBF72B5B8, 0xBF70FDFD, 0xBF6F0F5B, 0xBF6CE37D, 0xBF6A737A, 0xBF67B7CC,
  0xBF64A852, 0xBF613C53, 0xBF5D6A85, 0xBF59291E, 0xBF546DE6, 0xBF4F2E5B, 0xBF495FDA, 0xBF42F7D6, 0xBF3BEC1C, 0xBF343328,
  0xBF2BC480, 0xBF22991F, 0xBF18ABF0, 0xBF0DFA3F, 0xBF028438, 0xBEEC9A9F, 0xBED2B94F, 0xBEB77A9F, 0xBE9AFCC5, 0xBE7ACBF5,
  0xBE3DC7FD, 0xBDFEACC9, 0xBD7FAACD, 0x00000000, 0x3D7FAACD]

/-- Knots 130 on of TANH (R207). -/
def tanhKnots2 : List Nat := [
  0x3DFEACC9, 0x3E3DC7FD, 0x3E7ACBF5, 0x3E9AFCC5, 0x3EB77A9F, 0x3ED2B94F, 0x3EEC9A9F, 0x3F028438, 0x3F0DFA3F, 0x3F18ABF0,
  0x3F22991F, 0x3F2BC480, 0x3F343328, 0x3F3BEC1C, 0x3F42F7D6, 0x3F495FDA, 0x3F4F2E5B, 0x3F546DE6, 0x3F59291E, 0x3F5D6A85,
  0x3F613C53, 0x3F64A852, 0x3F67B7CC, 0x3F6A737A, 0x3F6CE37D, 0x3F6F0F5B, 0x3F70FDFD, 0x3F72B5B8, 0x3F743C4F, 0x3F7596FF,
  0x3F76CA83, 0x3F77DB1E, 0x3F78CCA7, 0x3F79A28F, 0x3F7A5FEB, 0x3F7B077E, 0x3F7B9BBB, 0x3F7C1ED6, 0x3F7C92C1, 0x3F7CF939,
  0x3F7D53CA, 0x3F7DA3D0, 0x3F7DEA85, 0x3F7E28FB, 0x3F7E6026, 0x3F7E90E0, 0x3F7EBBE9, 0x3F7EE1E8, 0x3F7F0376, 0x3F7F2115,
  0x3F7F3B3D, 0x3F7F5254, 0x3F7F66B6, 0x3F7F78B4, 0x3F7F8896, 0x3F7F969B, 0x3F7FA2FB, 0x3F7FADE8, 0x3F7FB78C, 0x3F7FC00E,
  0x3F7FC791, 0x3F7FCE32, 0x3F7FD40C, 0x3F7FD935, 0x3F7FDDC4]

/-- Knots 195 on of TANH (R207). -/
def tanhKnots3 : List Nat := [
  0x3F7FE1C9, 0x3F7FE556, 0x3F7FE878, 0x3F7FEB3C, 0x3F7FEDAC, 0x3F7FEFD4, 0x3F7FF1BA, 0x3F7FF367, 0x3F7FF4E2, 0x3F7FF631,
  0x3F7FF758, 0x3F7FF85C, 0x3F7FF942, 0x3F7FFA0D, 0x3F7FFAC0, 0x3F7FFB5E, 0x3F7FFBE9, 0x3F7FFC64, 0x3F7FFCD1, 0x3F7FFD30,
  0x3F7FFD85, 0x3F7FFDD0, 0x3F7FFE11, 0x3F7FFE4C, 0x3F7FFE7F, 0x3F7FFEAC, 0x3F7FFED4, 0x3F7FFEF7, 0x3F7FFF16, 0x3F7FFF32,
  0x3F7FFF4A, 0x3F7FFF5F, 0x3F7FFF72, 0x3F7FFF83, 0x3F7FFF92, 0x3F7FFF9F, 0x3F7FFFAA, 0x3F7FFFB4, 0x3F7FFFBD, 0x3F7FFFC5,
  0x3F7FFFCC, 0x3F7FFFD2, 0x3F7FFFD7, 0x3F7FFFDC, 0x3F7FFFE0, 0x3F7FFFE4, 0x3F7FFFE7, 0x3F7FFFEA, 0x3F7FFFED, 0x3F7FFFEF,
  0x3F7FFFF1, 0x3F7FFFF3, 0x3F7FFFF4, 0x3F7FFFF6, 0x3F7FFFF7, 0x3F7FFFF8, 0x3F7FFFF9, 0x3F7FFFFA, 0x3F7FFFFB, 0x3F7FFFFB,
  0x3F7FFFFC, 0x3F7FFFFC]

/-- The knots of TANH over [-8, 8] (R207). PRESUMED, log entry 84. -/
def tanhKnots : List Nat := tanhKnots0 ++ tanhKnots1 ++ tanhKnots2 ++ tanhKnots3

/-- Knots 0 on of LOG2 (R207). -/
def log2Knots0 : List Nat := [
  0x00000000, 0x3BB84E23, 0x3C37F286, 0x3C89B189, 0x3CB73CB4, 0x3CE49B1E, 0x3D08E68F, 0x3D1F6985, 0x3D35D69C, 0x3D4C2DFE,
  0x3D626FD6, 0x3D789C4C, 0x3D8759C5, 0x3D925ADC, 0x3D9D517F, 0x3DA83DC2, 0x3DB31FB8, 0x3DBDF775, 0x3DC8C50B, 0x3DD3888F,
  0x3DDE4212, 0x3DE8F1A7, 0x3DF39761, 0x3DFE3350, 0x3E0462C4, 0x3E09A70E, 0x3E0EE68D, 0x3E14214A, 0x3E19574F, 0x3E1E88A3,
  0x3E23B550, 0x3E28DD5D, 0x3E2E00D2, 0x3E331FB8, 0x3E383A17, 0x3E3D4FF6, 0x3E42615F, 0x3E476E57, 0x3E4C76E8, 0x3E517B19,
  0x3E567AF1, 0x3E5B7679, 0x3E606DB6, 0x3E6560B2, 0x3E6A4F72, 0x3E6F39FF, 0x3E74205F, 0x3E79029A, 0x3E7DE0B6, 0x3E815D5D,
  0x3E83C857, 0x3E86314C, 0x3E88983F, 0x3E8AFD34, 0x3E8D602E, 0x3E8FC130, 0x3E92203D, 0x3E947D5A, 0x3E96D888, 0x3E9931CB,
  0x3E9B8926, 0x3E9DDE9D, 0x3EA03232, 0x3EA283E8, 0x3EA4D3C2]

/-- Knots 65 on of LOG2 (R207). -/
def log2Knots1 : List Nat := [
  0x3EA721C4, 0x3EA96DF0, 0x3EABB849, 0x3EAE00D2, 0x3EB0478E, 0x3EB28C7F, 0x3EB4CFA9, 0x3EB7110E, 0x3EB950B2, 0x3EBB8E96,
  0x3EBDCABD, 0x3EC0052B, 0x3EC23DE2, 0x3EC474E4, 0x3EC6AA34, 0x3EC8DDD4, 0x3ECB0FC8, 0x3ECD4012, 0x3ECF6EB4, 0x3ED19BB0,
  0x3ED3C70A, 0x3ED5F0C4, 0x3ED818DF, 0x3EDA3F60, 0x3EDC6447, 0x3EDE8797, 0x3EE0A953, 0x3EE2C97D, 0x3EE4E818, 0x3EE70525,
  0x3EE920A6, 0x3EEB3A9F, 0x3EED5311, 0x3EEF69FF, 0x3EF17F6A, 0x3EF39355, 0x3EF5A5C2, 0x3EF7B6B4, 0x3EF9C62B, 0x3EFBD42B,
  0x3EFDE0B6, 0x3EFFEBCD, 0x3F00FAB9, 0x3F01FED4, 0x3F030239, 0x3F0404E8, 0x3F0506E2, 0x3F060828, 0x3F0708BC, 0x3F08089E,
  0x3F0907CF, 0x3F0A0650, 0x3F0B0422, 0x3F0C0146, 0x3F0CFDBE, 0x3F0DF989, 0x3F0EF4A9, 0x3F0FEF1F, 0x3F10E8EB, 0x3F11E20F,
  0x3F12DA8B, 0x3F13D260, 0x3F14C990, 0x3F15C01A, 0x3F16B601]

/-- Knots 130 on of LOG2 (R207). -/
def log2Knots2 : List Nat := [
  0x3F17AB44, 0x3F189FE4, 0x3F1993E3, 0x3F1A8742, 0x3F1B7A00, 0x3F1C6C1F, 0x3F1D5DA0, 0x3F1E4E83, 0x3F1F3ECA, 0x3F202E74,
  0x3F211D84, 0x3F220BF9, 0x3F22F9D5, 0x3F23E718, 0x3F24D3C2, 0x3F25BFD6, 0x3F26AB53, 0x3F27963A, 0x3F28808C, 0x3F296A4A,
  0x3F2A5374, 0x3F2B3C0C, 0x3F2C2411, 0x3F2D0B85, 0x3F2DF268, 0x3F2ED8BC, 0x3F2FBE80, 0x3F30A3B5, 0x3F31885C, 0x3F326C77,
  0x3F335004, 0x3F343306, 0x3F35157D, 0x3F35F769, 0x3F36D8CB, 0x3F37B9A4, 0x3F3899F5, 0x3F3979BD, 0x3F3A58FF, 0x3F3B37B9,
  0x3F3C15EE, 0x3F3CF39D, 0x3F3DD0C8, 0x3F3EAD6E, 0x3F3F8991, 0x3F406531, 0x3F41404F, 0x3F421AEB, 0x3F42F506, 0x3F43CEA0,
  0x3F44A7BA, 0x3F458055, 0x3F465872, 0x3F473010, 0x3F480731, 0x3F48DDD4, 0x3F49B3FB, 0x3F4A89A7, 0x3F4B5ED7, 0x3F4C338C,
  0x3F4D07C7, 0x3F4DDB88, 0x3F4EAED0, 0x3F4F819F, 0x3F5053F7]

/-- Knots 195 on of LOG2 (R207). -/
def log2Knots3 : List Nat := [
  0x3F5125D7, 0x3F51F740, 0x3F52C832, 0x3F5398AF, 0x3F5468B6, 0x3F553848, 0x3F560765, 0x3F56D60F, 0x3F57A446, 0x3F587209,
  0x3F593F5A, 0x3F5A0C3A, 0x3F5AD8A8, 0x3F5BA4A4, 0x3F5C7031, 0x3F5D3B4E, 0x3F5E05FB, 0x3F5ED039, 0x3F5F9A09, 0x3F60636A,
  0x3F612C5E, 0x3F61F4E5, 0x3F62BCFF, 0x3F6384AD, 0x3F644BF0, 0x3F6512C7, 0x3F65D933, 0x3F669F35, 0x3F6764CD, 0x3F6829FB,
  0x3F68EEC1, 0x3F69B31E, 0x3F6A7712, 0x3F6B3A9F, 0x3F6BFDC5, 0x3F6CC083, 0x3F6D82DB, 0x3F6E44CD, 0x3F6F065A, 0x3F6FC781,
  0x3F708843, 0x3F7148A1, 0x3F72089B, 0x3F72C832, 0x3F738765, 0x3F744636, 0x3F7504A4, 0x3F75C2B0, 0x3F76805A, 0x3F773DA4,
  0x3F77FA8C, 0x3F78B714, 0x3F79733C, 0x3F7A2F04, 0x3F7AEA6D, 0x3F7BA578, 0x3F7C6023, 0x3F7D1A71, 0x3F7DD460, 0x3F7E8DF2,
  0x3F7F4728, 0x3F800000]

/-- The knots of LOG2 over [1, 2] (R207). PRESUMED, log entry 84. -/
def log2Knots : List Nat := log2Knots0 ++ log2Knots1 ++ log2Knots2 ++ log2Knots3

/-- Knots 0 on of SIGMOID (R207). -/
def sigmoidKnots0 : List Nat := [
  0x33F1AADC, 0x3408EC2B, 0x341B274F, 0x342FCFDF, 0x3447389A, 0x3461BF40, 0x347FCE10, 0x3490EEB7, 0x34A43AE2, 0x34BA18D3,
  0x34D2E020, 0x34EEF406, 0x3507627D, 0x35196936, 0x352DD660, 0x3544FBCB, 0x355F362C, 0x357CEE8E, 0x358F4DFE, 0x35A262AB,
  0x35B801BB, 0x35D081C7, 0x35EC44EF, 0x3605DD32, 0x3617B013, 0x362BE27E, 0x3642C557, 0x365CB447, 0x367A172D, 0x368DB1DD,
  0x36A08FA6, 0x36B5F082, 0x36CE2A0F, 0x36E99D53, 0x37045C20, 0x3715FBB4, 0x3729F3FB, 0x374094EF, 0x375A3931, 0x37774772,
  0x378C1A08, 0x379EC172, 0x37B3E4AD, 0x37CBD85F, 0x37E6FC72, 0x3802DECC, 0x38144B7C, 0x38280A10, 0x383E6997, 0x3857C3A8,
  0x38747DC5, 0x388A857A, 0x389CF6C3, 0x38B1DC95, 0x38C98A97, 0x38E45F95, 0x3901637B, 0x39129D34, 0x392621E6, 0x393C3FAC,
  0x39554F03, 0x3971B42D, 0x3988F05F, 0x399B2AB1, 0x39AFD1EF]

/-- Knots 65 on of SIGMOID (R207). -/
def sigmoidKnots1 : List Nat := [
  0x39C738A9, 0x39E1BC65, 0x39FFC713, 0x3A10E859, 0x3A243093, 0x3A3A092D, 0x3A52C94B, 0x3A6ED39C, 0x3A874BED, 0x3A994A41,
  0x3AADAC60, 0x3AC4C351, 0x3ADEEAC6, 0x3AFC8A7D, 0x3B0F0BE8, 0x3B220BBC, 0x3B378FC2, 0x3B4FECC9, 0x3B6B82A6, 0x3B855ECA,
  0x3B970BE5, 0x3BAB0D97, 0x3BC1B1A4, 0x3BDB4FB4, 0x3BF84A82, 0x3C0C8895, 0x3C1F104D, 0x3C340294, 0x3C4BAE1F, 0x3C666B21,
  0x3C824E1F, 0x3C9357D1, 0x3CA69009, 0x3CBC3B0A, 0x3CD4A486, 0x3CF02034, 0x3D07852A, 0x3D18E414, 0x3D2C642E, 0x3D4241A2,
  0x3D5ABD73, 0x3D761D6B, 0x3D8A55EB, 0x3D9B5B89, 0x3DAE4868, 0x3DC34695, 0x3DDA8099, 0x3DF420A9, 0x3E0827C7, 0x3E1799AF,
  0x3E287701, 0x3E3ACDC2, 0x3E4EA820, 0x3E640B81, 0x3E7AF791, 0x3E89B2B1, 0x3E96A358, 0x3EA442B1, 0x3EB2819D, 0x3EC14D03,
  0x3ED08E01, 0x3EE02A67, 0x3EF00553, 0x3F000000, 0x3F07FD56]

/-- Knots 130 on of SIGMOID (R207). -/
def sigmoidKnots2 : List Nat := [
  0x3F0FEACD, 0x3F17B900, 0x3F1F597F, 0x3F26BF31, 0x3F2DDEA8, 0x3F34AE54, 0x3F3B26A8, 0x3F41421C, 0x3F46FD20, 0x3F4C55F8,
  0x3F514C90, 0x3F55E240, 0x3F5A1994, 0x3F5DF60E, 0x3F617BEB, 0x3F64AFED, 0x3F67972D, 0x3F6A36F3, 0x3F6C948F, 0x3F6EB543,
  0x3F709E29, 0x3F725429, 0x3F73DBE6, 0x3F7539BD, 0x3F7671BF, 0x3F7787AD, 0x3F787EFE, 0x3F795ADC, 0x3F7A1E28, 0x3F7ACB80,
  0x3F7B6541, 0x3F7BED8F, 0x3F7C6653, 0x3F7CD148, 0x3F7D2FF6, 0x3F7D83BF, 0x3F7DCDDE, 0x3F7E0F6B, 0x3F7E4961, 0x3F7E7C9D,
  0x3F7EA9E5, 0x3F7ED1E8, 0x3F7EF542, 0x3F7F147D, 0x3F7F3013, 0x3F7F4870, 0x3F7F5DF4, 0x3F7F70F4, 0x3F7F81BB, 0x3F7F908B,
  0x3F7F9D9E, 0x3F7FA92A, 0x3F7FB35B, 0x3F7FBC5A, 0x3F7FC44B, 0x3F7FCB4E, 0x3F7FD17E, 0x3F7FD6F4, 0x3F7FDBC6, 0x3F7FE007,
  0x3F7FE3C8, 0x3F7FE719, 0x3F7FEA06, 0x3F7FEC9B, 0x3F7FEEE2]

/-- Knots 195 on of SIGMOID (R207). -/
def sigmoidKnots3 : List Nat := [
  0x3F7FF0E5, 0x3F7FF2AB, 0x3F7FF43C, 0x3F7FF59E, 0x3F7FF6D6, 0x3F7FF7EA, 0x3F7FF8DD, 0x3F7FF9B4, 0x3F7FFA71, 0x3F7FFB18,
  0x3F7FFBAC, 0x3F7FFC2E, 0x3F7FFCA1, 0x3F7FFD06, 0x3F7FFD60, 0x3F7FFDAF, 0x3F7FFDF5, 0x3F7FFE32, 0x3F7FFE68, 0x3F7FFE98,
  0x3F7FFEC2, 0x3F7FFEE8, 0x3F7FFF09, 0x3F7FFF26, 0x3F7FFF3F, 0x3F7FFF56, 0x3F7FFF6A, 0x3F7FFF7C, 0x3F7FFF8B, 0x3F7FFF99,
  0x3F7FFFA5, 0x3F7FFFB0, 0x3F7FFFB9, 0x3F7FFFC1, 0x3F7FFFC9, 0x3F7FFFCF, 0x3F7FFFD5, 0x3F7FFFDA, 0x3F7FFFDF, 0x3F7FFFE2,
  0x3F7FFFE6, 0x3F7FFFE9, 0x3F7FFFEC, 0x3F7FFFEE, 0x3F7FFFF0, 0x3F7FFFF2, 0x3F7FFFF4, 0x3F7FFFF5, 0x3F7FFFF6, 0x3F7FFFF8,
  0x3F7FFFF9, 0x3F7FFFF9, 0x3F7FFFFA, 0x3F7FFFFB, 0x3F7FFFFB, 0x3F7FFFFC, 0x3F7FFFFC, 0x3F7FFFFD, 0x3F7FFFFD, 0x3F7FFFFE,
  0x3F7FFFFE, 0x3F7FFFFE]

/-- The knots of SIGMOID over [-16, 16] (R207). PRESUMED, log entry 84. -/
def sigmoidKnots : List Nat := sigmoidKnots0 ++ sigmoidKnots1 ++ sigmoidKnots2 ++ sigmoidKnots3

end Sys2Proof.Machine
end

