-- ==== Sys2Proof/Machine/Interp.lean ====
section
/-! DEFINITION. The interpolation functions (R205 to R209): tables with knots, slopes and end modes, and their evaluation with
one rounding (R88). -/

namespace Sys2Proof.Machine

/-- A table as IPF uses it: bounds, end modes (0 end knot, 1 +0, 2 x), FP32 knots and slopes. -/
structure ITable where
  lo : Dy
  hi : Dy
  below : Nat
  above : Nat
  knots : List Nat
  slopes : List Nat
deriving DecidableEq, Repr

/-- +0. -/
def zeroVal : Val := .fin { neg := false, man := 0, exp := 0 }

/-- FP32 of d / den, correctly rounded to nearest-even: the quotient is kept to 65 bits and a sticky bit. -/
def quotF32 (d : Dy) (den : Nat) : Nat :=
  let n := d.man * 2 ^ 80
  f32.enc 0 (.fin { neg := d.neg, man := 2 * (n / den) + (if n % den = 0 then 0 else 1), exp := d.exp - 81 })

/-- Slopes of built-in knots over a span of whole units (R207). -/
def slopesOf (span : Nat) : List Nat → List Nat
  | a :: b :: t =>
    (match (Val.add 0 (f32.dec b) (f32.dec a).neg) with
      | .fin d => quotF32 { d with exp := d.exp + 8 } span
      | _ => f32.enc 0 .nan) :: slopesOf span (b :: t)
  | _ => []

/-- A built-in table. -/
def builtin (lo : Int) (span : Nat) (below above : Nat) (ks : List Nat) : ITable :=
  { lo := Dy.ofInt lo 0, hi := Dy.ofInt (lo + span) 0, below := below, above := above, knots := ks, slopes := slopesOf span ks }

/-- The unloaded custom table (R205): lo 0, hi 1, both ends clamp, every knot and slope +0. -/
def unloadedTab : Tab :=
  { lo := 0#32, hi := 0x3F800000#32, below := 0, above := 0, knots := List.replicate 257 0#32, slopes := List.replicate 256 0#32 }

/-- The finite value of an FP32 code, zero where it is none. -/
def finOf (c : BitVec 32) : Dy := match decF32 c with | .fin d => d | _ => Dy.ofInt 0 0

/-- A custom table as IPF uses it (R209). -/
def customTable (t : Tab) : ITable :=
  { lo := finOf t.lo, hi := finOf t.hi, below := t.below, above := t.above,
    knots := t.knots.map (·.toNat), slopes := t.slopes.map (·.toNat) }

/-- The table of a function code (R40, R207). -/
def tableOf (fn : Nat) (tabs : Store (Option Tab)) : ITable :=
  match fn with
  | 0 => builtin (-8) 16 1 2 geluKnots
  | 1 => builtin (-16) 32 1 2 siluKnots
  | 2 => builtin (-32) 32 0 0 exp2Knots
  | 3 => builtin 1 1 0 0 rcpKnots
  | 4 => builtin 1 3 0 0 rsqrtKnots
  | 5 => builtin (-8) 16 0 0 tanhKnots
  | 6 => builtin 1 1 0 0 log2Knots
  | 7 => builtin (-16) 32 0 0 sigmoidKnots
  | n => customTable ((sget none (n - 8) tabs).getD unloadedTab)

/-- The result beyond an end of the table (R207, R209). -/
def endResult (mode knot : Nat) (x : Val) : Nat :=
  match mode with
  | 0 => f32.enc 0 (f32.dec knot)
  | 1 => 0
  | _ => f32.enc 0 x

/-- j := floor((x - lo)·256 / (hi - lo)) (R208). -/
def segment (lo hi x : Dy) : Nat :=
  let a := Dy.add 0 x { lo with neg := !lo.neg }
  let b := Dy.add 0 hi { lo with neg := !lo.neg }
  let e := min a.exp b.exp
  (a.intAt e * 256 / b.intAt e).toNat

/-- x_j := lo + j·(hi - lo)/256 (R207). -/
def knotAt (lo hi : Dy) (j : Nat) : Dy :=
  let b := Dy.add 0 hi { lo with neg := !lo.neg }
  Dy.add 0 lo { neg := b.neg, man := b.man * j, exp := b.exp - 8 }

/-- eval(T, x): the FP32 code of the interpolated value (R208); a stored NaN knot comes out as the canonical NaN (R74, R209). DEDUCED, log entry 34. -/
def evalTable (t : ITable) (x : Val) : Nat :=
  let x := match x with | .fin d => if d.man = 0 then zeroVal else x | _ => x
  match x with
  | .nan => f32.enc 0 .nan
  | .inf s => if s then endResult t.below (t.knots.getD 0 0) x else endResult t.above (t.knots.getD 256 0) x
  | .fin d =>
    if Dy.lt d t.lo then endResult t.below (t.knots.getD 0 0) x
    else if Dy.lt t.hi d then endResult t.above (t.knots.getD 256 0) x
    else if !Dy.lt d t.hi then f32.enc 0 (f32.dec (t.knots.getD 256 0))
    else
      let j := segment t.lo t.hi d
      let xj := knotAt t.lo t.hi j
      let dx := Val.add 0 x (Val.fin xj).neg
      f32.enc 0 (Val.add 0 (f32.dec (t.knots.getD j 0)) (Val.mul dx (f32.dec (t.slopes.getD j 0))))

/-- IPF on a row of type F32 (ty 0) or B16 (ty 2): the second rounding of B16 is to BF16 (R208). -/
def interpRow (t : ITable) (ty : Nat) (r : Row) : Row :=
  if ty = 0 then ofLanes 32 ((lanes 32 32 r).map fun c => BitVec.ofNat 32 (evalTable t (decF32 c)))
  else ofLanes 16 ((lanes 16 64 r).map fun c => encB16 0 (f32.dec (evalTable t (decB16 c))))

end Sys2Proof.Machine
end

