-- ==== Sys2Proof/Machine/Moves.lean ====
section
/-! DEFINITION. The I class (R202 to R209): queue moves between the X-stream and its queues, and the interpolation engine. -/

namespace Sys2Proof.Machine

/-! ### Token operations at issue (R40, R141) -/

/-- A token pop waits while its channel is empty (R141). DEDUCED, log entry 24. -/
def State.tokenChk (s : State) (tkop : BitVec 2) (ch : BitVec 4) : Chk :=
  if tkop = 2#2 ∧ s.me.tokens ch.toNat = 0 then .waits (.token ch.toNat) else .ok

/-- A token pop takes its token (R141). -/
def State.takeToken (s : State) (tkop : BitVec 2) (ch : BitVec 4) : State :=
  if tkop = 2#2 then s.modMe fun c => c.setTokens ch.toNat (c.tokens ch.toNat - 1) else s

/-- The channel a syllable pushes at retirement. -/
def pushCh (tkop : BitVec 2) (ch : BitVec 4) : Option Nat := if tkop = 1#2 then some ch.toNat else none

/-! ### Pops and pushes (R138, R139, R203) -/

/-- The check of a pop by mode: strict underflows, stall waits, flag goes on (R138). -/
def State.popChk (s : State) (q : Nat) (md : BitVec 2) : Chk :=
  if (s.me.head q s.ctx.tick).isSome || md == 2#2 then .ok
  else if md = 1#2 then .waits (.pop q) else .fault { cause := 0x08 }

/-- The check of a push by mode (R138). -/
def State.pushChk (s : State) (q : Nat) (md : BitVec 2) : Chk :=
  if s.me.full q then if md = 1#2 then .waits (.room q) else .fault { cause := 0x09 } else .ok

/-- A pop whose guard is true (R203): the value and, in flag mode, the c pair land after two vector cycles. -/
def State.popTo (s : State) (q : Nat) (md : BitVec 2) (pk : BitVec 1) (cf : BitVec 3) (tkop : BitVec 2) (ch : BitVec 4) (wide : Bool)
    (chk : Chk) (dest : Row → Land) : State :=
  s.gate ((chk.seq (s.popChk q md)).seq (s.tokenChk tkop ch)) fun s =>
    let h := s.me.head q s.ctx.tick
    let v := (h.map (·.val)).getD 0#1024
    let s := if h.isSome && pk == 0#1 then s.modMe fun c => c.pop q else s
    let flags := if md = 2#2 then [Land.creg cf.toNat h.isNone, .creg (cf.toNat + 1) h.isSome] else []
    let s := s.takeToken tkop ch
    s.fly { s.op 4 2 (s.me.divisor 1) (dest v :: flags) with wide := wide, push := pushCh tkop ch }

/-- A push whose guard is true (R203): its entry is reserved at issue and present after one vector cycle. -/
def State.pushFrom (s : State) (q : Nat) (md : BitVec 2) (tkop : BitVec 2) (ch : BitVec 4) (wide : Bool) (chk : Chk) (v : State → Row) :
    State :=
  s.gate ((chk.seq (s.pushChk q md)).seq (s.tokenChk tkop ch)) fun s =>
    let v := v s
    let (c, n) := s.me.reserve q emptyEntry
    let s := (s.modMe fun _ => c).takeToken tkop ch
    s.fly { s.op 4 1 (s.me.divisor 1) [.entries q [(n, v)] none] with wide := wide, push := pushCh tkop ch }

/-- A whole row as a landing. -/
def wholeRow (r : Nat) (v : Row) : Land := .rows [(r, BitVec.allOnes 1024, v)]

/-- VPOP (R202). -/
def execVpop (g : BitVec 4) (vr : BitVec 10) (q : BitVec 4) (md : BitVec 2) (pk : BitVec 1) (cf : BitVec 3) (tkop : BitVec 2) (tkch : BitVec 4)
    (s : State) : Result :=
  let r := s.vrow vr
  .next (if s.guardM g then s.popTo q.toNat md pk cf tkop tkch true (s.heldOk [r]) (wholeRow r) else s)

/-- YPOP (R202). -/
def execYpop (g : BitVec 4) (vr : BitVec 10) (md : BitVec 2) (pk : BitVec 1) (cf : BitVec 3) (tkop : BitVec 2) (tkch : BitVec 4)
    (s : State) : Result :=
  let r := s.vrow vr
  .next (if s.guardM g then s.popTo 18 md pk cf tkop tkch true (s.heldOk [r]) (wholeRow r) else s)

/-- SPOP (R202). -/
def execSpop (g : BitVec 4) (sg : BitVec 5) (q : BitVec 4) (md : BitVec 2) (pk : BitVec 1) (cf : BitVec 3) (tkop : BitVec 2) (tkch : BitVec 4)
    (s : State) : Result :=
  .next (if s.guardM g then
    s.popTo (12 + q.toNat) md pk cf tkop tkch false (s.regsOk [sg]) fun v => s.xLand sg (v.setWidth 64) else s)

/-- CPOP (R202). -/
def execCpop (g : BitVec 4) (sg : BitVec 5) (md : BitVec 2) (pk : BitVec 1) (cf : BitVec 3) (tkop : BitVec 2) (tkch : BitVec 4)
    (s : State) : Result :=
  .next (if s.guardM g then
    s.popTo 19 md pk cf tkop tkch false (s.regsOk [sg]) fun v => s.xLand sg (v.setWidth 64) else s)

/-- VPUSH (R202). -/
def execVpush (g : BitVec 4) (vr : BitVec 10) (q : BitVec 4) (md : BitVec 2) (tkop : BitVec 2) (tkch : BitVec 4) (s : State) : Result :=
  let r := s.vrow vr
  .next (if s.guardM g then
    s.pushFrom (8 + q.toNat) md tkop tkch true ((s.heldOk [r]).seq (s.rowsGood [r])) fun s => s.me.row r else s)

/-- APUSH (R202). -/
def execApush (g : BitVec 4) (sg : BitVec 5) (q : BitVec 4) (md : BitVec 2) (tkop : BitVec 2) (tkch : BitVec 4) (s : State) : Result :=
  .next (if s.guardM g then
    s.pushFrom (16 + q.toNat) md tkop tkch false (s.regsOk [sg]) fun s => (s.reg sg).setWidth 1024 else s)

/-! ### The interpolation engine (R205 to R210) -/

/-- IPSEL: the selection changes after one vector cycle (R206). DEDUCED, log entry 24. -/
def execIpsel (g fn : BitVec 4) (tkop : BitVec 2) (tkch : BitVec 4) (s : State) : Result :=
  .next (if s.guardM g then
    s.gate (s.tokenChk tkop tkch) fun s =>
      let s := s.takeToken tkop tkch
      s.fly { s.op 4 1 (s.me.divisor 1) [.ipsel fn.toNat] with push := pushCh tkop tkch }
  else s)

/-- The table in a slot (R209). -/
def State.slotTable (s : State) (o : Nat) : Tab :=
  let m := s.me.e.slotMem
  let a := 8192 * o
  let f (off : Nat) : BitVec 32 := BitVec.ofNat 32 (Memory.le m (a + off) 4)
  { lo := f 0, hi := f 4, below := (Memory.read m (a + 8)).toNat, above := (Memory.read m (a + 9)).toNat,
    knots := (List.range 257).map fun j => f (0x10 + 4 * j), slopes := (List.range 256).map fun j => f (0x414 + 4 * j) }

/-- Whether a slot's table may be loaded: finite lo < hi, end modes 0 to 2, zero reserved bytes (R209). -/
def State.tableOk (s : State) (o : Nat) : Bool :=
  let t := s.slotTable o
  (match decF32 t.lo, decF32 t.hi with | .fin a, .fin b => Dy.lt a b | _, _ => false) && t.below ≤ 2 && t.above ≤ 2 &&
  Memory.le s.me.e.slotMem (8192 * o + 10) 6 == 0

/-- IPLD (R209): the slot claimed, then ready, then a well-formed table; it replaces the custom table after 8 vector cycles. DEDUCED, log entry 24. -/
def execIpld (g fn : BitVec 4) (o : BitVec 6) (tkop : BitVec 2) (tkch : BitVec 4) (s : State) : Result :=
  let n := o.toNat
  .next (if s.guardM g then
    s.gate ((s.tokenChk tkop tkch).seq
        ((Chk.need (s.me.slot n).claimed 0x10).andThen ((Chk.need (s.me.slot n).ready 0x0A).andThen
          ((if s.bad.contains (2, s.ctx.core, n) then Chk.fault (slotBad s.ctx.core n) else Chk.ok).andThen (Chk.need (s.tableOk n) 0x0C))))) fun s =>
      let s := s.takeToken tkop tkch
      s.fly { s.op 4 8 (s.me.divisor 1) [.iptab (fn.toNat - 8) (s.slotTable n)] with wide := true, push := pushCh tkop tkch }
  else s)

/-- IPF (R208): an entry of y0 is reserved at issue and filled after 12 vector cycles with the row evaluated under the selection
at issue; a B16 row occupies the engine for two cycles. DEDUCED, log entry 12. -/
def execIpf (g : BitVec 4) (vs : BitVec 10) (tkop : BitVec 2) (tkch : BitVec 4) (s : State) : Result :=
  let r := s.vrow vs
  let ty := s.me.rowType r
  .next (if s.guardM g then
    s.gate (((((s.heldOk [r]).seq (Chk.need (ty == 0 || ty == 2) 0x0D)).seq (Chk.need (!s.me.full 18) 0x09)).seq
        ((Chk.need (decide (s.me.e.ipfEnd ≤ s.ctx.tick)) 0x0A).seq (s.rowsGood [r]))).seq (s.tokenChk tkop tkch)) fun s =>
      let d := s.me.divisor 1
      let v := interpRow (tableOf s.me.e.ipsel s.me.e.tabs) ty (s.me.row r)
      let (c, n) := s.me.reserve 18 emptyEntry
      let s := (s.modMe fun _ => { c with e := { c.e with ipfEnd := s.ctx.tick + (if ty = 0 then d else 2 * d) } }).takeToken tkop tkch
      s.fly { s.op 4 12 d [.entries 18 [(n, v)] none] with wide := true, push := pushCh tkop tkch }
  else s)

end Sys2Proof.Machine
end

