-- ==== Sys2Proof/Machine/Matrix.lean ====
section
/-! DEFINITION. The M class (R131, R221 to R248): banks and slots, format words, legend moves, and the MX syllables with the checks
they make at their start tick (R234, R223). -/

namespace Sys2Proof.Machine

/-! ### Banks and slots (R131, R132) -/

/-- An M-class syllable of fixed latency in matrix cycles. -/
def State.mat (s : State) (lat : Nat) (wide : Bool) (lands : List Land) : State :=
  s.fly { s.op 3 lat (s.me.divisor 2) lands with wide := wide }

/-- ACQ (R132). -/
def execAcq (g : BitVec 4) (n : BitVec 6) (ty : BitVec 2) (z : BitVec 1) (s : State) : Result :=
  .next (if s.guardM g then s.mat 1 false [.acq n.toNat ty.toNat (z == 1#1)] else s)

/-- AREL (R132). -/
def execArel (g : BitVec 4) (n : BitVec 6) (s : State) : Result := .next (if s.guardM g then s.mat 1 false [.arel n.toNat] else s)

/-- OCLAIM (R132). -/
def execOclaim (g : BitVec 4) (n : BitVec 6) (s : State) : Result := .next (if s.guardM g then s.mat 1 false [.oclaim n.toNat] else s)

/-- OREL (R132). -/
def execOrel (g : BitVec 4) (n : BitVec 6) (s : State) : Result := .next (if s.guardM g then s.mat 1 false [.orel n.toNat] else s)

/-- OWR: the row is read at issue and written after two matrix cycles (R227). -/
def execOwr (g : BitVec 4) (o row : BitVec 6) (vs : BitVec 10) (s : State) : Result :=
  let r := s.vrow vs
  .next (if s.guardM g then
    s.gate ((s.heldOk [r]).seq (s.rowsGood [r])) fun s => s.mat 2 true [.slot o.toNat (128 * row.toNat) (rowBytes (s.me.row r))] else s)

/-! ### Format words (R232, R233) -/

/-- Push a format word: reserved at issue, in FQ after one matrix cycle. -/
def State.pushFw (s : State) (chk : Chk) (w : State → Word) : State :=
  s.gate (chk.seq (Chk.need (!s.me.full 20) 0x09)) fun s =>
    let v := (w s).setWidth 1024
    let (c, n) := s.me.reserve 20 emptyEntry
    (s.modMe fun _ => c).mat 1 false [.entries 20 [(n, v)] none]

/-- FMT (R233). -/
def execFmt (g : BitVec 4) (rs : BitVec 5) (s : State) : Result :=
  .next (if s.guardM g then s.pushFw (s.regsOk [rs]) fun s => s.reg rs else s)

/-- FMTI (R233). -/
def execFmti (g t : BitVec 4) (s : State) : Result :=
  .next (if s.guardM g then s.pushFw .ok fun s => sget 0#64 t.toNat s.me.sys.fmtt else s)

/-! ### Legend moves (R224 to R226) -/

/-- LGINV (R224). -/
def execLginv (g : BitVec 4) (l n : BitVec 8) (s : State) : Result :=
  .next (if s.guardM g then s.mat 1 false [.lginv l.toNat (n.toNat + 1)] else s)

/-- Reading legends meets no uncorrectable error (R90). -/
def State.legendsGood (s : State) (l n : Nat) : Chk :=
  Chk.need (!(List.range n).any fun i => s.bad.contains (4, s.ctx.core, l + i)) 0x20

/-- The check of R219 at issue. -/
def State.legendChk (s : State) (l n : Nat) : Chk :=
  match s.me.legendsFault l n with
  | some k => .fault k
  | none => s.legendsGood l n

/-- LGSAVE (R225): a legend in error comes before an unclaimed slot. DESIGN CHOICE, log entry 114. -/
def execLgsave (g : BitVec 4) (l n : BitVec 8) (o : BitVec 6) (pos : BitVec 3) (s : State) : Result :=
  let c := n.toNat + 1
  .next (if s.guardM g then
    s.gate ((s.legendChk l.toNat c).andThen (Chk.need (s.me.slot o.toNat).claimed 0x10)) fun s =>
      let bytes := (List.range c).flatMap fun i => (List.range 256).flatMap fun e => leBytes 4 (s.me.entry (l.toNat + i) e).toNat
      s.mat (2 * c + 2) true [.slot o.toNat (1024 * pos.toNat) bytes]
  else s)

/-- The syllable as a descriptor keeps it: S 1, Idle 0, Guard 15, δ 0, the renamed vector base (R218). -/
def descSyllable (w : Word) (mx : Bool) (vbase : Option Nat) : Word :=
  let w := (w &&& 0x70FF0FFFFFFFFFFF#64) ||| 0x8000F00000000000#64
  let w := if mx then w &&& ~~~(0xFFF#64 <<< 31) else w
  match vbase with
  | some b => (w &&& ~~~(0x3FF#64 <<< 12)) ||| (BitVec.ofNat 64 b <<< 12)
  | none => w

/-- The legends that LGLOAD makes of positions of a slot, with descriptors of KIND 3, against a generation (R225). -/
def Core.loadLegends (c : Core) (word : Word) (l n k pos gen : Nat) : List (Nat × Desc × List (BitVec 32)) :=
  (List.range n).map fun i =>
    (l + i,
      { w0 := descSyllable word false none, w1 := 0#64,
        w2 := descWord2 3 true k (pos + i) 0 0 0 256 false false, w3 := BitVec.ofNat 64 (gen * 2 ^ 32) },
      (List.range 256).map fun e => BitVec.ofNat 32 (Memory.le c.e.slotMem (8192 * k + 1024 * (pos + i) + 4 * e) 4))

/-- LGLOAD: positions of a slot read at issue land as legends (R225). -/
def execLgload (g : BitVec 4) (l n : BitVec 8) (o : BitVec 6) (pos : BitVec 3) (s : State) : Result :=
  let c := n.toNat + 1
  let k := o.toNat
  .next (if s.guardM g then
    s.gate ((Chk.need (s.me.slot k).claimed 0x10).andThen ((Chk.need (s.me.slot k).ready 0x0A).andThen
        (if s.bad.contains (2, s.ctx.core, k) then .fault (slotBad s.ctx.core k) else .ok))) fun s =>
      let gen := (s.me.slot k).gen
      s.fly { s.op 3 (2 * c + 2) (s.me.divisor 2) [.legends (s.me.loadLegends s.ctx.word l.toNat c k pos.toNat gen)] with
        kind := .fill, wide := true, gens := BitVec.ofNat 64 (gen * 2 ^ 32) }
  else s)

/-- What LGSUM requires of its legends, each tested in full before the next (R226). -/
def State.sumChk (s : State) (l n : Nat) : Chk :=
  match (List.range n).findSome? fun i =>
    (s.me.legendFault (l + i)).orElse fun _ => if (s.me.desc (l + i)).kind = 2 then some { cause := 0x0C } else none with
  | some k => .fault k
  | none => .ok

/-- LGSUM: row sums of count legends into the lanes of vd, the others zero (R226). -/
def execLgsum (g : BitVec 4) (l n : BitVec 8) (vd : BitVec 10) (s : State) : Result :=
  let c := n.toNat + 1
  let d := s.vrow vd
  let ty := s.me.rowType d
  .next (if s.guardM g then
    s.gate ((s.heldOk [d]).andThen ((Chk.need (decide (ty < 2)) 0x0D).andThen ((s.sumChk l.toNat c).andThen (s.legendsGood l.toNat c)))) fun s =>
      s.mat 6 true [wholeRow d (ofLanes 32 ((List.range c).map fun k => BitVec.ofNat 32 (s.me.rowSum ty (l.toNat + k))))]
  else s)

/-! ### MX syllables at issue (R45, R173, R234) -/

/-- An MX syllable whose guard is true waits for its start tick, with its vector base renamed and its divisor taken at issue (R173, R178). -/
def State.mxIssue (s : State) (g : BitVec 4) (dl : BitVec 12) (i : Instr) (vbase : Nat) : State :=
  if s.guardM g then
    s.fly { iseq := s.ctx.iseq, bundle := s.ctx.first, word := s.ctx.word, engine := 3, kind := .start, wide := true, due := s.ctx.tick + dl.toNat,
            mx := some i, vbase := vbase, mdiv := s.me.divisor 2 }
  else s

/-- LGB (R221). -/
def execLgb (g : BitVec 4) (w : BitVec 1) (dl : BitVec 12) (l : BitVec 8) (sk : BitVec 1) (src : BitVec 10) (tkop : BitVec 2) (tkch : BitVec 4)
    (s : State) : Result :=
  .next (s.mxIssue g dl (.lgb g w dl l sk src tkop tkch) (if sk = 0#1 then s.vrow src else 0))

/-- LGBC (R221). -/
def execLgbc (g : BitVec 4) (w : BitVec 1) (dl : BitVec 12) (l : BitVec 8) (sk : BitVec 1) (src : BitVec 10) (tkop : BitVec 2) (tkch : BitVec 4)
    (s : State) : Result :=
  .next (s.mxIssue g dl (.lgbc g w dl l sk src tkop tkch) (if sk = 0#1 then s.vrow src else 0))

/-- MLU (R237). -/
def execMlu (g : BitVec 4) (w : BitVec 1) (dl : BitVec 12) (a : BitVec 6) (l : BitVec 8) (o : BitVec 6) (seg : BitVec 5) (tkop : BitVec 2)
    (tkch : BitVec 4) (s : State) : Result := .next (s.mxIssue g dl (.mlu g w dl a l o seg tkop tkch) 0)

/-- MLUC (R241). -/
def execMluc (g : BitVec 4) (w : BitVec 1) (dl : BitVec 12) (a : BitVec 6) (l : BitVec 8) (o : BitVec 6) (seg : BitVec 5) (tkop : BitVec 2)
    (tkch : BitVec 4) (s : State) : Result := .next (s.mxIssue g dl (.mluc g w dl a l o seg tkop tkch) 0)

/-- MZERO (R243). -/
def execMzero (g : BitVec 4) (w : BitVec 1) (dl : BitVec 12) (a : BitVec 6) (tkop : BitVec 2) (tkch : BitVec 4) (s : State) : Result :=
  .next (s.mxIssue g dl (.mzero g w dl a tkop tkch) 0)

/-- MDRAIN (R244). -/
def execMdrain (g : BitVec 4) (w : BitVec 1) (dl : BitVec 12) (a : BitVec 6) (vb : BitVec 10) (tkop : BitVec 2) (tkch : BitVec 4)
    (s : State) : Result := .next (s.mxIssue g dl (.mdrain g w dl a vb tkop tkch) (s.vrow vb))

/-- MDRAIN.st (R244, R248). -/
def execMdrainSt (g : BitVec 4) (w : BitVec 1) (dl : BitVec 12) (a : BitVec 6) (k : BitVec 2) (tkop : BitVec 2) (tkch : BitVec 4)
    (s : State) : Result := .next (s.mxIssue g dl (.mdrainSt g w dl a k tkop tkch) 0)

/-! ### Start ticks (R222, R223, R234, R235) -/

/-- What a start decides. -/
inductive Start where
  | go
  | fault (k : Cause)
  /-- not ready -/
  | late
deriving DecidableEq, Repr

/-- The first check that does not pass. -/
def Start.and (a b : Start) : Start := match a with | .go => b | x => x

/-- A check that raises a cause. -/
def Start.need (p : Bool) (cause : Nat) : Start := if p then .go else .fault { cause := cause }

/-- A readiness condition. -/
def Start.ready (p : Bool) : Start := if p then .go else .late

/-- Whether a token to pop is there. -/
def Core.tokenReady (c : Core) (tkop : BitVec 2) (ch : BitVec 4) : Bool := tkop != 2#2 || c.tokens ch.toNat != 0

/-- Free drain buffers (R248): the lowest. DESIGN CHOICE, log entry 20. -/
def Core.freeBuffer (c : Core) : Option Nat := (List.range 8).find? fun b => sget 0 b c.e.drain == 0

/-- An uncorrectable error in a slot, a bank or a legend of a core (R90). -/
def State.mxGood (s : State) (n : Nat) (slots : List Nat) (banks : List Nat) (legends : List Nat) : Start :=
  match slots.find? fun o => s.bad.contains (2, n, o) with
  | some o => .fault (slotBad n o)
  | none => Start.need (!(banks.any (fun a => s.bad.contains (3, n, a)) || legends.any fun l => s.bad.contains (4, n, l))) 0x20

/-- The checks of an MX syllable at its start tick on core n, after it has its format word (R223, R231, R234). -/
def State.mxCheck (s : State) (n : Nat) (o : Op) (fw : Word) : Start :=
  let c := s.core n
  let t := c.tick
  let r := fwRows fw
  let held (a : Nat) : Bool := (c.bank a).held
  let slotOk (k : Nat) : Bool := (c.slot k).claimed
  let typed (a : Nat) : Bool := (c.bank a).ty == if fwInt fw then 1 else 0
  let leg (l m : Nat) : Start := match c.legendsFault l m with | some k => .fault k | none => .go
  match o.mx with
  | some (.lgb _ _ _ l sk src tkop ch) =>
    (Start.need (fwOk fw && decide (fwB fw ≤ 9) && decide (l.toNat + r ≤ 256) && (sk == 1#1 || decide (o.vbase % 16 + r ≤ 16))) 0x0C).and
    ((Start.need (sk == 1#1 || held (o.vbase / 16)) 0x0E).and
    ((Start.need (sk == 0#1 || slotOk src.toNat) 0x10).and
    ((Start.need (decide (c.e.builderEnd ≤ t)) 0x0A).and
    ((Start.ready ((sk == 0#1 || (c.slot src.toNat).ready) && c.tokenReady tkop ch)).and
    (s.mxGood n (if sk = 1#1 then [src.toNat] else []) (if sk = 0#1 then [o.vbase / 16] else []) [])))))
  | some (.lgbc _ _ _ l sk src tkop ch) =>
    let cb := fwCb fw
    (Start.need (fwOk fw && decide (10 ≤ fwB fw) && decide (l.toNat + 8 * r ≤ 256) && (sk == 1#1 || decide (o.vbase % 16 + r ≤ 16))) 0x0C).and
    ((Start.need (sk == 1#1 || held (o.vbase / 16)) 0x0E).and
    ((Start.need ((sk == 0#1 || slotOk src.toNat) && slotOk cb) 0x10).and
    ((Start.need (decide (c.e.builderEnd ≤ t)) 0x0A).and
    ((Start.ready ((sk == 0#1 || (c.slot src.toNat).ready) && (c.slot cb).ready && c.tokenReady tkop ch)).and
    (s.mxGood n ((if sk = 1#1 then [src.toNat] else []) ++ [cb]) (if sk = 0#1 then [o.vbase / 16] else []) [])))))
  | some (.mlu _ _ _ a l k seg tkop ch) =>
    (Start.need (fwOk fw && decide (fwB fw ≤ 9) && decide (l.toNat + r ≤ 256) && decide (seg.toNat < segLimit (fwB fw))) 0x0C).and
    ((Start.need (held a.toNat) 0x0E).and ((Start.need (typed a.toNat) 0x0D).and ((Start.need (slotOk k.toNat) 0x10).and
    ((leg l.toNat r).and ((Start.need (decide (c.e.arrayEnd ≤ t)) 0x0A).and
    ((Start.ready ((c.slot k.toNat).ready && c.tokenReady tkop ch)).and
    (s.mxGood n [k.toNat] [] ((List.range r).map (l.toNat + ·)))))))))
  | some (.mluc _ _ _ a l k seg tkop ch) =>
    let m := (if fwB fw = 10 then 8 else 16) * r
    (Start.need (fwOk fw && decide (10 ≤ fwB fw) && decide (l.toNat + m ≤ 256) && decide (seg.toNat < segLimit (fwB fw))) 0x0C).and
    ((Start.need (held a.toNat) 0x0E).and ((Start.need (typed a.toNat) 0x0D).and ((Start.need (slotOk k.toNat) 0x10).and
    ((leg l.toNat m).and ((Start.need (decide (c.e.arrayEnd ≤ t)) 0x0A).and
    ((Start.ready ((c.slot k.toNat).ready && c.tokenReady tkop ch)).and
    ((Start.need (!c.mlucRange fw l.toNat k.toNat seg.toNat) 0x13).and
    (s.mxGood n [k.toNat] [] ((List.range m).map (l.toNat + ·))))))))))
  | some (.mzero _ _ _ a tkop ch) =>
    (Start.need (fwOk fw) 0x0C).and ((Start.need (held a.toNat) 0x0E).and ((Start.need (typed a.toNat) 0x0D).and
    (Start.ready (c.tokenReady tkop ch))))
  | some (.mdrain _ _ _ a _ tkop ch) =>
    let ps := fwZps fw != 0 || fwDms fw != 0
    (Start.need (fwOk fw && decide (o.vbase % 16 + r ≤ 16)) 0x0C).and
    ((Start.need (held a.toNat && held (o.vbase / 16)) 0x0E).and ((Start.need (typed a.toNat) 0x0D).and
    ((Start.need (!ps || slotOk (fwPslot fw)) 0x10).and ((Start.need (decide (c.e.drainEnd ≤ t)) 0x0A).and
    ((Start.ready ((!ps || (c.slot (fwPslot fw)).ready) && c.tokenReady tkop ch)).and
    (s.mxGood n (if ps then [fwPslot fw] else []) [a.toNat] []))))))
  | some (.mdrainSt _ _ _ a k tkop ch) =>
    let ps := fwZps fw != 0 || fwDms fw != 0
    (Start.need (fwOk fw) 0x0C).and ((Start.need (held a.toNat) 0x0E).and ((Start.need (typed a.toNat) 0x0D).and
    ((Start.need (!ps || slotOk (fwPslot fw)) 0x10).and ((Start.need (decide (c.e.drainEnd ≤ t)) 0x0A).and
    ((Start.ready ((!ps || (c.slot (fwPslot fw)).ready) && c.tokenReady tkop ch && c.freeBuffer.isSome &&
      decide ((c.queue (8 + k.toNat)).es.length + r ≤ 16))).and
    (s.mxGood n (if ps then [fwPslot fw] else []) [a.toNat] []))))))
  | _ => .go

/-- Whether the syllable carries `.w`, its token operation and its channel. -/
def mxTok : Option Instr → Bool × BitVec 2 × BitVec 4
  | some (.lgb _ w _ _ _ _ t c) => (w == 1#1, t, c)
  | some (.lgbc _ w _ _ _ _ t c) => (w == 1#1, t, c)
  | some (.mlu _ w _ _ _ _ _ t c) => (w == 1#1, t, c)
  | some (.mluc _ w _ _ _ _ _ t c) => (w == 1#1, t, c)
  | some (.mzero _ w _ _ t c) => (w == 1#1, t, c)
  | some (.mdrain _ w _ _ _ t c) => (w == 1#1, t, c)
  | some (.mdrainSt _ w _ _ _ t c) => (w == 1#1, t, c)
  | _ => (false, 0#2, 0#4)

/-- The row a build reads (R216). -/
def Core.sourceRow (c : Core) (o : Op) (slotSrc : Bool) (src i : Nat) : Row :=
  if slotSrc then rowOf (Memory.bytes c.e.slotMem (8192 * src + 128 * i) 128) else c.row (o.vbase + i)

/-- The legends of a build with their descriptors (R213 to R215, R218, R222), against given generations. -/
def Core.buildLegends (c : Core) (o : Op) (fw : Word) (srcGen cbGen : Nat) : List (Nat × Desc × List (BitVec 32)) :=
  let r := fwRows fw
  match o.mx with
  | some (.lgb _ _ _ l sk src _ _) =>
    let ss := sk == 1#1
    let n := if ss then src.toNat else o.vbase / 16
    (List.range r).map fun i =>
      (l.toNat + i,
        { w0 := descSyllable o.word true (if ss then none else some o.vbase), w1 := fw,
          w2 := descWord2 1 ss n i 0 0 0 0 (fwA fw == 3) (fwB fw == 6), w3 := BitVec.ofNat 64 (srcGen * 2 ^ 32) },
        planeLegend fw (c.sourceRow o ss src.toNat i))
  | some (.lgbc _ _ _ l sk src _ _) =>
    let ss := sk == 1#1
    let n := if ss then src.toNat else o.vbase / 16
    let cb := fwPlanes fw - 1
    let book := Memory.bytes c.e.slotMem (8192 * fwCb fw + 0x1000 * cb) 4096
    let k := centroids book
    (List.range (8 * r)).map fun m =>
      (l.toNat + m,
        { w0 := descSyllable o.word true (if ss then none else some o.vbase), w1 := fw,
          w2 := descWord2 2 ss n (m / 8) (m % 8) cb (fwCb fw) k false (fwB fw == 6),
          w3 := BitVec.ofNat 64 (srcGen * 2 ^ 32 + cbGen) },
        bookLegend fw book k (c.sourceRow o ss src.toNat (m / 8)) (m % 8))
  | _ => []

/-- Elements (i, j) of the active tile (R242). -/
def tile (fw : Word) : List (Nat × Nat) := (List.range (fwRows fw)).flatMap fun i => (List.range (fwCols fw)).map fun j => (i, j)

/-- An MX syllable that passes its checks starts: what it reads it reads now, and its results land after its latency (R49). MDRAIN to vector rows in bank a
itself writes them (R247). DESIGN CHOICE, log entry 115. -/
def Core.mxStarted (c : Core) (o : Op) (fw : Word) : Core :=
  let t := c.tick
  let d := o.mdiv
  let r := fwRows fw
  let (_, tkop, ch) := mxTok o.mx
  let c := if tkop = 2#2 then c.setTokens ch.toNat (c.tokens ch.toNat - 1) else c
  let fly (c : Core) (kind : OpKind) (lat gens : Nat) (lands : List Land) : Core :=
    { c with ops := c.ops.map fun p => if p.iseq = o.iseq && p.engine = 3 && p.kind == .start then
      { p with kind := kind, due := t + lat * d, lands := lands, push := pushCh tkop ch, fw := some fw, gens := BitVec.ofNat 64 gens } else p }
  match o.mx with
  | some (.lgb _ _ _ _ sk src _ _) =>
    let g := if sk = 1#1 then (c.slot src.toNat).gen else (c.bank (o.vbase / 16)).gen
    fly { c with e := { c.e with builderEnd := t + (r + 1) / 2 * d } } .fill 12 (g * 2 ^ 32) [.legends (c.buildLegends o fw g 0)]
  | some (.lgbc _ _ _ _ sk src _ _) =>
    let g := if sk = 1#1 then (c.slot src.toNat).gen else (c.bank (o.vbase / 16)).gen
    let h := (c.slot (fwCb fw)).gen
    fly { c with e := { c.e with builderEnd := t + 8 * r * d } } .fill (8 * r + 4) (g * 2 ^ 32 + h) [.legends (c.buildLegends o fw g h)]
  | some (.mlu _ _ _ a l k seg _ _) =>
    fly { c with e := { c.e with arrayEnd := t + 2 * fwPlanes fw * d } } .land (2 * fwPlanes fw + 6) 0
      [.acc a.toNat fw ((tile fw).map fun p => (p.1, p.2, c.mluAt fw l.toNat k.toNat seg.toNat p.1 p.2))]
  | some (.mluc _ _ _ a l k seg _ _) =>
    let n := if fwB fw = 10 then 1 else 2
    fly { c with e := { c.e with arrayEnd := t + n * d } } .land (6 + n) 0
      [.acc a.toNat fw ((tile fw).map fun p => (p.1, p.2, c.mlucAt fw l.toNat k.toNat seg.toNat p.1 p.2))]
  | some (.mzero _ _ _ a _ _) => fly c .land 2 0 [.mzero a.toNat r (fwCols fw)]
  | some (.mdrain _ _ _ a _ _ _) =>
    fly { c with e := { c.e with drainEnd := t + (r + 3) / 4 * d } } .land (r + 4) 0
      [.rows ((List.range r).map fun i => let (m, v) := c.drainRow fw a.toNat i; (o.vbase + i, m, v))]
  | some (.mdrainSt _ _ _ a k _ _) =>
    let b := c.freeBuffer.getD 0
    let q := 8 + k.toNat
    let n := (c.queue q).pops + (c.queue q).es.length
    let rows := (List.range r).map fun i => (n + i, (c.drainRow fw a.toNat i).2)
    let c := (List.range r).foldl (fun c i => (c.reserve q { emptyEntry with buf := some (b, i) }).1) c
    fly { c with e := { c.e with drainEnd := t + (r + 3) / 4 * d, drain := sset 0 b r c.e.drain } } .land (r + 4) 0 [.entries q rows (some b)]
  | _ => c

/-- One pending start of a core (R147, R232, R234): it takes its format word, makes its checks, and starts, faults or waits. -/
def State.mxOne (s : State) (n : Nat) (o : Op) : State :=
  let c := s.core n
  let isZero := match o.mx with | some (.mzero ..) => true | _ => false
  match o.fw.orElse fun _ => ((c.head 20 c.tick).map fun e => e.val.setWidth 64) with
  | none => s.stop n { cause := 0x0B, engine := 3, iseq := o.iseq }
  | some fw =>
    let o1 := if isZero then o else { o with fw := some fw }
    let c := if isZero || o.fw.isSome then c else
      let c := c.pop 20
      { c with ops := c.ops.map fun p => if p.iseq = o.iseq && p.engine = 3 && p.kind == .start then o1 else p }
    let s := s.setCore n c
    match s.mxCheck n o1 fw with
    | .go => s.setCore n (c.mxStarted o1 fw)
    | .fault k => s.stop n { k with engine := 3, iseq := o.iseq }
    | .late =>
      if (mxTok o.mx).1 then { s with ctx := { s.ctx with out := .waits (.start o.iseq), core := n } }
      else s.stop n { cause := 0x0A, engine := 3, iseq := o.iseq }

/-- Starts one after the other until one stops or waits. -/
def State.mxAll (s : State) (n : Nat) : List Op → State
  | [] => s
  | o :: t =>
    let s1 := s.mxOne n o
    if s1.ctx.out == .running && (match s1.grpAt n with | some g => g.status == .running | none => true) then State.mxAll s1 n t else s1

/-- The starts of a core that are due; operations stand in issue order (R232). -/
def Core.dueStarts (c : Core) : List Op :=
  c.ops.filter fun o => o.kind == .start && decide (o.due ≤ c.tick)

/-- MX_START: every MX syllable of a core whose start tick has come, in issue order (R234). DEDUCED, log entry 13. -/
def execMxStart (core : Nat) (s : State) : Result :=
  .next (match s.grpAt core with
    | some g =>
      if g.status = .running then
        ({ s with ctx := { s.ctx with out := .running } }).mxAll core (s.core core).dueStarts
      else s
    | none => s)

end Sys2Proof.Machine
end

