-- ==== Sys2Proof/Machine/Landing.lean ====
section
/-! DEFINITION. Landings (R45, R132, R142 to R144, R217, R220, R249): what each result does at its landing tick, in the order of the
engines, judged against the banks as they stood before the tick. -/

namespace Sys2Proof.Machine

/-- Count a write into a bank: its generation and its last access (R121, R217). -/
def Core.bankWrite (c : Core) (a now : Nat) : Core :=
  let b := c.bank a
  c.setBank a { b with gen := (b.gen + 1) % 2 ^ 32, last := now }

/-- One scalar landing in the window: the file when it holds the position, else the position's slot in bank 31 (R119, R152). -/
def Core.landWindow (c : Core) (now pos : Nat) (v : Word) : Core :=
  let x := c.x
  if x.low ≤ pos ∧ pos < x.base + x.frame then { c with x := { x with win := sset 0#64 pos v x.win } }
  else ({ c with sp := Memory.store c.sp (spillSlot pos) (wordBytes v) } : Core).touch now 31 true

/-- Accumulations into a bank, each element against its value before the tick (R238, R240, R249). -/
def Core.landAcc (c old : Core) (a : Nat) (fw : Word) (ps : List (Nat × Nat × Option (List Val))) : Core :=
  ps.foldl (fun c p =>
    let r := 16 * a + p.1
    let e := (lane 32 p.2.1 (old.row r)).toNat
    let v := match p.2.2 with
      | none => f32.enc 0 .nan
      | some vs => vs.foldl (accum fw) e
    let m := BitVec.ofNat 1024 ((2 ^ 32 - 1) * 2 ^ (32 * p.2.1))
    c.setRow r (blend m (c.row r) (BitVec.ofNat 1024 (v * 2 ^ (32 * p.2.1))))) c

/-- Zero the elements of an active tile (R243). -/
def Core.landZero (c : Core) (a r n : Nat) : Core :=
  let m := BitVec.ofNat 1024 (2 ^ (32 * n) - 1)
  (List.range r).foldl (fun c i => c.setRow (16 * a + i) (blend m (c.row (16 * a + i)) 0#1024)) c

/-- Write legends with their descriptors (R220). -/
def Core.landLegends (c : Core) (ls : List (Nat × Desc × List (BitVec 32))) : Core :=
  ls.foldl (fun c l =>
    let ent := (l.2.2.zipIdx).foldl (fun st e => sset 0#32 (256 * l.1 + e.2) e.1 st) c.e.ent
    { c with e := { c.e with desc := sset {} l.1 l.2.1 c.e.desc, ent := ent } }) c

/-- What a landing does on its own core (AREL ends the accesses that keep its bank from going WARM, R130); `old` is the core before the tick's landings. -/
def Core.land (c old : Core) (t now : Nat) : Land → Core
  | .greg n v => { c with x := { c.x with g := sset 0#64 n v c.x.g } }
  | .wreg p v => c.landWindow now p v
  | .creg n v => { c with x := { c.x with k := c.x.k.cPut n t v } }
  | .preg n m v => { c with x := { c.x with p := sset 0#64 n ((c.pred n &&& ~~~m) ||| (v &&& m)) c.x.p } }
  | .breg n v ready => { c with x := { c.x with k := { c.x.k with b := sset {} n { val := v, ready := ready, fetched := false } c.x.k.b } } }
  | .lcnt n v => { c with x := { c.x with k := { c.x.k with lc := sset 0#64 n v c.x.k.lc } } }
  | .sys n v => c.sysWrite n v (some t)
  | .rows rs =>
    match rs.find? fun r => r.2.1 != 0#1024 with
    | none => c
    | some (r, _, _) => (rs.foldl (fun c r => c.setRow r.1 (blend r.2.1 (c.row r.1) r.2.2)) c).bankWrite (r / 16) now
  | .acc a fw ps => (c.landAcc old a fw ps).bankWrite a now
  | .mzero a r n => (c.landZero a r n).bankWrite a now
  | .acq a ty z =>
    let c := c.setBank a { c.bank a with held := true, ty := ty, st := 2, last := now }
    if z then ((List.range 16).foldl (fun c i => c.setRow (16 * a + i) 0#1024) c).bankWrite a now else c
  | .arel a => c.setBank a { c.bank a with held := false, last := if (c.bank a).held then now else (c.bank a).last }
  | .oclaim o => if (c.slot o).claimed then c else c.setSlot o { c.slot o with claimed := true, ready := false }
  | .orel o =>
    let s := c.slot o
    if s.claimed then c.setSlot o { claimed := false, ready := false, gen := (s.gen + 1) % 2 ^ 32 } else c
  | .slot o off d =>
    let s := c.slot o
    ({ c with e := { c.e with slotMem := Memory.store c.e.slotMem (8192 * o + off) d } } : Core).setSlot o
      { s with ready := true, gen := (s.gen + 1) % 2 ^ 32 }
  | .legends ls => c.landLegends ls
  | .lginv l n => { c with e := { c.e with desc := sclear l n c.e.desc } }
  | .entries q es _ => es.foldl (fun c e => c.fillEntry q e.1 e.2) c
  | .mesh _ _ => c
  | .ipsel fn => { c with e := { c.e with ipsel := fn } }
  | .iptab n tab => { c with e := { c.e with tabs := sset none n (some tab) c.e.tabs } }

/-- The fault of a landing, against the core as it stood before the tick: an unheld bank, an unclaimed slot (R132); an uncorrectable error in the bank
that an accumulation reads, or in the slot that LGSAVE writes, which is told by its whole legends (R90, R225, R251). `bad` lists the core's banks and
slots in error. -/
def Core.landFault (c : Core) (bad : List (Nat × Nat)) : Land → Option Nat
  | .rows rs => if rs.any fun r => r.2.1 != 0#1024 && !(c.bank (r.1 / 16)).held then some 0x0E else none
  | .acc a _ _ => if !(c.bank a).held then some 0x0E else if bad.contains (3, a) then some 0x20 else none
  | .mzero a _ _ => if (c.bank a).held then none else some 0x0E
  | .slot o _ d => if !(c.slot o).claimed then some 0x10 else if bad.contains (2, o) && decide (1024 ≤ d.length) then some 0x20 else none
  | _ => none

/-- The resources of a core that are in error, by kind and number (R90). -/
def State.badOf (s : State) (n : Nat) : List (Nat × Nat) := (s.bad.filter fun b => b.2.1 == n).map fun b => (b.1, b.2.2)

/-- What a landing writes, as a kind of register or store and a number: 7 is a vector row. -/
def Land.targets : Land → List (Nat × Nat)
  | .greg n _ => [(0, n)]
  | .wreg p _ => [(1, p)]
  | .creg n _ => [(2, n)]
  | .preg n _ _ => [(3, n)]
  | .breg n _ _ => [(4, n)]
  | .lcnt n _ => [(5, n)]
  | .sys n _ => [(6, n)]
  | .rows rs => rs.map fun r => (7, r.1)
  | .acc a _ _ => bankRows a
  | .mzero a _ _ => bankRows a
  | .acq a _ _ => (8, a) :: bankRows a
  | .arel a => [(8, a)]
  | .oclaim o => [(9, o)]
  | .orel o => [(9, o)]
  | .slot o _ _ => [(9, o)]
  | .legends ls => ls.map fun l => (10, l.1)
  | .lginv l n => (List.range n).map fun k => (10, l + k)
  | .entries .. => []
  | .mesh .. => []
  | .ipsel _ => [(11, 0)]
  | .iptab n _ => [(12, n)]
where
  bankRows (a : Nat) : List (Nat × Nat) := (List.range 16).map fun i => (7, 16 * a + i)

/-- Whether two operations write a register in common. -/
def Op.meets (o p : Op) : Bool := o.lands.any fun l => p.lands.any fun m => l.targets.any m.targets.contains

/-- Whether an operation lands before another that writes a register of its own at the same tick: of one bundle the lower address, else the lower
engine, else the earlier issue (R38, R144). -/
def Op.landsBefore (o p : Op) : Bool :=
  o.meets p &&
  (if o.bundle = p.bundle then seqBefore o.iseq p.iseq || (o.iseq == p.iseq && !o.half && p.half)
   else decide (o.engine < p.engine) || (o.engine == p.engine && seqBefore o.iseq p.iseq))

/-- Operations in an order in which each lands after what it must follow; others keep their order, and so do all that are left where what they must
follow forms a circle (R38, R144). DESIGN CHOICE, log entry 113. -/
def landingOrder : Nat → List Op → List Op
  | 0, l => l
  | k + 1, l =>
    match l.find? fun o => !l.any fun p => p != o && p.landsBefore o with
    | some o => o :: landingOrder k (l.erase o)
    | none => l

/-- The operations whose landing tick has come, in the order in which their results stand (R38, R144). -/
def Core.dueLandings (c : Core) : List Op :=
  let d := c.ops.filter fun o => o.kind != .start && decide (o.due ≤ c.tick)
  landingOrder d.length ([0, 2, 3, 4].flatMap fun e => d.filter fun o => o.engine == e)

/-- Apply one operation's landings and its token push; it then leaves the core's list (R141, R142). -/
def State.applyOp (s : State) (n : Nat) (old : Core) (o : Op) : State :=
  let s := o.lands.foldl (fun s l => match l with
    | .mesh peer row => s.modCore peer fun c => c.fillSent n o.iseq row
    | l => s.modCore n fun c => c.land old c.tick s.power.ref l) s
  s.modCore n fun c =>
    let c := match o.push with | some ch => c.setTokens ch (min 15 (c.tokens ch + 1)) | none => c
    { c with ops := c.ops.filter fun p => p != o }

/-- The same for an operation whose push finds its channel full: the count is unchanged (R141). -/
def State.applyFull (s : State) (n : Nat) (old : Core) (o : Op) : State :=
  match o.push with
  | some ch =>
    let k := (s.core n).tokens ch
    (s.applyOp n old o).modCore n fun c => c.setTokens ch k
  | none => s.applyOp n old o

/-- Token pushes of a list of retirements that find their channel full (R141). DEDUCED, log entry 17. -/
def tokenOver (tk : Nat → Nat) : List Op → List Op
  | [] => []
  | o :: t =>
    match o.push with
    | none => tokenOver tk t
    | some ch => if tk ch ≥ 15 then o :: tokenOver tk t else tokenOver (fun k => if k = ch then tk k + 1 else tk k) t

/-- RESULT_LANDING: every result of a core whose landing tick has come. A landing that faults stops the group with no landing of
the tick applied (R132); a token push into a full channel stops it with that syllable's other effects standing and every other result of the
tick still in flight (R141, R311). DEDUCED, log entry 17. -/
def execResultLanding (core : Nat) (s : State) : Result :=
  let c := s.core core
  let due := c.dueLandings
  let bad := due.filterMap fun o => (o.lands.findSome? (c.landFault (s.badOf core))).map fun k => (o, k)
  .next (match bad with
    | (o, k) :: rest =>
      let first := rest.foldl (fun a b => if b.1.iseq < a.1.iseq then b else a) (o, k)
      let s := s.modCore core fun c => { c with ops := c.ops.map fun p => match bad.find? fun b => b.1 == p with | some b => { p with cause := b.2 } | none => p }
      s.stop core { cause := first.2, engine := first.1.engine, iseq := first.1.iseq }
    | [] =>
      match tokenOver c.tokens due with
      | [] => due.foldl (fun s o => s.applyOp core c o) s
      | o :: t => ((o :: t).foldl (fun s o => s.applyFull core c o) s).stop core { cause := 0x09, engine := o.engine })

/-- VSEND_ARRIVAL: rows whose local arrival tick has come fill their reserved q7 entries (R199). -/
def execVsendArrival (core : Nat) (s : State) : Result :=
  let c := s.core core
  let due := (c.queue 7).es.filter fun e => !e.filled && decide (e.present ≤ c.tick)
  .next (due.foldl (fun s e =>
    match e.src with
    | none => s
    | some (n, q) =>
      match (s.core n).ops.find? fun o => o.iseq == q && o.engine == 2 with
      | some o => (match o.lands with | [.mesh _ row] => s.modCore core fun c => c.fillSent n q row | _ => s)
      | none => s) s)

end Sys2Proof.Machine
end

