-- ==== Sys2Proof/Machine/Copy.lean ====
section
/-! DEFINITION. The copy engine (R256, R257, R266 to R276): handles at enqueue, the capture of every page, COPY, GATHER, SCATTER and
LDQ2, the movement of a chunk, retirement, and the freeze of a watched command (R346, R358). -/

namespace Sys2Proof.Machine

/-! ### Handles (R271, R272) -/

/-- The address of a slot of a partition's handle table (R272). -/
def State.tableAddr (s : State) (pn slot : Nat) : Word := BitVec.ofNat 64 (vaOf ((s.part pn).reg 0x410) + 32 * slot)

/-- The physical address of a slot of a partition's handle table, through its page tables; a page that they do not map gives the walk's cause.
DESIGN CHOICE, log entry 102. -/
def State.htSlot (s : State) (pn slot : Nat) : Except Nat Nat :=
  let va := vaOf ((s.part pn).reg 0x410) + 32 * slot
  match s.mapVa pn none va false false with
  | .ok { place := .hbm a, .. } => .ok a
  | .ok _ => .error 0x17
  | .error k => .error k

/-- Whether the entry of a handle stands, or is reached through tables, in a channel that is being copied (R400). -/
def State.tableCopied (s : State) (pn slot : Nat) : Bool :=
  s.copying != [] && (s.mapCopied pn (vaOf ((s.part pn).reg 0x410) + 32 * slot) ||
    match s.htSlot pn slot with | .ok a => s.copied (.hbm a) 32 | .error _ => false)

def handleSlot (h : Word) : Nat := h.toNat / 2 ^ 32 % 2 ^ 16
def handleGen (h : Word) : Nat := h.toNat / 2 ^ 48
def handleKind (h : Word) : Nat := h.toNat / 2 ^ 28 % 16
/-- A handle value (R271). -/
def handleOf (gen slot kind : Nat) : Word := BitVec.ofNat 64 (gen % 2 ^ 16 * 2 ^ 48 + slot * 2 ^ 32 + kind * 2 ^ 28)

/-- An entry of the handle table (R272). -/
structure HEntry where
  vis : Word
  size : Nat
  shadow : Word
  cur : Word
deriving DecidableEq, Repr

def State.readEntry (s : State) (a : Nat) : HEntry :=
  { vis := Memory.word s.hbm a, size := (Memory.word s.hbm (a + 8)).toNat, shadow := Memory.word s.hbm (a + 16), cur := Memory.word s.hbm (a + 24) }

def HEntry.bytes (e : HEntry) : Bytes := wordBytes e.vis ++ leBytes 8 e.size ++ wordBytes e.shadow ++ wordBytes e.cur

def State.writeEntry (s : State) (a : Nat) (e : HEntry) : State := { s with hbm := Memory.store s.hbm a e.bytes }

/-- The check of a handle value: HANDLE-INVALID, then HANDLE-STALE (R271); a table entry that cannot be read is MEMORY-UNCORRECTED (R90). -/
def State.handleEntry (s : State) (pn : Nat) (h : Word) : Except Nat (Nat × HEntry) :=
  let n := handleSlot h
  if h = 0#64 ∨ n = 0 ∨ (s.part pn).idx 0x418 % 65536 < n ∨ h.toNat % 2 ^ 28 ≠ 0 then .error 0x1B
  else match s.htSlot pn n with
    | .error k => .error k
    | .ok a =>
      let e := s.readEntry a
      if s.readBad (.hbm a) 32 then .error 0x20 else if h = e.cur then .ok (a, e) else .error 0x1C

/-- The cause that a handle raises: a table entry that cannot be reached or read is named by its address (R90, R271). -/
def State.handleCause (s : State) (pn : Nat) (h : Word) (k : Nat) : Cause :=
  { cause := k, addr := if k = 0x1B ∨ k = 0x1C then 0#64 else s.tableAddr pn (handleSlot h) }

/-! ### Capture (R253, R256, R257, R262) -/

/-- A range of n bytes cut at pages, banks and slots; one that leaves a node's window stays whole, and fails as a whole (R254). -/
def cutRange (p : Word) (n : Nat) : Nat → List (Word × Nat)
  | 0 => []
  | fuel + 1 =>
    if n = 0 then []
    else if spaceOf p = 2 ∧ 2 ^ 50 < peerOff p + n then [(p, n)]
    else
      let b := if spaceOf p = 1 ∧ 0x200000 ≤ spOff p then 8192 else 65536
      let k := min n (b - p.toNat % b)
      (p, k) :: cutRange (p + BitVec.ofNat 64 k) (n - k) fuel

/-- The pieces of a range. -/
def piecesOf (r : Word × Nat) : List (Word × Nat) := cutRange r.1 r.2 (r.2 / 8192 + 2)

/-- Checks 3 to 5 over pieces in order, with the leaves that the walks found; the cause of the first that fails names its address. DEDUCED, log entry 43. -/
def State.captureAll (s : State) (c : Nat) (write raw : Bool) : List (Word × Nat) → Except Cause (List (Cap × Hit))
  | [] => .ok []
  | (p, n) :: t =>
    match s.resolve c p n write raw with
    | .error k => .error { cause := k, addr := p }
    | .ok h =>
      match State.captureAll s c write raw t with
      | .error k => .error k
      | .ok rest => .ok (((p, h.place, n), h) :: rest)

/-- The pages of byte ranges at places, each once. -/
def pagesOf (cs : List (Place × Nat)) : List Place :=
  (cs.foldl (fun acc c => match c.1 with
    | .hbm a => (List.range ((a + c.2 - 1) / 65536 - a / 65536 + 1)).foldl (fun acc k =>
        if acc.contains (a / 65536 + k) then acc else (a / 65536 + k) :: acc) acc
    | _ => acc) ([] : List Nat)).map fun k => .hbm (65536 * k)

/-- Whether two lists of captured pieces overlap (R268). DEDUCED, log entry 44. -/
def capsOverlap (s : State) (pn : Nat) (a b : List Cap) : Bool :=
  a.any fun x => b.any fun y => (s.landsAt pn x.2.1).overlaps x.2.2 (s.landsAt pn y.2.1) y.2.2

/-- What enqueue needs of a command: the data ranges it reads and writes in order, the index list it reads, and the row size. -/
structure Plan where
  reads : List (Word × Nat) := []
  writes : List (Word × Nat) := []
  index : List (Word × Nat) := []
  /-- alignment required of the rows (LDQ2) -/
  align : Nat := 1
  unit : Nat := 1
  srcRaw : Bool := true
  dstRaw : Bool := true
  hands : List (Nat × Word) := []
deriving DecidableEq, Repr

/-- The captured ranges of a plan, and its index list. -/
structure Captured where
  reads : List Cap
  writes : List Cap
  index : List Cap
  hits : List Hit
deriving DecidableEq, Repr

/-- Checks 1 to 5 of R262 over every range of a plan: spaces first, then alignment, then each address in order. -/
def State.capture (s : State) (c : Nat) (l : Plan) : Except Cause Captured :=
  let rs := l.reads.flatMap piecesOf
  let ws := l.writes.flatMap piecesOf
  let is := l.index.flatMap piecesOf
  let src : Reach := if l.align = 1 then .source else .access
  let space := (is.filter fun p => !s.spaceOk c .source p.1) ++ (rs.filter fun p => !s.spaceOk c src p.1) ++ ws.filter fun p => !s.spaceOk c .dest p.1
  let odd := (l.index.filter fun r => r.1.toNat % 4 != 0 && r.2 != 0) ++ l.reads.filter fun r => r.1.toNat % l.align != 0 && r.2 != 0
  match space, odd with
  | p :: _, _ => .error { cause := 0x15, addr := p.1 }
  | [], p :: _ => .error { cause := 0x16, addr := p.1 }
  | [], [] =>
    match s.captureAll c false true is with
      | .error k => .error k
      | .ok i => match s.captureAll c false l.srcRaw rs with
        | .error k => .error k
        | .ok r => match s.captureAll c true l.dstRaw ws with
          | .error k => .error k
          | .ok w => .ok { reads := r.map (·.1), writes := w.map (·.1), index := i.map (·.1), hits := (i ++ r ++ w).map (·.2) }

/-- Pieces that core c has read: an access to their banks, a charge, the releases read (R280), and an arrival where they lie in this device's own window
(R121, R254, R382). -/
def State.readsDone (s : State) (c pn : Nat) (cs : List Cap) : State :=
  cs.foldl (fun s x =>
    let q := s.landsAt pn x.2.1
    (((s.touchPlace q).charge pn q (s.seen c q x.2.2)).reads c (spaceOf x.1) q x.2.2 none).looped c pn [.read] x.2.1 q x.2.2 false) s

/-- The pages that captured pieces reach through one space, each once: through this device's own window, those on which they land (R254, R261). -/
def State.pagesIn (s : State) (pn sp : Nat) (cs : List Cap) : List Place :=
  pagesOf ((cs.filter fun x => spaceOf x.1 == sp).map fun x => (s.landsAt pn x.2.1, x.2.2))

/-- Keep the leaves and count the pages of a capture, each once per direction (R256, R261), whose index list is read at once. -/
def State.captured (s : State) (c pn : Nat) (k : Captured) : State :=
  let rs := k.index ++ k.reads
  let s := k.hits.foldl (fun s h => s.keepLeaf c h) s
  let s := (s.pagesIn pn 0 rs).foldl (fun s p => s.countPage pn p 1 0 0) s
  let s := (s.pagesIn pn 0 k.writes).foldl (fun s p => s.countPage pn p 0 1 0) s
  let s := (s.pagesIn pn 2 rs ++ s.pagesIn pn 2 k.writes).foldl (fun s p => s.countPage pn p 0 0 1) s
  let s := s.readsDone c pn k.index
  { s with stamp := s.stamp + 1 }

/-- The ways to captured pieces where they land, every WARM bank among them woken (R118, R400). -/
def State.ways (s : State) (owner pn : Nat) : List Cap → Way
  | [] => .clear
  | (_, p, n) :: t =>
    match s.way owner (s.landsAt pn p) n with
    | .denied => .denied
    | .clear => State.ways s owner pn t
    | .waits u => (match State.ways u owner pn t with
      | .clear => .waits u
      | w => w)

/-- The first of captured pieces that lies in a bank of another owner. -/
def State.deniedAt (s : State) (owner pn : Nat) (cs : List Cap) : Word :=
  match cs.find? fun c => match s.way owner (s.landsAt pn c.2.1) c.2.2 with | .denied => true | _ => false with
  | some c => c.1
  | none => 0#64

/-- The first byte of captured pieces whose 64-byte line has an uncorrectable error, with its address (R90). -/
def State.badByte (s : State) (pn : Nat) : List Cap → Option (Nat × Word)
  | [] => none
  | (p, pl, n) :: t =>
    let src := s.landsAt pn pl
    match (List.range n).find? fun i => (i == 0 || (src.offset + i) % 64 == 0) && s.readBad (src.plus i) 1 with
    | some i => some (i, p + BitVec.ofNat 64 i)
    | none => (State.badByte s pn t).map fun r => (n + r.1, r.2)

/-! ### Plans of the four commands -/

/-- A command's operand: a pointer, or the region that a handle names for reading or writing (R271). -/
structure Base where
  ptr : Word
  size : Option Nat := none
  hand : Option (Nat × Word) := none
deriving DecidableEq, Repr

/-- Why enqueue does not go on; a wait may have woken banks (R118). -/
inductive Enq (α : Type) where
  | go (a : α)
  | fault (k : Cause)
  | waits (s : State)

def Enq.bind {α β : Type} (a : Enq α) (f : α → Enq β) : Enq β :=
  match a with
  | .go x => f x
  | .fault k => .fault k
  | .waits s => .waits s

/-- Whether a PUBLISH that has begun holds later write enqueues into a slot (R274). -/
def State.slotHeld (s : State) (pn slot : Nat) : Bool :=
  s.cores.any fun e => e.2.part == some pn && s.accessRuns e.1 && e.2.aops.any fun o =>
    match o.instr with
    | .publish .. => o.begun && handleSlot o.addr == slot
    | _ => false

/-- An operand (R267, R271, R274): a write through a published handle uses the shadow, and waits while it is pending or a PUBLISH holds
the slot. -/
def State.base (s : State) (pn : Nat) (v : Word) (isHandle write : Bool) : Enq Base :=
  if !isHandle then .go { ptr := v }
  else
    let slot := handleSlot v
    if (write && s.slotHeld pn slot) || s.tableCopied pn slot then .waits s
    else match s.handleEntry pn v with
      | .error k => .fault (s.handleCause pn v k)
      | .ok (_, e) =>
        let hand := some (slot, v)
        if write && handleKind v == 2 then
          if e.shadow = 0#64 then .waits s else .go { ptr := e.shadow, size := some e.size, hand := hand }
        else .go { ptr := e.vis, size := some e.size, hand := hand }

/-- HANDLE-RANGE for bytes lo to hi of a region (R271). -/
def Base.inRange (b : Base) (hi : Nat) : Bool := match b.size with | some n => decide (hi ≤ n) | none => true

/-- The bytes of captured pieces, as core n sees them. -/
def State.readCaps (s : State) (n pn : Nat) (cs : List Cap) : Bytes := cs.flatMap fun c => s.seen n (s.landsAt pn c.2.1) c.2.2

/-- Indices of a list of n entries, read where it stands (R267). DEDUCED, log entry 45. -/
def State.indices (s : State) (n pn : Nat) (caps : List Cap) : List Nat :=
  let bytes := s.readCaps n pn caps
  (List.range (bytes.length / 4)).map fun i => leNat ((bytes.drop (4 * i)).take 4)

/-- Insertion before the first row of no lower index. -/
def insertRow (r : Nat × Nat) : List (Nat × Nat) → List (Nat × Nat)
  | [] => [r]
  | h :: t => if r.1 ≤ h.1 then r :: h :: t else h :: insertRow r t

/-- The rows of a SCATTER as (index, row) by ascending destination; rows of one destination keep their order (R268). DEDUCED, log entry 45. -/
def scatterOrder (idx : List Nat) : List (Nat × Nat) := idx.zipIdx.foldr insertRow []

/-- Ranges with those that follow one another joined, so that no aligned 8-byte unit of them is cut (R282). -/
def joinRanges : List (Word × Nat) → List (Word × Nat)
  | [] => []
  | (p, n) :: t =>
    match joinRanges t with
    | (q, k) :: u => if q = p + BitVec.ofNat 64 n then (p, n + k) :: u else (p, n) :: (q, k) :: u
    | [] => [(p, n)]

/-- Whether the accesses of core n before issue number q still hold a reader or writer of captured pieces (R270, R279, R283). -/
def State.piecesHeld (s : State) (n pn q : Nat) (cs : List Cap) (wr : Bool) : Bool :=
  ((s.core n).aops.filter fun y => seqBefore y.iseq q).any fun y => cs.any fun c => s.holds n pn y (s.landsAt pn c.2.1) c.2.2 wr false

/-- The plan of a command from its operand values (R266 to R268): the index list is read after every earlier access to it, of those before issue number
q when the command has one, and after what earlier commands are still to read of it (R270, R281, R283). DEDUCED, log entry 25. DEDUCED, log entry 43. DEDUCED, log entry 45. -/
def State.planOf (s : State) (c pn : Nat) (q : Option Nat) (i : Instr) (dst src len aux : Word) : Enq Plan :=
  match i with
  | .copy _ _ _ _ _ dh shd _ _ =>
    (s.base pn dst (dh == 1#1) true).bind fun d => (s.base pn src (shd == 1#1) false).bind fun r =>
      let n := len.toNat
      let off (b : Base) : Word := if b.size.isSome then aux else 0#64
      if !(d.inRange ((off d).toNat + n) && r.inRange ((off r).toNat + n)) then .fault { cause := 0x1D }
      else if 2 ^ 32 ≤ n then .fault { cause := 0x1E }
      else .go { reads := [(r.ptr + off r, n)], writes := [(d.ptr + off d, n)], srcRaw := shd == 0#1, dstRaw := dh == 0#1,
                 hands := d.hand.toList ++ r.hand.toList }
  | .ldq2 .. =>
    let n := len.toNat
    if 16 < n then .fault { cause := 0x1E }
    else .go { reads := (List.range n).map fun k => (src + BitVec.ofNat 64 k * aux, 128), align := 128, unit := 128 }
  | i =>
    let gather := match i with | .gather .. => true | _ => false
    let (dh, shd) := match i with
      | .gather _ _ _ _ _ dh shd => (dh == 1#1, shd == 1#1)
      | .scatter _ _ _ _ _ dh shd => (dh == 1#1, shd == 1#1)
      | _ => (false, false)
    (s.base pn dst dh true).bind fun d => (s.base pn src shd false).bind fun r =>
      let rows := len.toNat % 2 ^ 32
      let size := len.toNat / 2 ^ 32 % 2 ^ 16
      if !((if gather then d else r).inRange (rows * size)) then .fault { cause := 0x1D }
      else if 2 ^ 48 ≤ len.toNat ∨ 4096 < rows ∨ size = 0 then .fault { cause := 0x1E }
      else
        let idxPieces := piecesOf (aux, 4 * rows)
        if !(idxPieces.all fun p => s.spaceOk c .source p.1) then .fault { cause := 0x15, addr := aux }
        else if aux.toNat % 4 ≠ 0 ∧ rows ≠ 0 then .fault { cause := 0x16, addr := aux }
        else if idxPieces.any fun x => s.resolveCopied c x.1 then .waits s
        else match s.captureAll c false true idxPieces with
          | .error k => .fault k
          | .ok found =>
            let caps := found.map (·.1)
            match s.ways (s.core c).owner pn caps with
            | .denied => .fault { cause := 0x19, addr := s.deniedAt (s.core c).owner pn caps }
            | .waits t => .waits t
            | .clear =>
              if (match q with
                | some q => s.piecesHeld c pn q caps false || caps.any fun x => s.readOwed c pn q (s.landsAt pn x.2.1) x.2.2 true
                | none => false) then .waits s
              else match s.badByte pn caps with
              | some e => .fault { cause := 0x20, addr := e.2 }
              | none =>
                let idx := s.indices c pn caps
                let far := idx.foldl (fun m k => max m ((k + 1) * size)) 0
                if !((if gather then r else d).inRange far) then .fault { cause := 0x1D }
                else
                  let at_ (b : Base) (k : Nat) : Word × Nat := (b.ptr + BitVec.ofNat 64 (k * size), size)
                  let order := scatterOrder idx
                  .go { reads := if gather then idx.map (at_ r) else order.map fun e => at_ r e.2
                        writes := if gather then [(d.ptr, rows * size)] else joinRanges (order.map fun e => at_ d e.1)
                        index := [(aux, 4 * rows)], unit := size, srcRaw := !shd, dstRaw := !dh, hands := d.hand.toList ++ r.hand.toList }

/-- A plan with its captures; an overlap of source and destination is COMMAND-FORM (R268), a race on an LDQ2 row RACE (R288). DEDUCED, log entry 43. DEDUCED, log entry 44. -/
def State.planCapture (s : State) (c pn : Nat) (l : Plan) : Enq (Plan × Captured) :=
  if (l.reads ++ l.writes).any fun r => (piecesOf r).any fun x => s.resolveCopied c x.1 then .waits s
  else match s.capture c l with
  | .error k => .fault k
  | .ok k =>
    if capsOverlap s pn k.reads k.writes then .fault { cause := 0x1E } else .go (l, k)

/-- The first race among an LDQ2's rows. -/
def State.rowRace (s : State) (c pn : Nat) (k : Captured) : Option (Nat × Nat × Nat × Nat) :=
  k.reads.findSome? fun x => match s.landsAt pn x.2.1 with
    | .sp d off => ((s.core d).raceOn (coreRank c) (s.core c).race.v (linesOf off x.2.2)).map fun r => (d, r)
    | _ => none

/-- What an LDQ2's rows meet at enqueue (R118, R288): the ways to them, then the races, once the core's earlier acquire reads have joined. -/
def State.rowsChk (s : State) (n pn q : Nat) (k : Captured) : Enq Unit :=
  match s.ways (s.core n).owner pn k.reads with
  | .denied => .fault { cause := 0x19, addr := s.deniedAt (s.core n).owner pn k.reads }
  | .waits t => .waits t
  | .clear =>
    if (s.core n).aops.any fun y => seqBefore y.iseq q && y.phase != .done &&
        (match accOf y.instr with | some a => a.rd && a.acq && s.binds n a.scp | none => false) then .waits s
    else match s.rowRace n pn k with
      | some (d, ln, w, e) => .fault { cause := 0x1A, addr := spPointer d (64 * ln), detail := BitVec.ofNat 64 (w + e * 2 ^ 24) }
      | none => .go ()

/-- What a core's enqueue of a command comes to: its plan, captured, and the race check of an LDQ2. -/
def State.planned (s : State) (c pn : Nat) (q : Option Nat) (i : Instr) (dst src len aux : Word) : Enq (Plan × Captured) :=
  ((s.planOf c pn q i dst src len aux).bind fun l => s.planCapture c pn l).bind fun p =>
    match q, i with
    | some q, .ldq2 .. => (s.rowsChk c pn q p.2).bind fun _ => .go p
    | _, _ => .go p

/-! ### Enqueue (R256, R266, R268) -/

/-- An A-class or handle operand by its five-bit field. -/
def State.operand (s : State) (f : BitVec 5) (isHandle : Bool) : Word :=
  if isHandle then sget 0#64 (f.toNat % 16) s.me.h else s.reg f

/-- The slots a list of captured pieces writes. -/
def slotsOf (ws : List Cap) : List Nat :=
  ws.foldl (fun acc w => match w.2.1 with | .slot o _ => if acc.contains o then acc else acc ++ [o] | _ => acc) []

/-- Where a slot of a core stands as a watched place (R344, R345). -/
def watchPlace (n : Nat) : Place → Place
  | .slot o a => .sp n (0x200000 + 8192 * o + a)
  | p => p

/-- The first k bytes of captured pieces. -/
def headOf (k : Nat) : List Cap → List Cap
  | [] => []
  | (p, pl, n) :: t => if k = 0 then [] else if k ≤ n then [(p, pl, k)] else (p, pl, n) :: headOf (k - n) t

/-- The aligned 8-byte units of n bytes at an offset: the first byte of each and its length. -/
def unitsOf (off n : Nat) : List (Nat × Nat) :=
  (List.range (n / 8 + 2)).filterMap fun k =>
    let lo := if k = 0 then 0 else 8 * k - off % 8
    let hi := min n (8 * (k + 1) - off % 8)
    if lo < hi then some (lo, hi - lo) else none

/-- A match of one kind over captured pieces in spaces 0 and 1: the watchpoints, and the address of the first watched byte (R345). -/
def State.watchCaps (s : State) (n pn : Nat) (kind : WatchKind) (cs : List Cap) : Option (Nat × Word) :=
  cs.foldl (fun acc c =>
    match (if 2 ≤ spaceOf c.1 then none else s.watchHit pn kind (watchPlace n c.2.1) c.2.2), acc with
    | some h, some a => some (a.1 ||| h.1, a.2)
    | some h, none => some (h.1, c.1 + BitVec.ofNat 64 h.2)
    | none, a => a) none

/-- A matching unit of what a command moves: where it ends, the watchpoints, the report's bits and the address (R346, R347). -/
structure UnitHit where
  stop : Nat
  mask : Nat
  bits : Nat
  addr : Word
deriving DecidableEq, Repr

/-- The first aligned 8-byte unit, of n bytes at an offset, in which a watched byte is read or written (R346, R358). DEDUCED, log entry 46. -/
def State.watchUnits (s : State) (n pn off k : Nat) (rs ws : List Cap) : Option UnitHit :=
  if (s.part pn).armed = [] ∨ (s.core n).saved.isSome then none
  else (unitsOf off k).findSome? fun u =>
    match s.watchCaps n pn .read (headOf u.2 (restOf u.1 rs)), s.watchCaps n pn .write (headOf u.2 (restOf u.1 ws)) with
    | some a, some b => some { stop := u.1 + u.2, mask := a.1 ||| b.1, bits := 3, addr := a.2 }
    | some a, none => some { stop := u.1 + u.2, mask := a.1, bits := 1, addr := a.2 }
    | none, some b => some { stop := u.1 + u.2, mask := b.1, bits := 2, addr := b.2 }
    | none, none => none

/-- What a match makes of a command: the report with its sequence number, and the engine to freeze; an LDQ2 has no number (R346, R347). DEDUCED, log entry 47. -/
def State.watchedBy (s : State) (n pn : Nat) (m : Cmd) : Option UnitHit → State × Option (Nat × Word)
  | none => (s, m.watched)
  | some h =>
    let ldq2 := match m.instr with | .ldq2 .. => true | _ => false
    let info := if ldq2 then Config.freeWord s.free else BitVec.ofNat 64 m.seq
    let s := s.report pn (reportBytes 2 h.mask h.bits 5 Config.nodeId.toNat n h.addr info s.wall)
    (if ldq2 then { s with free := s.free + 1 } else s, some (m.watched.getD (h.mask, h.addr)))

/-- The watch check of an index list as it is read (R345). -/
def State.watchIndex (s : State) (n pn : Nat) (m : Cmd) (index : List Cap) : State × Option (Nat × Word) :=
  s.watchedBy n pn m (if m.quiet then none else match index with | c :: _ => s.watchUnits n pn c.2.1.offset (capLen index) index [] | [] => none)
where
  capLen (cs : List Cap) : Nat := cs.foldl (fun n c => n + c.2.2) 0

/-- A captured command takes its pages, and their count (R256, R261). -/
def State.takeUp (s : State) (n pn : Nat) (m : Cmd) (l : Plan) (k : Captured) : State × Cmd :=
  let s := s.captured n pn k
  (s, { m with reads := k.reads, writes := k.writes, unit := l.unit, hands := l.hands, again := false, stamp := s.stamp - 1 })

/-- A command joins the engine's list, or takes its place there again: the watch check of its index list, and its slots, which are no longer ready
(R268, R345). -/
def State.enter (s : State) (n pn : Nat) (m : Cmd) (index : List Cap) : State × Cmd :=
  let r := s.watchIndex n pn m index
  (r.1.modCore n fun c => (slotsOf m.writes).foldl (fun c o => c.setSlot o { c.slot o with ready := false }) c, { m with watched := r.2 })

/-- Whether a FENCE.rel whose orders do not hold yet holds what the issuing core would write (R279, R297). DEDUCED, log entry 53. -/
def State.relWaits (s : State) : Bool := s.me.aops.any fun o => match o.instr with | .fence .. => true | _ => false

/-- The captured command of the issuing core, with its index list: checked, translated and captured once, it is kept while it waits for its token or an
entry (R256, R268). DEDUCED, log entry 82. -/
def State.taken (s : State) (pn : Nat) (m : Cmd) (k : State → Cmd × List Cap → State) : State :=
  match s.me.a.taken with
  | some t => k s t
  | none =>
    match s.planned s.ctx.core pn (some s.ctx.iseq) m.instr m.dst m.src m.len m.aux with
    | .fault k => s.raise k
    | .waits t => t.waiting .ops
    | .go (l, c) =>
      let r := s.takeUp s.ctx.core pn m l c
      k (r.1.modMe fun x => { x with a := { x.a with taken := some (r.2, c.index) } }) (r.2, c.index)

/-- Enqueue a captured command on the issuing core: COPY, GATHER and SCATTER pop the token, then take a cq0 entry and a sequence number. A token popped
before a wait for the entry is not popped again. DEDUCED, log entry 82. -/
def State.enqueue (s : State) (pn : Nat) (tkop : BitVec 2) (ch : BitVec 4) (t : Cmd × List Cap) : State :=
  let pops := tkop == 2#2 && !s.me.a.took
  if pops && s.me.tokens ch.toNat == 0 then s.waiting (.token ch.toNat)
  else
    let s := if pops then s.modMe fun c => { c.setTokens ch.toNat (c.tokens ch.toNat - 1) with a := { c.a with took := true } } else s
    if s.me.full 19 then s.waiting (.room 19)
    else
      let s := s.modMe fun c => (c.reserve 19 emptyEntry).1
      let e := ((s.me.queue 19).pops + ((s.me.queue 19).es.length - 1)) % 65536
      let r := s.enter s.ctx.core pn { t.1 with iseq := s.ctx.iseq, word := s.ctx.word, seq := s.me.copySeq, entry := some e } t.2
      r.1.modMe fun c => { c with cmds := c.cmds ++ [r.2], copySeq := (c.copySeq + 1) % 2 ^ 32, a := { c.a with taken := none } }

/-- A COPY, GATHER or SCATTER on the issuing core. -/
def State.command (s : State) (i : Instr) (dst src len aux : Word) (tkop : BitVec 2) (ch : BitVec 4) : State :=
  match s.me.part with
  | none => s
  | some pn =>
    if s.relWaits then s.waiting .ops
    else s.taken pn { iseq := s.ctx.iseq, word := s.ctx.word, instr := i, seq := 0, dst := dst, src := src, len := len, aux := aux, reads := [],
                      writes := [], entry := none, push := if tkop = 1#2 then some ch.toNat else none } fun s t => s.enqueue pn tkop ch t

/-- COPY (R267, R268). DEDUCED, log entry 25. -/
def execCopy (g : BitVec 4) (dst src len aux : BitVec 5) (dh shd : BitVec 1) (tkop : BitVec 2) (tkch : BitVec 4) (s : State) : Result :=
  .next (if s.guardC g then
    s.gate (s.regsOk ((if dh = 0#1 then [dst] else []) ++ (if shd = 0#1 then [src] else []) ++ [len, aux])) fun s =>
      s.command (.copy g dst src len aux dh shd tkop tkch) (s.operand dst (dh == 1#1)) (s.operand src (shd == 1#1)) (s.reg len) (s.reg aux) tkop tkch
  else s)

/-- GATHER (R267, R268). -/
def execGather (g : BitVec 4) (dst src len aux : BitVec 5) (dh shd : BitVec 1) (s : State) : Result :=
  .next (if s.guardC g then
    s.gate (s.regsOk ((if dh = 0#1 then [dst] else []) ++ (if shd = 0#1 then [src] else []) ++ [len, aux])) fun s =>
      s.command (.gather g dst src len aux dh shd) (s.operand dst (dh == 1#1)) (s.operand src (shd == 1#1)) (s.reg len) (s.reg aux) 0#2 0#4
  else s)

/-- SCATTER (R267, R268). -/
def execScatter (g : BitVec 4) (dst src len aux : BitVec 5) (dh shd : BitVec 1) (s : State) : Result :=
  .next (if s.guardC g then
    s.gate (s.regsOk ((if dh = 0#1 then [dst] else []) ++ (if shd = 0#1 then [src] else []) ++ [len, aux])) fun s =>
      s.command (.scatter g dst src len aux dh shd) (s.operand dst (dh == 1#1)) (s.operand src (shd == 1#1)) (s.reg len) (s.reg aux) 0#2 0#4
  else s)

/-- LDQ2 (R266): up to 16 rows into reserved entries of a queue; nothing for a count of 0. DEDUCED, log entry 47. -/
def execLdq2 (g : BitVec 4) (q a len aux : BitVec 5) (s : State) : Result :=
  let i : Instr := .ldq2 g q a len aux
  .next (if s.guardC g then
    s.gate (s.regsOk [a, len, aux]) fun s =>
      let n := (s.reg len).toNat
      match s.me.part with
      | none => s
      | some pn =>
        if n = 0 then s
        else s.taken pn { iseq := s.ctx.iseq, word := s.ctx.word, instr := i, seq := 0, dst := BitVec.ofNat 64 q.toNat, src := s.reg a, len := s.reg len,
                          aux := s.reg aux, reads := [], writes := [], entry := none } fun s t =>
          if qCap q.toNat < (s.me.queue q.toNat).es.length + n then s.waiting (.room q.toNat)
          else
            let first := ((s.me.queue q.toNat).pops + (s.me.queue q.toNat).es.length) % 65536
            let m : Cmd := { t.1 with iseq := s.ctx.iseq, word := s.ctx.word, entry := some first }
            let e := { emptyEntry with iseq := s.ctx.iseq }
            s.modMe fun c =>
              { (List.range n).foldl (fun c _ => (c.reserve q.toNat e).1) c with cmds := c.cmds ++ [m], a := { c.a with taken := none } }
  else s)

/-! ### Movement (R268, R282) -/

/-- Bytes of a list of pieces. -/
def capLen (cs : List Cap) : Nat := cs.foldl (fun n c => n + c.2.2) 0

/-- Whether the core's accesses before a command hold its next bytes: an LDQ2 only reads (R266, R270, R279). DEDUCED, log entry 27. -/
def State.cmdHeld (s : State) (n pn : Nat) (m : Cmd) (cs : List Cap) : Bool :=
  s.piecesHeld n pn m.iseq cs (match m.instr with | .ldq2 .. => false | _ => true)

/-- A fault of a command after enqueue: the group stops, the command's record has FH (R268). -/
def State.failC (s : State) (n : Nat) (m : Cmd) (cause : Nat) (addr : Word) : State :=
  s.stop n { cause := cause, engine := 5, iseq := m.iseq, addr := addr }

/-- Advance a command. -/
def Core.modCmd (c : Core) (q : Nat) (f : Cmd → Cmd) : Core := { c with cmds := c.cmds.map fun m => if m.iseq = q && !m.inserted then f m else m }

/-- A command's slot fill begins: the generation counts at the first byte of each slot (R217). -/
def Core.fillSlot (c : Core) (m : Cmd) (o : Nat) : Core :=
  let before := m.writes.foldl (fun (acc : Nat × Bool) w =>
    (acc.1 + w.2.2, acc.2 || (decide (acc.1 < m.progress) && (match w.2.1 with | .slot u _ => u == o | _ => false)))) (0, false)
  if before.2 then c else c.setSlot o { c.slot o with gen := ((c.slot o).gen + 1) % 2 ^ 32 }

/-- Write a command's bytes at their destination, with the race checker (R287) and, on this device's own window, the arrival. DEDUCED, log entry 46. -/
def State.moved (s : State) (n pn : Nat) (m : Cmd) (w : Place) (d : Bytes) : State :=
  let pl := s.landsAt pn w
  let s := match pl with | .slot o _ => s.modCore n fun c => c.fillSlot m o | _ => s
  let s := (((s.writePlace n pl d).toPeer n pl).writeGood pl d.length).charge pn pl d
  let s := match pl with | .sp c off => s.raceCommand n c off d.length | _ => s
  s.looped n pn [.write] w pl d.length false

/-- Rows of an LDQ2: the next row fills its entry (R266); its read joins what the line carries into P, as an access core's read does (R287).
DEDUCED, log entry 47. DESIGN CHOICE, log entry 103. -/
def State.chunkLdq2 (s : State) (n pn : Nat) (m : Cmd) : State :=
  match restOf m.progress m.reads with
  | [] => s
  | (rp, r, _) :: _ =>
    let src := s.landsAt pn r
    if s.cmdHeld n pn m [(rp, r, 128)] then s
    else match s.way (s.core n).owner src 128 with
      | .waits s => s
      | .denied => s.failC n m 0x19 rp
      | .clear =>
        if s.readBad src 128 then s.failC n m 0x20 rp
        else
          -- a row is read at one instant (R282), and matches as a whole
          let hit := if m.quiet || (s.core n).saved.isSome then none else s.watchCaps n pn .read [(rp, r, 128)]
          let d := s.seen n src 128
          let s := s.readsDone n pn [(rp, r, 128)]
          let s := match src with | .sp k off => s.raceRead n m.iseq { size := 128, rd := true } k off | _ => s
          let s := s.modCore n fun c => c.fillEntry m.dst.toNat ((m.entry.getD 0 + m.progress / 128) % 65536) (rowOf d)
          let t := s.watchedBy n pn m (hit.map fun h => { stop := 128, mask := h.1, bits := 1, addr := h.2 })
          t.1.modCore n fun c => c.modCmd m.iseq fun m => { m with progress := m.progress + 128, watched := t.2 }

/-- Bytes of a chunk: at most the limit, up to the end of an aligned 8-byte unit of the destination or of its piece (R268, R282). -/
def chunkLen (off limit n : Nat) : Nat := if n ≤ limit then n else (off + limit) / 8 * 8 - off

/-- What a chunk of k bytes reads: the bytes not read ahead, up to the end of the aligned 8-byte unit of the source in which it ends (R282). -/
def chunkReads (m : Cmd) (k : Nat) : List Cap :=
  let rest := restOf m.progress m.reads
  let a := m.ahead.length
  headOf (k - a) (restOf a rest) ++
    (match restOf k rest with
      | (p, pl, n) :: _ => if a < k ∧ pl.offset % 8 ≠ 0 then [(p, pl, min n (8 - pl.offset % 8))] else []
      | [] => [])

/-- The bytes of a chunk that may be written: all of them, or those before a line that fails, the lines before which are written (R90). -/
def State.chunkGood (s : State) (pn : Nat) (m : Cmd) (k : Nat) : Nat × Option Word :=
  match s.badByte pn (chunkReads m k) with
  | some (i, p) => if m.ahead.length + i < k then (m.ahead.length + i, some p) else (k, none)
  | none => (k, none)

/-- The bytes that a chunk moves once nothing stands in its way, up to the end of the first unit that matches (R268, R282, R346, R358). -/
def State.chunkMove (s : State) (n pn : Nat) (m : Cmd) (w : Place) (k : Nat) : State :=
  let g := s.chunkGood pn m k
  let ws := headOf g.1 (restOf m.progress m.writes)
  let hit := if m.quiet then none else s.watchUnits n pn w.offset g.1 (restOf m.progress m.reads) ws
  let stopAt := match hit with | some h => h.stop | none => g.1
  let src := headOf (if g.2.isSome then g.1 - m.ahead.length else k + 8) (chunkReads m k)
  let d := m.ahead ++ s.readCaps n pn src
  let s := s.readsDone n pn src
  let s := if stopAt = 0 then s else s.moved n pn m w (d.take stopAt)
  let t := s.watchedBy n pn m hit
  let s := t.1.modCore n fun c => c.modCmd m.iseq fun m => { m with progress := m.progress + stopAt, ahead := d.drop stopAt, watched := t.2 }
  match g.2 with
  | some p => if hit.isNone then s.failC n m 0x20 p else s
  | none => s

/-- A chunk that fails because its node is lost may have been written there, up to any unit (R399): a free value decides. DEDUCED, log entry 72. -/
def State.maybeChunk (s : State) (n pn : Nat) (m : Cmd) (w : Place) (k : Nat) : State :=
  if (s.chunkGood pn m k).2.isSome || !s.lost w then s
  else
    let d := m.ahead ++ s.readCaps n pn (headOf (k + 8) (chunkReads m k))
    { s.writePlace outsider w (d.take (min k (8 * ((Config.freeWord s.free).toNat % (k / 8 + 2))))) with free := s.free + 1 }

/-- One chunk of a COPY, GATHER or SCATTER: at most `limit` bytes, within one destination piece, ascending (R268). A slot released meanwhile is
SLOT-UNCLAIMED at the next chunk. DESIGN CHOICE, log entry 98. -/
def State.chunk (s : State) (n pn : Nat) (m : Cmd) (limit : Nat) : State :=
  match restOf m.progress m.writes with
  | (wp, w, wn) :: _ =>
    let k := chunkLen w.offset limit wn
    let dst := s.landsAt pn w
    let all := chunkReads m k ++ [(wp, w, k)]
    let slotBad := match dst with | .slot o _ => !((s.core n).slot o).claimed | _ => false
    if s.cmdHeld n pn m all then s
    else if slotBad then s.failC n m 0x10 wp
    else if s.lost dst then
      (match s.ways (s.core n).owner pn (chunkReads m k) with
        | .denied => s.failC n m 0x19 (s.deniedAt (s.core n).owner pn (chunkReads m k))
        | .waits t => t
        | .clear => (s.maybeChunk n pn m dst k).failC n m 0x20 wp)
    else match s.ways (s.core n).owner pn all with
      | .denied => s.failC n m 0x19 (s.deniedAt (s.core n).owner pn all)
      | .waits t => t
      | .clear => s.chunkMove n pn m w k
  | [] => s

/-- A fault of a command at its enqueue again, with all that its check names (R288, R330). -/
def State.failAgain (s : State) (n : Nat) (m : Cmd) (k : Cause) : State := s.stop n { k with engine := 5, iseq := m.iseq }

/-- A command enqueued again because its record was edited: it keeps its number and its entry, and is tried again while it must wait (R330). -/
def State.requeue (s : State) (n : Nat) (m : Cmd) : State :=
  match (s.core n).part with
  | none => s
  | some pn =>
    match s.planned n pn (some m.iseq) m.instr m.dst m.src m.len m.aux with
    | .fault k => s.failAgain n m k
    | .waits t => t
    | .go (l, k) =>
      let t := s.takeUp n pn m l k
      let r := t.1.enter n pn t.2 k.index
      r.1.modCore n fun c => c.modCmd m.iseq fun _ => r.2

/-- Whether the copy engine of a core is frozen, or about to freeze for a command that has matched (R346). -/
def Core.engineHeld (c : Core) : Bool := c.frozen || c.cmds.any fun m => m.watched.isSome

/-- One turn of a core's copy engine: the first command moves one chunk; an engine that is frozen or is to freeze moves none (R268, R346). -/
def State.copyTurn (s : State) (n : Nat) : State :=
  match (s.core n).cmds, (s.core n).part with
  | m :: _, some pn =>
    if !s.opRuns n m.iseq || (s.core n).engineHeld then s
    else if m.again then s.requeue n m
    else if capLen m.reads ≤ m.progress then s
    else match m.instr with
      | .ldq2 .. => s.chunkLdq2 n pn m
      | _ => s.chunk n pn m 512
  | _, _ => s

/-! ### Retirement (R268, R269, R275) -/

/-- The status word of a command (R269). -/
def Cmd.status (m : Cmd) : Word :=
  let kind := match m.instr with | .copy .. => 1 | .gather .. => 2 | _ => 3
  BitVec.ofNat 64 (m.seq * 2 ^ 32 + kind * 2 ^ 12 + if m.stale then 1 else 0)

/-- COMMAND_RETIRE: the first command, all its bytes moved, retires: slots become ready, its status enters cq0, a token is pushed; a full
channel raises QUEUE-OVERFLOW with the rest standing (R141). -/
def execCommandRetire (core : Nat) (s : State) : Result :=
  .next (match (s.core core).cmds with
    | m :: rest =>
      if !s.opRuns core m.iseq || (s.core core).frozen || m.watched.isSome || m.again || m.progress < capLen m.reads then s
      else
        let s := s.modCore core fun c =>
          let later := rest.flatMap fun r => slotsOf r.writes
          let c := (slotsOf m.writes).foldl (fun c o => if later.contains o then c else c.setSlot o { c.slot o with ready := true }) c
          let c := match m.instr, m.entry with
            | .ldq2 .., _ => c
            | _, some e => c.fillEntry 19 e (m.status.setWidth 1024)
            | _, none => c
          { c with cmds := rest }
        match m.push with
        | none => s
        | some ch =>
          if (s.core core).tokens ch ≥ 15 then s.stop core { cause := 0x09, engine := 5 }
          else s.modCore core fun c => c.setTokens ch (c.tokens ch + 1)
    | [] => s)

/-- The bytes that the engine still moves before it freezes, at most k, whole 8-byte units, each checked as it is written (R358). -/
def State.skid (s : State) (n pn q : Nat) : Nat → Nat → State
  | 0, _ => s
  | fuel + 1, k =>
    match (s.core n).cmds.find? fun m => m.iseq == q && !m.inserted with
    | some m =>
      if k < 8 || capLen m.reads ≤ m.progress || !s.accessRuns n then s
      else
        let t := s.chunk n pn m (k / 8 * 8)
        match (t.core n).cmds.find? fun m => m.iseq == q && !m.inserted with
        | some u => if u.progress ≤ m.progress then t else State.skid t n pn q fuel (k - (u.progress - m.progress))
        | none => t
    | none => s

/-- WATCH_COPY_FREEZE: after a watched unit and at most 512 further bytes the engine freezes and the group stops (R346, R358). All the further bytes are in the
matching command, none for an LDQ2 or a command that is not the first. DESIGN CHOICE, log entry 105. -/
def execWatchCopyFreeze (core skid : Nat) (s : State) : Result :=
  .next (match (s.core core).cmds.find? fun m => m.watched.isSome, (s.core core).part with
    | some m, some pn =>
      if !s.accessRuns core || (s.core core).frozen then s
      else
        let w := m.watched.getD (0, 0#64)
        let first := ((s.core core).cmds.head?.map (·.iseq)) == some m.iseq
        let s := match m.instr with | .ldq2 .. => s | _ => if first then s.skid core pn m.iseq 65 (min skid 512 / 8 * 8) else s
        let s := s.modCore core fun c => { c with frozen := true }
        if s.accessRuns core then s.stop core { cause := 0x42, code := lowest w.1, engine := 5, iseq := m.iseq, addr := w.2 } else s
    | _, _ => s)

end Sys2Proof.Machine
end

