-- ==== Sys2Proof/Machine/Paging.lean ====
section
/-! DEFINITION. Handles (R271 to R275) and the reuse of pages: quarantine (R258, R259) and TFENCE (R260). -/

namespace Sys2Proof.Machine

/-! ### A-class syllables that stay unfinished (R321 kind 6) -/

/-- An unfinished synchronisation syllable of the one being issued, with its register operands. -/
def State.pushSync (s : State) (i : Instr) (addr data extra : Word) (begun : Bool) : State :=
  s.modMe fun c => { c with aops := c.aops ++ [{ iseq := s.ctx.iseq, word := s.ctx.word, instr := i, phase := .sync, addr := addr,
                                                 data := data, extra := extra, begun := begun }] }

/-! ### Handles -/

/-- HLD (R273). -/
def execHld (g h : BitVec 4) (s1 : BitVec 5) (s : State) : Result :=
  .next (if s.guardC g then
    s.gate (s.regsOk [s1]) fun s => s.modMe fun c => { c with h := sset 0#64 h.toNat (s.reg s1) c.h }
  else s)

/-- A base that R272 allows: a space-0 pointer, 64 KiB aligned. DEDUCED, log entry 53. -/
def baseOk (b : Word) : Bool := b.toNat / 2 ^ 48 == 0 && b.toNat % 65536 == 0

/-- Whether a descriptor may make a handle (R272, R273). -/
def HEntry.fresh (e : HEntry) : Bool :=
  e.cur == 0#64 && baseOk e.vis && baseOk e.shadow && e.size % 65536 == 0 && decide (65536 ≤ e.size) && decide (e.size ≤ 2 ^ 40) &&
  (e.shadow == 0#64 || decide (e.vis.toNat + e.size ≤ e.shadow.toNat) || decide (e.shadow.toNat + e.size ≤ e.vis.toNat))

/-- The lowest free slot of the handle table with the address of its entry; a free slot has no size (R273). The scan waits at an entry in a channel that is
being copied (R400), and fails at one that cannot be read, named by its address (R90). DEDUCED, log entry 52. -/
def State.freeSlot (s : State) (pn : Nat) : Nat → Nat → Enq (Option (Nat × Nat))
  | _, 0 => .go none
  | slot, fuel + 1 =>
    if s.tableCopied pn slot then .waits s
    else match s.htSlot pn slot with
    | .error k => .fault { cause := k, addr := s.tableAddr pn slot }
    | .ok a =>
      if s.readBad (.hbm a) 32 then .fault { cause := 0x20, addr := s.tableAddr pn slot }
      else if (s.readEntry a).size = 0 then .go (some (slot, a)) else State.freeSlot s pn (slot + 1) fuel

/-- Write bytes at captured places in order. -/
def State.writeCaps (s : State) (n pn : Nat) : List Cap → Bytes → State
  | [], _ => s
  | (_, p, k) :: t, d =>
    let q := s.landsAt pn p
    State.writeCaps ((((s.writePlace n q (d.take k)).toPeer n q).writeGood q k).charge pn q (d.take k)) n pn t (d.drop k)

/-- Whether what the core issued earlier holds HNEW's read and write of its descriptor (R264, R279, R281). -/
def State.descHeld (s : State) (n pn q : Nat) (cs : List Cap) : Bool :=
  s.piecesHeld n pn q cs true || cs.any fun c => s.readOwed n pn q (s.landsAt pn c.2.1) c.2.2 true

/-- What HNEW makes of a descriptor that it may use, at captured pieces: the lowest free slot takes it, and both h and the descriptor receive the
value, 0 when no slot is free (R273). In scratchpad both are accesses of the core to the race checker (R287). -/
def State.hnewPut (s : State) (n pn : Nat) (o : AOp) (h : BitVec 4) (cs : List Cap) (d : Bytes) (e : HEntry) (slot : Option (Nat × Nat)) : State :=
  let lines (f : State → Nat → Nat → Nat → State) (s : State) : State := cs.foldl (fun s c => match s.landsAt pn c.2.1 with
    | .sp k off => f s k off c.2.2
    | _ => s) s
  let s := lines (fun s k off m => s.raceWrite n o { size := m, wr := true } k off) (lines (fun s k off m => s.raceRead n o.iseq { size := m, rd := true } k off) s)
  let (s, v) := match slot with
    | none => (s, 0#64)
    | some (k, a) =>
      let v := handleOf (handleGen (s.readEntry a).cur) k (if e.shadow = 0#64 then 1 else 2)
      (s.writeEntry a { e with cur := v }, v)
  (s.writeCaps n pn cs (d.take 24 ++ wordBytes v)).modCore n fun c => { c with h := sset 0#64 h.toNat v c.h }

/-- The translation of HNEW's descriptor, once, at issue (R256, R262): its pieces, counted for its read and its write (R261). -/
def State.hnewCapture (s : State) (n pn : Nat) (p : Word) : Except Cause (State × List Cap) :=
  let ps := piecesOf (p, 32)
  if !(ps.all fun x => s.spaceOk n .access x.1) then .error { cause := 0x15, addr := p }
  else if p.toNat % 8 ≠ 0 then .error { cause := 0x16, addr := p }
  else match s.captureAll n true true ps with
    | .error k => .error k
    | .ok caps =>
      let cs := caps.map (·.1)
      .ok (s.captured n pn { reads := cs, writes := cs, index := [], hits := caps.map (·.2) }, cs)

/-- HNEW goes on with its captured descriptor (R273), which is read and checked after what the core issued earlier to its bytes. DEDUCED, log entry 53. -/
def State.hnewGo (s : State) (n pn : Nat) (o : AOp) (h : BitVec 4) : Enq State :=
  match s.ways (s.core n).owner pn o.caps with
  | .denied => .fault { cause := 0x19, addr := o.addr }
  | .waits t => .waits t
  | .clear =>
    if s.descHeld n pn o.iseq o.caps then .waits s
    else match s.badByte pn o.caps with
    | some x => .fault { cause := 0x20, addr := x.2 }
    | none =>
      let d := s.readCaps n pn o.caps
      let w (k : Nat) : Word := BitVec.ofNat 64 (leNat ((d.drop (8 * k)).take 8))
      let e : HEntry := { vis := w 0, size := (w 1).toNat, shadow := w 2, cur := w 3 }
      if !e.fresh then .fault { cause := 0x1B, addr := o.addr }
      else (s.freeSlot pn 1 ((s.part pn).idx 0x418 % 65536)).bind fun slot => .go ((s.readsDone n pn o.caps).hnewPut n pn o h o.caps d e slot)

/-- HNEW (R273): it takes effect at once, or stands unfinished while what the core issued earlier holds its descriptor (R321 kind 6). -/
def execHnew (g h : BitVec 4) (s1 : BitVec 5) (s : State) : Result :=
  .next (if s.guardC g then
    s.gate (s.regsOk [s1]) fun s =>
      match s.me.part with
      | none => s
      | some pn =>
        let p := s.reg s1
        if (piecesOf (p, 32)).any fun x => s.resolveCopied s.ctx.core x.1 then s.waiting .ops
        else match s.hnewCapture s.ctx.core pn p with
        | .error k => s.raise k
        | .ok (t, cs) =>
          let o : AOp := { iseq := t.ctx.iseq, word := t.ctx.word, instr := .hnew g h s1, phase := .sync, addr := p, caps := cs }
          match t.hnewGo t.ctx.core pn o h with
          | .go u => u
          | .fault k => t.raise k
          | .waits u => u.modMe fun c => { c with aops := c.aops ++ [o] }
  else s)

/-- An unfinished HNEW goes on; one that is issued again is translated again (R330). -/
def State.hnewStep (s : State) (n pn : Nat) (o : AOp) (h : BitVec 4) : State :=
  if o.caps.isEmpty then
    if (piecesOf (o.addr, 32)).any fun x => s.resolveCopied n x.1 then s
    else match s.hnewCapture n pn o.addr with
    | .error k => s.failA n o k
    | .ok (t, cs) => t.modCore n fun c => c.modAop o.iseq fun o => { o with caps := cs }
  else match s.hnewGo n pn o h with
    | .go t => t.modCore n fun c => c.dropAop o.iseq
    | .fault k => s.failA n o k
    | .waits t => t

/-- A core whose commands that captured a slot see its generation change. -/
def Core.staleSlot (c : Core) (slot : Nat) : Core := c.mapCmds fun m => if m.hands.any fun h => h.1 == slot then { m with stale := true } else m

/-- Commands of a partition that captured a slot see its generation change, those of saved contexts included (R275, R332). -/
def State.staleSlot (s : State) (pn slot : Nat) : State :=
  let s := s.mapCores fun _ c => if c.part = some pn then c.staleSlot slot else c
  { s with groups := s.groups.map fun g => if g.part = pn then { g with images := g.images.map fun e => (e.1, e.2.staleSlot slot) } else g }

/-- HFREE (R273): the entry is cleared and keeps the next generation. -/
def execHfree (g h : BitVec 4) (s : State) : Result :=
  .next (if s.guardC g then
    match s.me.part with
    | none => s
    | some pn =>
      let v := sget 0#64 h.toNat s.me.h
      if s.tableCopied pn (handleSlot v) then s.waiting .ops
      else match s.handleEntry pn v with
      | .error k => s.raise (s.handleCause pn v k)
      | .ok (a, _) =>
        let s := s.writeEntry a { vis := 0#64, size := 0, shadow := 0#64, cur := handleOf (handleGen v + 1) 0 0 }
        let s := s.modPart pn fun p => { p with shadows := p.shadows.filter fun x => x.1 != handleSlot v }
        s.staleSlot pn (handleSlot v)
  else s)

/-- What PUBLISH requires of its handle (R274). -/
def State.publishChk (s : State) (pn : Nat) (v : Word) : Except Nat (Nat × HEntry) :=
  match s.handleEntry pn v with
  | .error k => .error k
  | .ok (a, e) => if handleKind v = 2 ∧ e.shadow ≠ 0#64 then .ok (a, e) else .error 0x1B

/-- PUBLISH (R274): the check; the release, the hold on later write enqueues and the swap come as what they wait for has passed. -/
def execPublish (g h : BitVec 4) (scp : BitVec 3) (s : State) : Result :=
  .next (if s.guardC g then
    match s.me.part with
    | none => s
    | some pn =>
      let v := sget 0#64 h.toNat s.me.h
      if s.tableCopied pn (handleSlot v) then s.waiting .ops
      else match s.publishChk pn v with
      | .error k => s.raise (s.handleCause pn v k)
      | .ok _ => s.pushSync (.publish g h scp) v 0#64 0#64 false
  else s)

/-- Whether a command still writes the shadow of a slot (R274). -/
def Cmd.writesSlot (m : Cmd) (slot : Nat) : Bool :=
  match m.instr with
  | .copy _ _ _ _ _ dh _ _ _ => dh == 1#1 && handleSlot m.dst == slot
  | .gather _ _ _ _ _ dh _ => dh == 1#1 && handleSlot m.dst == slot
  | .scatter _ _ _ _ _ dh _ => dh == 1#1 && handleSlot m.dst == slot
  | _ => false

/-- The physical 64 KiB pages of a region of a partition (R259, R274). -/
def State.pagesAt (s : State) (pn : Nat) (base : Word) (size : Nat) : List Nat :=
  (List.range (size / 65536)).filterMap fun k =>
    match s.mapVa pn none (vaOf base + 65536 * k) false false with
    | .ok { place := .hbm a, .. } => some (a / 65536)
    | _ => none

/-- Whether a command of a partition, also one of a saved context, still writes the shadow of a slot (R274, R332). -/
def State.shadowWritten (s : State) (pn slot : Nat) : Bool :=
  let busy (c : Core) : Bool := c.allCmds.any fun m => m.writesSlot slot
  s.cores.any (fun e => e.2.part == some pn && busy e.2) || s.groups.any fun g => g.part == pn && g.images.any fun e => busy e.2

/-- A PUBLISH goes on (R274, R284): the release once the core's earlier accesses are performed, with the hold; then the swap, once the earlier shadow
writes have retired. Reissued after a stop, it begins again (R330). -/
def State.publishSwap (s : State) (n pn : Nat) (o : AOp) (h : Nat) : State :=
  let slot := handleSlot o.addr
  if s.tableCopied pn slot then s
  else match s.publishChk pn o.addr with
  | .error k => s.failA n o (s.handleCause pn o.addr k)
  | .ok (a, e) =>
    if !o.begun then
      if ((s.core n).earlier o.iseq).any AOp.pending then s
      else (s.showScope n (match o.instr with | .publish _ _ scp => scp.toNat | _ => 3)).modCore n fun c => ({ c with race := c.race.release } : Core).modAop o.iseq fun o => { o with begun := true }
    else if s.shadowWritten pn slot then s
    else
      let v := handleOf (handleGen o.addr + 1) slot 2
      let pages := s.pagesAt pn e.vis e.size
      let s := s.writeEntry a { vis := e.shadow, size := e.size, shadow := 0#64, cur := v }
      let s := s.modPart pn fun p =>
        { p with quarantine := p.quarantine ++ pages.map fun g => (g, s.qseq, some (slot, handleGen v))
                 shadows := (slot, handleGen v, pages.length, e.vis) :: p.shadows.filter fun x => x.1 != slot }
      let s := s.staleSlot pn slot
      s.modCore n fun c => ({ c with h := sset 0#64 h v c.h } : Core).dropAop o.iseq

/-- PUBLISH_SWAP: the instant of a core's PUBLISH (R274). -/
def execPublishSwap (core : Nat) (s : State) : Result :=
  .next (match (s.core core).aops.find? fun o => match o.instr with | .publish .. => true | _ => false, (s.core core).part with
    | some o, some pn =>
      if s.opRuns core o.iseq then (match o.instr with | .publish _ h _ => s.eased (s.publishSwap core pn o h.toNat) core | _ => s) else s
    | _, _ => s)

/-! ### Quarantine (R258, R259) -/

/-- Pages of a partition that leave quarantine: back to a slot whose shadow they become, or to QPOP, also when the slot has been freed (R259, R274). -/
def State.releasePages (s : State) (pn : Nat) (ready : (Nat × Nat × Option (Nat × Nat)) → Bool) : State :=
  let p := s.part pn
  let out := p.quarantine.filter ready
  let kept (k : Nat × Nat) : Bool := p.shadows.any fun x => (x.1, x.2.1) == k
  let plain := (out.filter fun e => match e.2.2 with | some k => !kept k | none => true).map (·.1)
  let back (x : Nat × Nat × Nat × Word) : Nat := (out.filter fun e => e.2.2 == some (x.1, x.2.1)).length
  let shadows := p.shadows.map fun x => (x.1, x.2.1, x.2.2.1 - back x, x.2.2.2)
  let done := shadows.filter fun x => x.2.2.1 == 0
  let s := s.setPart pn { p with quarantine := p.quarantine.filter (fun e => !ready e), released := p.released ++ plain,
                                 shadows := shadows.filter fun x => x.2.2.1 != 0 }
  done.foldl (fun s x => match s.htSlot pn x.1 with
    | .ok a => s.storeHbm (a + 16) (wordBytes x.2.2.2)
    | .error _ => s) s

/-- Accesses and commands alive in the device, saved contexts included (R257, R259). -/
def State.alive (s : State) : List (Nat × Nat × Nat) :=
  let of (ctx n : Nat) (c : Core) : List (Nat × Nat × Nat) :=
    ((c.aops ++ c.heldA).filter fun o => (accOf o.instr).isSome || !o.caps.isEmpty).map (fun o => (ctx, n, o.iseq)) ++ c.allCmds.map fun m => (ctx, n, m.iseq)
  s.cores.flatMap (fun e => of e.2.owner e.1 e.2) ++ s.groups.flatMap fun g => g.images.flatMap fun e => of g.num e.1 e.2

/-- QSEQ_ADVANCE: once everything alive when QSEQ reached its value has retired, the translations cached before then are discarded,
QSEQ counts, and pages that entered two steps earlier leave (R259). DEDUCED, log entry 40. -/
def execQseqAdvance (s : State) : Result :=
  .next (if s.qAlive.any fun x => s.alive.contains x then s
    else
      let s := s.mapCores fun _ c => { c with cache := c.cache.filter fun l => decide (s.qStamp ≤ l.stamp) }
      let s := { s with qseq := s.qseq + 1, qAlive := s.alive, qStamp := s.stamp }
      (List.range 48).foldl (fun s p => if (s.part p).quarantine = [] then s else s.releasePages p fun e => decide (e.2.1 + 2 ≤ s.qseq)) s)

/-- QPUSH_WRITE: a page enters quarantine; with 65,536 pages queued the write waits (R258). Pages that have left quarantine and wait for QPOP count.
DESIGN CHOICE, log entry 104. -/
def execQpushWrite (part : Nat) (value : Word) (s : State) : Result :=
  let p := s.part part
  .next (if 65536 ≤ p.quarantine.length + p.released.length then s
    else s.setPart part { p with quarantine := p.quarantine ++ [(value.toNat / 65536 % 2 ^ 23, s.qseq, none)] })

/-- QPOP_READ: the first released page, or bit 63 (R258). -/
def execQpopRead (part : Nat) (s : State) : Result :=
  .next (match (s.part part).released with
    | [] => { s with reply := .status 0x8000000000000000#64 }
    | g :: t => { s.setPart part { s.part part with released := t } with reply := .status (BitVec.ofNat 64 (65536 * g)) })

/-! ### TFENCE (R260) -/

/-- A TFENCE goes on (R260): once the earlier stores are performed, translations cached before it are discarded in its scope; once the
commands that captured before it have retired, it completes. DEDUCED, log entry 40. -/
def State.tfenceStep (s : State) (n pn : Nat) (o : AOp) (scp : Nat) : State :=
  -- the fence takes its place among the translations when it is issued, or issued again (`State.stamp`)
  let fresh := o.value == 0#64
  let mine := if fresh then s.stamp + 1 else o.value.toNat
  let s := if fresh then { s.modCore n fun c => c.modAop o.iseq fun o => { o with value := BitVec.ofNat 64 mine } with stamp := s.stamp + 1 } else s
  let earlier := (s.core n).aops.takeWhile fun y => y.iseq != o.iseq
  if earlier.any fun y => (match accOf y.instr with | some a => a.wr | none => false) && y.phase != .done then s
  else
    let s := if o.begun then s else
      let s := s.mapCores fun k c => if inScope scp n k then { c with cache := c.cache.filter fun l => decide (mine ≤ l.stamp) } else c
      s.modCore n fun c => c.modAop o.iseq fun o => { o with begun := true }
    let old (k : Nat) (c : Core) : Bool := inScope scp n k && c.allCmds.any fun m => decide (m.stamp < mine)
    if s.cores.any (fun e => old e.1 e.2) || s.groups.any fun g => g.images.any fun e => old e.1 e.2 then s
    else
      let s := if (s.part pn).reg 0x408 &&& 1#64 = 1#64 ∧ 3 ≤ scp then s.releasePages pn fun _ => true else s
      s.modCore n fun c => c.dropAop o.iseq

/-- TFENCE: nothing issues after it until it completes. -/
def execTfence (g : BitVec 4) (scp : BitVec 3) (s : State) : Result :=
  .next (if s.guardC g then
    match s.me.part with
    | some pn =>
      let s := s.pushSync (.tfence g scp) 0#64 0#64 0#64 false
      (match s.me.aop s.ctx.iseq with | some o => s.tfenceStep s.ctx.core pn o scp.toNat | none => s)
    | none => s
  else s)

/-- TFENCE_COMPLETE: the TFENCE of a core goes on as far as its conditions allow (R260). -/
def execTfenceComplete (core : Nat) (s : State) : Result :=
  .next (match (s.core core).aops.find? fun o => match o.instr with | .tfence .. => true | _ => false, (s.core core).part with
    | some o, some pn =>
      if s.opRuns core o.iseq then (match o.instr with | .tfence _ scp => s.eased (s.tfenceStep core pn o scp.toNat) core | _ => s) else s
    | _, _ => s)

end Sys2Proof.Machine
end

