-- ==== Sys2Proof/Machine/Resume.lean ====
section
/-! DEFINITION. The two phases of a resume (R329, R330): reissue with the clocks held, the operations a handler inserted, legends built
again, and the restart of the clocks. -/

namespace Sys2Proof.Machine

/-- A fill that was pending at the stop is built again from its sources with the generations it captured (R228, R330). -/
def Core.refill (c : Core) : Core :=
  { c with ops := c.ops.map fun o =>
      if o.kind = .fill then
        let g := o.gens.toNat / 2 ^ 32
        let b := o.gens.toNat % 2 ^ 32
        match o.mx, decode o.word with
        | some _, _ => { o with lands := [.legends (c.buildLegends o (o.fw.getD 0#64) g b)] }
        | none, .ok (.lgload _ l n k pos) => { o with lands := [.legends (c.loadLegends o.word l.toNat (n.toNat + 1) k.toNat pos.toNat g)] }
        | none, _ => o
      else o }

/-- What a pending fill reads again, in error or not (R90). -/
def State.refillChk (s : State) (n : Nat) (o : Op) : Start :=
  let bank (v : Nat) : List Nat := [v / 16]
  match o.mx, decode o.word with
  | some (.lgb _ _ _ _ sk src _ _), _ => s.mxGood n (if sk = 1#1 then [src.toNat] else []) (if sk = 0#1 then bank o.vbase else []) []
  | some (.lgbc _ _ _ _ sk src _ _), _ =>
    s.mxGood n ((if sk = 1#1 then [src.toNat] else []) ++ [fwCb (o.fw.getD 0#64)]) (if sk = 0#1 then bank o.vbase else []) []
  | none, .ok (.lgload _ _ _ k _) => s.mxGood n [k.toNat] [] []
  | _, _ => .go

/-- The pending fills of a core are built again; the first whose source is in error stops the group (R90, R330). -/
def State.refilled (s : State) (n : Nat) : State :=
  match ((s.core n).ops.filter fun o => o.kind == .fill).findSome? fun o => (match s.refillChk n o with | .fault k => some (o, k) | _ => none) with
  | some (o, k) => s.stop n { k with engine := 3, iseq := o.iseq }
  | none => s.modCore n Core.refill

/-- Phase 1 begins on every core of a group: cores without a handler take their survey as written, or as the supervisor left it; fills are built, their
sources read at the very start of the phase, and edited commands enqueued again (R228, R329, R332). A survey of which the device cannot read a line stops the
group again (R90). DESIGN CHOICE, log entry 106. -/
def State.beginResume (s : State) (g : Grp) : State :=
  let s := s.setGrp { g with status := .resuming }
  let unread (n : Nat) : Option (Nat × Word) :=
    let c := s.core n
    if c.resumed then none else (s.wholeBad n (c.edited.getD c.asWritten).length).map fun a => (n, a)
  match g.cores.findSome? unread with
  | some (n, a) => s.stop n { cause := 0x20, engine := 6, addr := a }
  | none =>
  let s := g.cores.foldl (fun s n => s.modCore n fun c =>
    let c := if c.resumed then c else c.reissue (c.edited.getD c.asWritten)
    { c with resumed := false, toSupv := false }) s
  let s := g.cores.foldl (fun s n => if s.accessRuns n then s.refilled n else s) s
  g.cores.foldl (fun s n => ((s.core n).cmds.filter (·.again)).foldl (fun s m => if s.accessRuns n then s.requeue n m else s) s) s

/-! ### Inserted operations -/

/-- How an inserted operation comes out: done, waiting, or failed with what it did before it failed. -/
inductive Ins where
  | done (s : State)
  | waits (s : State)
  | failed (s : State) (k : Cause)

/-- Where the first byte of an unclaimed slot lies among captured pieces to write (R132). -/
def Core.slotGap (c : Core) : List Cap → Option (Nat × Word)
  | [] => none
  | (p, pl, n) :: t =>
    if (match pl with | .slot o _ => !(c.slot o).claimed | _ => false) then some (0, p) else (Core.slotGap c t).map fun r => (n + r.1, r.2)

/-- Write the bytes of an inserted COPY with all that goes with it (R287, R254). -/
def State.moveAll (s : State) (n pn : Nat) : List Cap → Bytes → State
  | [], _ => s
  | (p, pl, k) :: t, d =>
    let q := s.landsAt pn pl
    let s := s.writeCaps n pn [(p, pl, k)] (d.take k)
    let s := match q with | .sp c off => s.raceCommand n c off k | _ => s
    State.moveAll (s.looped n pn [.write] pl q k) n pn t (d.drop k)

/-- The first unit of an inserted COPY that matches a watchpoint, piece by piece of its destination: where it ends, counted from the start (R346, R358). -/
def State.watchWhole (s : State) (n pn : Nat) (rs : List Cap) : List Cap → Option UnitHit
  | [] => none
  | w :: t =>
    match s.watchUnits n pn w.2.1.offset w.2.2 rs [w] with
    | some h => some h
    | none => (s.watchWhole n pn (restOf w.2.2 rs) t).map fun h => { h with stop := h.stop + w.2.2 }

/-- The whole move of an inserted COPY at one instant, the clocks held (R330): the bytes before a line in error or an unclaimed slot are moved (R90, R132), and
those up to the end of a unit that matches a watchpoint, where it stops (R346, R358); one that has stopped there before goes past it. -/
def State.copyWhole (s : State) (n pn : Nat) (k : Captured) (quiet : Bool) : Ins :=
  match s.ways (s.core n).owner pn (k.reads ++ k.writes) with
  | .denied => .failed s { cause := 0x19, addr := s.deniedAt (s.core n).owner pn (k.reads ++ k.writes), engine := 5 }
  | .waits t => .waits t
  | .clear =>
    let total := k.reads.foldl (fun a r => a + r.2.2) 0
    let bad := s.badByte pn k.reads
    let gap := (s.core n).slotGap k.writes
    let good := min ((bad.map (·.1)).getD total) ((gap.map (·.1)).getD total)
    let hit := if quiet then none else s.watchWhole n pn (headOf good k.reads) (headOf good k.writes)
    let far := match hit with | some h => h.stop | none => good
    let src := headOf far k.reads
    let d := s.readCaps n pn src
    let fill (s : State) : State := (slotsOf (headOf far k.writes)).foldl (fun s o => s.modCore n fun c =>
      c.setSlot o { c.slot o with ready := far == total, gen := ((c.slot o).gen + 1) % 2 ^ 32 }) s
    let s := fill ((s.readsDone n pn src).moveAll n pn (headOf far k.writes) d)
    match hit with
    | some h =>
      .failed { s.report pn (reportBytes 2 h.mask h.bits 5 Config.nodeId.toNat n h.addr (Config.freeWord s.free) s.wall) with free := s.free + 1 }
        { cause := 0x42, code := lowest h.mask, engine := 5, addr := h.addr }
    | none => match bad, gap with
    | some (i, p), some (j, q) => .failed s (if i < j then { cause := 0x20, addr := p, engine := 5 } else { cause := 0x10, addr := q, engine := 5 })
    | some (_, p), none => .failed s { cause := 0x20, addr := p, engine := 5 }
    | none, some (_, q) => .failed s { cause := 0x10, addr := q, engine := 5 }
    | none, none => .done s

/-- An inserted operation whose DEP has completed is performed to its end, whatever the guard of its word (R327, R329, R330). DEDUCED, log entry 54.
DESIGN CHOICE, log entry 107. -/
def State.performInserted (s : State) (n : Nat) (i : Inserted) : Ins :=
  let c := s.core n
  match decode i.word, c.part with
  | .ok (.copy g dst src len aux dh shd t ch), some pn =>
    (match s.planned n pn none (.copy g dst src len aux dh shd t ch) i.w2 i.w3 i.w4 i.w5 with
      | .fault k => .failed s { k with engine := 5 }
      | .waits t => .waits t
      | .go (_, k) => (s.captured n pn k).copyWhole n pn k i.quiet)
  | .ok (.lgload _ l m k pos), _ =>
    let o := k.toNat
    if !(c.slot o).claimed then .failed s { cause := 0x10, engine := 3 }
    else if !(c.slot o).ready then .failed s { cause := 0x0A, engine := 3 }
    else if s.bad.contains (2, n, o) then .failed s { slotBad n o with engine := 3 }
    else .done (s.modCore n fun c => c.landLegends (c.loadLegends i.word l.toNat (m.toNat + 1) o pos.toNat (c.slot o).gen))
  | .ok (.pref g b imm), some _ => .done (s.prefetch n { iseq := 0, word := i.word, instr := .pref g b imm, phase := .walking, addr := i.w2 })
  | .ok mx, _ =>
    let src := match mx with | .lgb _ _ _ _ _ src _ _ => src.toNat | .lgbc _ _ _ _ _ src _ _ => src.toNat | _ => 0
    let slotSrc := match mx with | .lgb _ _ _ _ sk _ _ _ => sk == 1#1 | .lgbc _ _ _ _ sk _ _ _ => sk == 1#1 | _ => false
    let o : Op := { iseq := 0, word := i.word, engine := 3, kind := .start, due := c.tick, mx := some mx, vbase := src, fw := some i.w2 }
    let free := s.modCore n fun c => { c with e := { c.e with builderEnd := 0 } }
    (match free.mxCheck n o i.w2 with
      | .go =>
        .done (s.modCore n fun c =>
          let g := if slotSrc then (c.slot src).gen else (c.bank (src / 16)).gen
          c.landLegends (c.buildLegends o i.w2 g (c.slot (fwCb i.w2)).gen))
      | .fault k => .failed s { k with engine := 3 }
      | .late => .failed s { cause := 0x0A, engine := 3 })
  | _, _ => .done s

/-- Whether the operation of an original record, given by ISEQ and engine, has completed; an ALIGN does not while the clocks are held (R329). -/
def Core.finishedOp (c : Core) (r : Nat × Nat) : Bool :=
  match r.2 with
  | 0 => !(match c.x.align with | some (_, q) => q % 2 ^ 24 == r.1 | none => false)
  | 5 => !(c.cmds.any fun m => m.iseq % 2 ^ 24 == r.1)
  | 6 => !(c.x.window.isSome && c.x.windowSeq % 2 ^ 24 == r.1)
  | _ => !(c.aops.any fun o => o.iseq % 2 ^ 24 == r.1 && o.phase != .done)

/-- The first inserted operation of a core, once what its DEP names has completed. One that fails stops the group and is performed again at the next resume
(R326, R329). DESIGN CHOICE, log entry 107. -/
def State.insertedTurn (s : State) (n : Nat) : State :=
  match (s.core n).inserted, s.grpAt n with
  | i :: rest, some g =>
    if g.status != .resuming || !i.deps.all (s.core n).finishedOp then s
    else
      match s.performInserted n i with
      | .done t => t.modCore n fun c => { c with inserted := rest }
      | .waits t => t
      | .failed t k => (t.modCore n fun c => { c with inserted := { i with quiet := i.quiet || k.cause == 0x42 } :: rest }).stop n k
  | _, _ => s

/-- Every performed A-class syllable of a core writes its rd (R330: before the A-stream resumes). -/
def Core.writeResults (c : Core) : Core :=
  (c.aops.filter fun o => o.phase == .done && o.dest.isSome).foldl (fun c o => (c.setX (o.dest.getD 0) o.value).dropAop o.iseq) c

/-- Phase 2: nothing inserted is left, so the clocks restart at T_s and the streams go on (R329); a trace record of kind 3 (R350). -/
def State.restart (s : State) (g : Grp) : State :=
  if g.cores.any fun n => !(s.core n).inserted.isEmpty then s
  else
    let s := s.setGrp { g with status := .running }
    g.cores.foldl (fun s n => (s.modCore n Core.writeResults).trace g.part (2 * n) 3 0 (BitVec.ofNat 64 (s.core n).ts)) s

end Sys2Proof.Machine
end

