-- ==== Sys2Proof/Machine/Dispatcher.lean ====
section
/-! DEFINITION. The dispatcher (R22, R27 to R31, R91 to R115, R134, R365 to R372): launch records, acceptance, the pool, rectangles,
placement, the dispatch pass with pre-emption, completion and teardown. -/

namespace Sys2Proof.Machine

/-! ### Launch records (R27, R28) -/

/-- n bytes of a record as a number. -/
def recField (r : Bytes) (off n : Nat) : Nat := leNat ((r.drop off).take n)
def recLevels (r : Bytes) : Nat := recField r 0x3B 1
/-- Level entry n of the loop table. -/
def recLevel (r : Bytes) (n : Nat) : Nat := recField r (0x40 + 8 * n) 8
def levelKind (e : Nat) : Nat := e / 2 ^ 60
def levelTrip (e : Nat) : Nat := e % 2 ^ 32
def recPrio (r : Bytes) : Nat := recField r 2 1 % 8
def recHandler (r : Bytes) : Bool := recField r 3 1 % 2 == 1
def recTag (r : Bytes) : Word := BitVec.ofNat 64 (recField r 0x10 8)
def recArg (r : Bytes) : Word := BitVec.ofNat 64 (recField r 0x70 8)

/-- The factor of a spatial kind: the product of the trips of its levels (R29). -/
def recFactor (r : Bytes) (kind : Nat) : Nat :=
  (List.range (min (recLevels r) 6)).foldl (fun p n => if levelKind (recLevel r n) = kind then p * levelTrip (recLevel r n) else p) 1

/-- The index of a core's offset at level n: a mixed-radix number over the levels of its kind, the lower level more significant (R29). -/
def levelIndex (r : Bytes) (n off : Nat) : Nat :=
  let k := levelKind (recLevel r n)
  let below := (List.range (recLevels r)).foldl (fun p m => if n < m ∧ levelKind (recLevel r m) = k then p * levelTrip (recLevel r m) else p) 1
  off / below % levelTrip (recLevel r n)

/-- A section of an object by kind: load offset and size. -/
def Obj.sec (o : Obj) (kind : Nat) : Nat × Nat := match o.secs.find? fun s => s.1 == kind with | some s => s.2 | none => (0, 0)

/-- The object of a partition with an id. -/
def Part.obj? (p : Part) (id : Nat) : Option Obj := p.objs.find? fun o => o.id == id

/-- The status of R31 for a record of a partition; 0 when no row of the table applies. -/
def Part.recStatus (p : Part) (r : Bytes) : Nat :=
  let lv := recLevels r
  let res (n : Nat) : Bool := recLevel r n / 2 ^ 32 % 2 ^ 28 != 0
  if recField r 0 2 ≠ 1 ∨ recField r 2 1 / 8 ≠ 0 ∨ recField r 3 1 / 2 ≠ 0 ∨ recField r 0x3C 4 ≠ 0 ∨ recField r 0x7C 4 ≠ 0 ∨
      recField r 0x120 32 ≠ 0 ∨ (List.range (min lv 6)).any res then 1
  else match p.obj? (recField r 4 4) with
    | none => 2
    | some o =>
      let x := recField r 8 4
      let a := recField r 0xC 4
      let h := recField r 0x78 4
      if o.deferred then 3
      else if !(o.syms.any fun s => s.kind == 7 && s.sec == 1 && s.value == x) || a % 8 ≠ 0 || (o.sec 2).2 ≤ a ||
          (recHandler r && !(o.syms.any fun s => s.kind == 8 && s.sec == 2 && s.value == h)) then 4
      else if recTag r = 0#64 then 5
      else
        let w := recField r 0x38 1
        let hh := recField r 0x39 1
        let d := recField r 0x3A 1
        let bad (n : Nat) : Bool :=
          let e := recLevel r n
          if n < lv then decide (4 ≤ levelKind e) || (levelKind e != 0 && levelTrip e == 0) else e != 0
        if w = 0 ∨ 12 < w ∨ hh = 0 ∨ 8 < hh ∨ d = 0 ∨ 2 < d ∨ 6 < lv ∨ (List.range 6).any bad ∨
            recFactor r 1 ≠ w ∨ recFactor r 2 ≠ hh ∨ recFactor r 3 ≠ d then 6
        else if recArg r ≠ 0#64 ∧ ((recArg r).toNat / 2 ^ 48 ≠ 0 ∨ (recArg r).toNat % 64 ≠ 0) then 7
        else 0

/-! ### Rectangles (R100) -/

/-- A rectangle: die, column and row of its origin, width, height, dies. -/
structure Rect where
  d0 : Nat
  x0 : Nat
  y0 : Nat
  w : Nat
  hgt : Nat
  dies : Nat
deriving DecidableEq, Repr

/-- The cores of a rectangle in ascending hops from its origin, then by number (R100). -/
def Rect.cores (r : Rect) : List Nat :=
  let all := (List.range r.dies).flatMap fun d => (List.range r.hgt).flatMap fun y => (List.range r.w).map fun x =>
    (x + y + 4 * d, coreAt (r.d0 + d) (r.x0 + x) (r.y0 + y))
  (List.range (12 + 8 + 4)).flatMap fun h =>
    (List.range 192).filter fun c => all.contains (h, c)

/-- The rectangle of a shape whose origin is a core. -/
def rectAt (w hgt dies c : Nat) : Option Rect :=
  let r : Rect := { d0 := coreDie c, x0 := coreX c, y0 := coreY c, w := w, hgt := hgt, dies := dies }
  if r.x0 + w ≤ 12 ∧ r.y0 + hgt ≤ 8 ∧ (dies = 1 ∨ r.d0 = 0) then some r else none

/-- The rectangles of a record's shape within a partition's cores that did not fail, by origin number (R95, R100). -/
def State.rects (s : State) (pn w hgt dies : Nat) : List Rect :=
  let p := s.part pn
  ((List.range 192).filterMap (rectAt w hgt dies)).filter fun r => r.cores.all fun c => p.cores.contains c && !(s.core c).failed

/-- Whether a core is free for a candidate of an arrival sequence: of the partition, unplaced, not to be retired, not reserved for another, its cluster
not asked to quiesce (R91, R99, R101, R384, R401). DEDUCED, log entry 92. -/
def State.coreFree (s : State) (pn arrival c : Nat) : Bool :=
  (s.part pn).cores.contains c && (s.core c).owner == 0 && !(s.core c).failed && !(s.core c).retiring && !(s.cluster (coreCluster c)).req &&
  !((s.part pn).reserved.any fun r => r.1 != arrival && r.2.contains c)

/-! ### The pool (R102) -/

/-- The entry a launch of a depth would take: the shared pool, or the reserve of a depth. -/
def Part.poolFor (p : Part) (depth : Nat) : Option Nat :=
  let used (k : Nat) : Nat := (p.pending.filter fun l => l.pool == k).length
  if used 0 < 3584 then some 0
  else ((List.range depth).map fun k => depth - k).find? fun k => decide (used k < 64)

/-- A context descheduled under R106 is ready from when the pool has an entry that its LAUNCH could take, while it has one (R101, R103). -/
def State.stampReady (s : State) (pn : Nat) : State :=
  { s with groups := s.groups.map fun g =>
      if g.part = pn then
        match g.needsPool with
        | some d => if ((s.part pn).poolFor d).isSome then (if g.readySince = 0 then { g with readySince := s.wall } else g) else { g with readySince := 0 }
        | none => g
      else g }

/-- A launch leaves the pool, with what was reserved for it (R99, R102). -/
def State.dropLaunch (s : State) (pn arrival : Nat) : State :=
  (s.modPart pn fun p =>
    { p with pending := p.pending.filter fun q => q.arrival != arrival, reserved := p.reserved.filter fun e => e.1 != arrival }).stampReady pn

/-! ### Acceptance (R95 to R97) -/

/-- How the dispatcher answers a record. -/
inductive Answer where
  | status (code : Nat)
  | accepted (arrival : Nat)
  | noEntry
deriving DecidableEq, Repr

/-- The status word of an answer (R96). -/
def Answer.word : Answer → Word
  | .status k => BitVec.ofNat 64 k
  | .accepted a => BitVec.ofNat 64 (a * 256)
  | .noEntry => 9#64

/-- The next arrival sequence: 56 bits, skipping 0 (R95). -/
def nextArrival (a : Nat) : Nat := if (a + 1) % 2 ^ 56 = 0 then 1 else (a + 1) % 2 ^ 56

/-- Accept or refuse a record at a depth with a base priority, made by a chain of LAUNCH parents (R95, R97). -/
def State.accept (s : State) (pn : Nat) (r : Bytes) (depth prio : Nat) (parents : List Nat) : State × Answer :=
  let p := s.part pn
  let k := p.recStatus r
  if k ≠ 0 then (s, .status k)
  else if (s.rects pn (recField r 0x38 1) (recField r 0x39 1) (recField r 0x3A 1)).isEmpty then (s, .status 8)
  else match p.poolFor depth with
    | none => (s, .noEntry)
    | some pool =>
      let a := nextArrival p.arrivals
      let dep (i : Nat) : Option Nat × Bool :=
        let t := BitVec.ofNat 64 (recField r (0x18 + 8 * i) 8)
        if t = 0#64 then (none, false)
        else match p.history.find? fun h => h.1 == t with
          | some (_, b, none) => (some b, false)
          | _ => (none, false)
      let waits := (List.range 4).filterMap fun i => (dep i).1
      -- what it was bound to stands with it, should one of them be torn down after it has exited (R370)
      let l : Launch :=
        { record := r, obj := recField r 4 4, tag := recTag r, arrival := a, depth := depth, prio := prio, pool := pool, waits := waits, bound := waits
          readySince := if waits = [] then some s.wall else none, parents := parents }
      ((s.setPart pn { p with arrivals := a, pending := p.pending ++ [l], history := (l.tag, a, none) :: p.history }).stampReady pn, .accepted a)

/-! ### Placement (R30, R109, R112 to R115) -/

/-- LVLn of a core at offsets cx, cy, cd (R29, R113). -/
def levelWord (r : Bytes) (n cx cy cd : Nat) : Word :=
  let e := recLevel r n
  let k := levelKind e
  let i := if k = 1 then levelIndex r n cx else if k = 2 then levelIndex r n cy else if k = 3 then levelIndex r n cd else 0
  BitVec.ofNat 64 (k * 2 ^ 60 + i * 2 ^ 32 + levelTrip e)

/-- GPOS (R114). -/
def gposWord (g : Grp) (n : Nat) : Word :=
  BitVec.ofNat 64 (g.part * 2 ^ 40 + g.hops n * 2 ^ 32 + coreAt g.d0 g.x0 g.y0 * 2 ^ 24 + g.depth * 2 ^ 20 + g.dies * 2 ^ 16 +
    g.hgt * 2 ^ 12 + g.w * 2 ^ 8 + (coreDie n - g.d0) * 2 ^ 7 + (coreY n - g.y0) * 2 ^ 4 + (coreX n - g.x0))

/-- What stays with a core whatever is placed on it: its partition, its translation cache, its banks, its fix snapshot and when its counts of lost
cycles were cleared (R354, R355). -/
def Core.bare (c : Core) : Core :=
  { part := c.part, failed := c.failed, spared := c.spared, retiring := c.retiring, cache := c.cache, sys := { fix := c.sys.fix, cleared := c.sys.cleared }, sp := c.sp,
    banks := c.banks, lines := c.lines }

/-- A bank as a placement or a resume takes it: HOT and owned, or, while it is still being scrubbed, TRANSIT until the scrub ends (R117, R121).
DEDUCED, log entry 95. -/
def Bank.taken (b : Bank) (ctx now : Nat) (live pin : Bool) : Bank :=
  if b.owner = 0 ∧ b.st = 3 then { st := 3, live := live, pin := pin, owner := 0, last := now }
  else { st := 2, live := live, pin := pin, owner := ctx, last := now }

/-- An accumulator bank that nobody holds: whether it is WARM and when it was last accessed go on (R130). -/
def AccBank.idle (b : AccBank) : AccBank := { st := b.st, last := b.last }

/-- Allocate a scratchpad bank at placement (R115, R121): not written since, zero-filled with no last writer. -/
def Core.takeFirst (c : Core) (b ctx now : Nat) : Core :=
  { c with
    banks := sset {} b ((sget {} b c.banks).taken ctx now false true) c.banks
    sp := Memory.zero c.sp (65536 * b) 65536
    lines := sclear (1024 * b) 1024 c.lines }

/-- Allocate a scratchpad bank to a context (R121, R128): HOT, not written since, zero-filled with no last writer. -/
def Core.allot (c : Core) (b ctx now : Nat) (pin : Bool) : Core :=
  { c with
    banks := sset {} b { st := 2, live := false, pin := pin, owner := ctx, last := now } c.banks
    sp := Memory.zero c.sp (65536 * b) 65536
    lines := sclear (1024 * b) 1024 c.lines }

/-- The state a core receives at placement. -/
def Core.placed (c : Core) (n : Nat) (g : Grp) (o : Obj) (r : Bytes) (templates : List Word) (now : Nat) : Core :=
  let words (l : List Word) : Store Word := (l.zipIdx).foldl (fun st e => sset 0#64 e.2 e.1 st) []
  let lv := recLevels r
  let k := c.bare
  let arg := recArg r
  ({ k with
    owner := g.num
    e := { acc := c.e.acc.foldl (fun st e => sset {} e.1 e.2.idle st) [] }
    x := { k := { pc := o.base + BitVec.ofNat 64 ((o.sec 1).1 + recField r 8 4) }, g := sset 0#64 6 arg [] }
    a := { k := { pc := o.base + BitVec.ofNat 64 ((o.sec 2).1 + recField r 0xC 4) }, x := sset 0#64 31 arg [] }
    sys := { k.sys with
      mb := words ((List.range 16).map fun i => BitVec.ofNat 64 (recField r (0x80 + 8 * i) 8))
      lvl := words ((List.range lv).map fun i => levelWord r i (coreX n - g.x0) (coreY n - g.y0) (coreDie n - g.d0))
      gpos := gposWord g n
      spmask := 0x80000000#32
      fmtt := words templates
      levels := lv } } : Core).takeFirst 31 g.num now

/-- Every generation is 1 when the partition's first group is placed (R272). DEDUCED, log entry 52. -/
def State.firstHandles (s : State) (pn : Nat) : State :=
  let p := s.part pn
  if p.placedAny then s
  else
    let s := s.setPart pn { p with placedAny := true }
    if p.reg 0x410 = 0#64 then s
    else (List.range (p.idx 0x418 % 65536)).foldl (fun s k => match s.htSlot pn (k + 1) with
      | .ok a => s.writeEntry a { s.readEntry a with cur := handleOf 1 0 0 }
      | .error _ => s) s

/-- Trace of the dispatcher: a group placed or completed (R350 kind 9). -/
def State.traceGroup (s : State) (pn num : Nat) (status : Word) : State := s.trace pn (640 + pn) 9 num status

/-- The context number after one: 24 bits, 0 never assigned (R119). -/
def nextContext (n : Nat) : Nat := if (n + 1) % 2 ^ 24 = 0 then 1 else (n + 1) % 2 ^ 24

/-- Place a launch on a rectangle (R109); one accepted before its object's UNLOAD is placed after it as well (R22, R23). DESIGN CHOICE, log entry 91. -/
def State.place (s : State) (pn : Nat) (l : Launch) (r : Rect) : State :=
  match (s.part pn).obj? l.obj with
  | none => s
  | some o =>
    let s := s.firstHandles pn
    let cs := r.cores
    let g : Grp :=
      { num := s.nextCtx, part := pn, obj := l.obj, tag := l.tag, x0 := r.x0, y0 := r.y0, d0 := r.d0, w := r.w, hgt := r.hgt, dies := r.dies
        cores := cs, depth := l.depth, prio := l.prio, arrival := l.arrival, parents := l.parents
        handler := if recHandler l.record then some (o.base + BitVec.ofNat 64 ((o.sec 2).1 + recField l.record 0x78 4)) else none
        mask := BitVec.ofNat 256 (recField l.record 0x100 32), passed := if s.power.pend.isSome then cs else [] }
    let s := s.dropLaunch pn l.arrival
    let s := { s with groups := s.groups ++ [g], nextCtx := nextContext s.nextCtx }
    let s := cs.foldl (fun s n => s.withClock n fun c => c.placed n g o l.record o.templates s.power.ref) s
    -- the cores see what was written before: by the parent, and by the launches that this one waited for (R108)
    let s := s.reveal cs (fun _ => true) true
    s.traceGroup pn g.num (Answer.accepted l.arrival).word

/-! ### Freeing cores (R121, R365) -/

/-- A core that its group leaves: banks unowned and to be scrubbed, accumulator contents kept, banks held until now last accessed now (R130). -/
def Core.freed (c : Core) (now : Nat) : Core :=
  let b := c.bare
  { b with
    e := { v := c.e.v, acc := c.e.acc.foldl (fun st e =>
      sset {} e.1 { e.2 with held := false, ty := 0, gen := 0, last := if e.2.held then now else e.2.last } st) [] }
    banks := (List.range 32).foldl (fun st k =>
      let x := sget {} k st
      if x.owner = 0 then st else sset {} k { st := 3, live := false, pin := false, owner := 0, last := x.last } st) c.banks }

/-! ### Restoring a saved context (R103, R134, R228, R330, R333) -/

/-- A saved core as its image brings it back: the banks of SPMASK allocated again at their numbers, those that were never written zero-filled, pins
by BWPA; its legends invalid; accumulator banks that it does not hold are as the core has them (R130, R134, R228, R333). -/
def Core.restored (c saved : Core) (ctx now seed : Nat) : Core :=
  let image := saved.readImage seed
  let owned (b : Nat) : Bool := image.sys.spmask.getLsbD b
  let banks := (List.range 32).foldl (fun st b =>
    if owned b then
      sset {} b ((sget {} b st).taken ctx now (sget {} b image.banks).live (b == 31 || image.sys.bwpa.getLsbD b)) st
    else st) c.banks
  let sp := (List.range 32).foldl (fun m b =>
    let cut := Memory.zero m (65536 * b) 65536
    if owned b && (sget {} b image.banks).live then
      (image.sp.filter fun e => e.1 / 65536 == b).foldl (fun m e => Memory.write m e.1 e.2) cut
    else if owned b then cut else m) c.sp
  let lines := (List.range 32).foldl (fun st b => if owned b then sclear (1024 * b) 1024 st else st) c.lines
  { image with
    owner := ctx, part := c.part, failed := c.failed, spared := c.spared, retiring := c.retiring, cache := c.cache, banks := banks, sp := sp, lines := lines
    sys := { image.sys with fix := c.sys.fix, cleared := c.sys.cleared }
    e := { image.e with
      acc := (List.range 64).foldl (fun st a =>
        let b := image.bank a
        sset {} a (if b.held then { b with st := 2, last := now } else { b with st := (c.bank a).st, last := (c.bank a).last }) st) []
      ent := [], desc := image.e.desc.foldl (fun st d => sset {} d.1 { d.2 with w2 := d.2.w2 &&& 0x7FFFFFFFFFFFFFFF#64 } st) [] } }

/-- Place a descheduled context on its rectangle: its cores come back and it resumes, or its handler goes on, the cause that halted it being over
(R103, R331). -/
def State.placeSaved (s : State) (g : Grp) : State :=
  let s := s.modPart g.part fun p => { p with reserved := p.reserved.filter fun e => e.1 != g.arrival }
  let s := g.images.foldl (fun s e => { s.withClock e.1 fun c => c.restored e.2 g.num s.power.ref s.free with free := s.free + 2 ^ 20 }) s
  let s := s.reveal g.cores (fun _ => true) true
  let running := g.images.any fun e => e.2.saved.isSome
  let g1 := { g with images := [], needsPool := none, status := if running then .handling else .resuming, passed := if s.power.pend.isSome then g.cores else [] }
  let s := (s.setGrp g1).traceGroup g.part g.num (Answer.accepted g.arrival).word
  if running then g.cores.foldl (fun s n => s.modCore n fun c => { c.putCause { cause := 0 } with toSupv := false }) s else s.beginResume g1

/-! ### Completion (R366, R367, R97) -/

/-- Where a completion record of a ring slot goes (R367). -/
def State.ringSlot (s : State) (pn : Nat) : Option Nat :=
  let p := s.part pn
  let size := 2 ^ ((p.reg 0x708).toNat % 16 + 4)
  let head := p.idx 0x710
  if (head + 2 ^ 32 - p.idx 0x718) % 2 ^ 32 ≥ size then none
  else
    let va := (p.reg 0x700).toNat + 32 * (head % size)
    if 2 ^ 48 ≤ va ∨ va % 32 ≠ 0 then none
    else match s.mapVa pn none va true true with
      | .ok { place := .hbm a, .. } => some a
      | _ => none

/-- Whether n bytes at a space-0 address of a partition, or the tables that lead to them, stand in a channel that is being copied (R400). -/
def State.vaCopied (s : State) (pn va n : Nat) : Bool :=
  s.copying != [] && (cutRange (BitVec.ofNat 64 va) n (n / 8192 + 2)).any fun p =>
    s.mapCopied pn (vaOf p.1) || match s.mapVa pn none (vaOf p.1) false false with | .ok h => s.copied h.place p.2 | .error _ => false

/-- Write the completion records that wait, in order, until the ring is full, a slot cannot be written, or its channel is being copied (R367, R400). With
no ring the records that wait go on waiting. -/
def State.flushRecords (s : State) (pn : Nat) : Nat → State
  | 0 => s
  | fuel + 1 =>
    let p := s.part pn
    match p.records with
    | [] => s
    | r :: t =>
      let size := 2 ^ ((p.reg 0x708).toNat % 16 + 4)
      let full := decide ((p.idx 0x710 + 2 ^ 32 - p.idx 0x718) % 2 ^ 32 ≥ size)
      let stays (blocked : Bool) : State := s.setPart pn (p.setReg 0x710 (BitVec.ofNat 64 ((if blocked then 2 ^ 63 else 0) + p.idx 0x710)))
      if full then stays false
      else if p.reg 0x700 = 0#64 then stays true
      else if decide ((p.reg 0x700).toNat + 32 * (p.idx 0x710 % size) < 2 ^ 48) && s.vaCopied pn ((p.reg 0x700).toNat + 32 * (p.idx 0x710 % size)) 32 then s
      else
        match s.ringSlot pn with
        | none => stays true
        | some a =>
          let p := { p with records := t }.setReg 0x710 (BitVec.ofNat 64 ((p.idx 0x710 + 1) % 2 ^ 32))
          State.flushRecords { s.setPart pn p with hbm := Memory.store s.hbm a r } pn fuel

/-- Add a completion record (R367). -/
def State.addRecord (s : State) (pn : Nat) (tag status : Word) (endCode cause : Nat) (placed : Bool) (depth num : Nat) : State :=
  let r := wordBytes tag ++ wordBytes status ++ [BitVec.ofNat 8 endCode, BitVec.ofNat 8 cause, if placed then 1#8 else 0#8, BitVec.ofNat 8 depth] ++
    leBytes 4 num ++ leBytes 8 s.wall
  let s := s.modPart pn fun p => if p.reg 0x700 = 0#64 then p else { p with records := p.records ++ [r] }
  (s.flushRecords pn (s.part pn).records.length).traceGroup pn num status

/-- Mark an accepted launch complete (R97). -/
def Part.done (p : Part) (arrival : Nat) (ok : Bool) : Part :=
  { p with
    history := p.history.map fun h => if h.2.1 = arrival then (h.1, h.2.1, some ok) else h
    pending := p.pending.map fun l =>
      if l.waits.contains arrival then { l with waits := l.waits.filter (· != arrival), depFailed := l.depFailed || !ok } else l }

/-- Launches whose dependences have all completed become ready, or complete with DEP-FAILED (R97). -/
def State.wakeLaunches (s : State) (pn : Nat) : Nat → State
  | 0 => s
  | fuel + 1 =>
    match (s.part pn).pending.find? fun l => l.waits.isEmpty && l.readySince.isNone with
    | none => s
    | some l =>
      if l.depFailed then
        let s := (s.dropLaunch pn l.arrival).addRecord pn l.tag 10#64 0 0 false l.depth 0
        State.wakeLaunches (s.modPart pn fun p => p.done l.arrival false) pn fuel
      else
        State.wakeLaunches (s.modPart pn fun p =>
          { p with pending := p.pending.map fun q => if q.arrival = l.arrival then { q with readySince := some s.wall } else q }) pn fuel

/-- A completion reaches the dependents. -/
def State.completed (s : State) (pn arrival : Nat) (ok : Bool) : State :=
  let s := s.modPart pn fun p => p.done arrival ok
  s.wakeLaunches pn ((s.part pn).pending.length + 1)

/-- A context is over, with a status code and an End byte: its cores are freed and its record is written (R365 to R367). -/
def State.retired (s : State) (g : Grp) (code endCode cause : Nat) : State :=
  let s := g.cores.foldl (fun s n => if (s.core n).owner = g.num then s.withClock n (Core.freed · s.power.ref) else s) s
  let s := { s with groups := s.groups.filter fun h => h.num != g.num }
  let s := s.modPart g.part fun p => { p with reserved := p.reserved.filter fun e => e.1 != g.arrival }
  let status := if code = 0 then (Answer.accepted g.arrival).word else BitVec.ofNat 64 code
  s.addRecord g.part g.tag status endCode cause true g.depth g.num

/-- Complete a context with a status code and an End byte; its dependents wake (R365 to R367). -/
def State.complete (s : State) (g : Grp) (code endCode cause : Nat) : State :=
  (s.retired g code endCode cause).completed g.part g.arrival (code == 0 && endCode == 0)

/-! ### Stops that the dispatcher asks for (R101, R106, R322, R331) -/

/-- Halt a group with one cause on every core (R311): a running one writes its surveys, in which a copy engine with a watched unit touched marks its
command (R346, R362); a handler halts where it is. DEDUCED, log entry 50. -/
def State.halt (s : State) (g : Grp) (cause code : Nat) : State :=
  let s := g.cores.foldl State.settle s
  let s := g.cores.foldl (fun s n => s.modCore n fun c => { c.putCause { cause := cause, code := code } with toSupv := false }) (s.slipEnds g)
  if g.status == .running || g.status == .resuming then
    let s := g.cores.foldl (fun s n => s.freeze g n) (g.cores.foldl (fun s n => s.modCore n Core.joinWatch) s)
    let s := g.cores.foldl (fun s n => s.trace g.part (2 * n) 2 ((s.core n).causeWord.toNat % 2 ^ 32) (BitVec.ofNat 64 (s.core n).ts)) s
    s.setGrp { g with status := .stopped, slip := none }
  else if g.status == .stopped then
    let s := g.cores.foldl (fun s n => s.freeze g n) s
    s.setGrp { g with status := .stopped }
  else if g.status == .handling then s.setGrp { g with status := .stopped }
  else s

/-- Put a context that is to halt among those that wait for their place again: it ages from now, and one that needs no pool entry is ready
(R98, R103). -/
def State.requeued (s : State) (g : Grp) (pool : Option Nat) : State × Grp :=
  let h := { g with needsPool := pool, queuedSince := s.wall, readySince := if pool.isSome then 0 else s.wall }
  ((s.setGrp h).stampReady g.part, h)

/-- Pre-empt a group (R101); one that halts already to wait for its place again keeps the moment from which it ages (R98). DEDUCED, log entry 50. -/
def State.preempt (s : State) (num : Nat) : State :=
  match s.grp? num with
  | some g =>
    if g.status == .saving || (g.status == .stopped && g.cores.any fun n => (s.core n).cause == 0x80 || (s.core n).cause == 0x81) then s
    else
      let r := s.requeued g g.needsPool
      r.1.halt ((r.1.grp? num).getD r.2) 0x80 0
  | none => s

/-! ### The dispatch pass (R98, R99, R101) -/

/-- Base priority with the aging of a wait that began at a wall time (R98). -/
def effective (base since wall : Nat) : Nat := base + min 3 ((wall - since) / 1000000)

/-- A candidate of a pass: effective priority, arrival, since when it is ready, and what it is. -/
structure Cand where
  eff : Nat
  arrival : Nat
  since : Nat
  launch : Option Launch
  ctx : Nat
deriving DecidableEq, Repr

/-- Order of candidates: effective priority descending, then arrival ascending (R99). -/
def Cand.before (a b : Cand) : Bool := decide (b.eff < a.eff) || (a.eff == b.eff && decide (a.arrival < b.arrival))

def insertCand (c : Cand) : List Cand → List Cand
  | [] => [c]
  | h :: t => if c.before h then c :: h :: t else h :: insertCand c t

/-- Whether a saved context waits for a place: descheduled, or asked to be placed again (R103, R332). -/
def Status.waits (k : Status) : Bool := k == .descheduled || k == .replacing

/-- The candidates of a partition in order. -/
def State.candidates (s : State) (pn : Nat) : List Cand :=
  let ls := (s.part pn).pending.filterMap fun l => l.readySince.map fun t =>
    ({ eff := effective l.prio t s.wall, arrival := l.arrival, since := t, launch := some l, ctx := 0 } : Cand)
  let gs := (s.groups.filter fun g => g.part == pn && g.status.waits && (match g.needsPool with
      | some d => ((s.part pn).poolFor d).isSome
      | none => true)).map fun g =>
    ({ eff := effective g.prio g.queuedSince s.wall, arrival := g.arrival, since := g.readySince, launch := none, ctx := g.num } : Cand)
  (ls ++ gs).foldl (fun acc c => insertCand c acc) []

/-- The rectangles a candidate may take: of its shape, or its original one (R100, R103). -/
def State.candRects (s : State) (pn : Nat) (c : Cand) : List Rect :=
  match c.launch with
  | some l => s.rects pn (recField l.record 0x38 1) (recField l.record 0x39 1) (recField l.record 0x3A 1)
  | none =>
    match s.grp? c.ctx with
    | some g => [{ d0 := g.d0, x0 := g.x0, y0 := g.y0, w := g.w, hgt := g.hgt, dies := g.dies }]
    | none => []

/-- Whether a core could be cleared for a candidate: free, or under a group whose priority lies at least 2 below (R101). -/
def State.clearable (s : State) (pn : Nat) (c : Cand) (n : Nat) : Bool :=
  s.coreFree pn c.arrival n ||
  ((s.part pn).cores.contains n && !(s.core n).failed && !(s.core n).retiring && !(s.cluster (coreCluster n)).req && !((s.part pn).reserved.any fun r => r.2.contains n) &&
    match s.grpAt n with
    | some g => decide (g.prio + 2 ≤ c.eff)
    | none => false)

/-- A context whose object is gone completes with CODE-GONE when it would be placed (R24, R331). -/
def State.placeCand (s : State) (pn : Nat) (c : Cand) (r : Rect) : State :=
  match c.launch with
  | some l => s.place pn l r
  | none =>
    match s.grp? c.ctx with
    | some g => if g.unresumable then s.complete g 11 0 0x22 else s.placeSaved g
    | none => s

/-- One pass over candidates, with the priorities at which one did not fit. -/
def State.passLoop (pn : Nat) : List Cand → List Nat → State → State
  | [], _, s => s
  | c :: t, held, s =>
    if held.contains c.eff then State.passLoop pn t held s
    else
      let rs := s.candRects pn c
      match rs.find? fun r => r.cores.all (s.coreFree pn c.arrival) with
      | some r => State.passLoop pn t held (s.placeCand pn c r)
      | none =>
        let reserved := (s.part pn).reserved.any fun e => e.1 == c.arrival
        match rs.find? fun r => r.cores.all (s.clearable pn c) with
        | some r =>
          if reserved || s.wall < c.since + 100000 then State.passLoop pn t (c.eff :: held) s
          else
            let s := s.modPart pn fun p => { p with reserved := (c.arrival, r.cores) :: p.reserved }
            let s := r.cores.foldl (fun s n => match s.grpAt n with | some g => s.preempt g.num | none => s) s
            State.passLoop pn t (c.eff :: held) s
        | none => State.passLoop pn t (c.eff :: held) s

/-! ### Cores that failed (R397, R401) -/

/-- Add 1 to a counter field of HEALTH, sticking at its maximum, and set REPLACE (R397). -/
def State.countHealth (s : State) (lo width most : Nat) : State :=
  let h := s.balore.health.toNat
  let v := h / 2 ^ lo % 2 ^ width
  let h := if v < most then h + 2 ^ lo else h
  { s with balore := { s.balore with health := BitVec.ofNat 64 h ||| 0x8000000000000000#64 } }

/-- Retire a core that is in no placed group: a spare of its die takes its place, or with none left it is marked failed (R401). -/
def State.retireCore (s : State) (n : Nat) : State :=
  let c := s.core n
  let lo := if coreDie n = 0 then 24 else 28
  if s.balore.health.toNat / 2 ^ lo % 16 < 4 then (s.countHealth lo 4 4).setCore n { part := c.part, spared := true }
  else if c.failed then s
  else (s.countHealth 32 8 255).setCore n { c with failed := true, retiring := false }

/-- The cores of a partition that firmware is to retire and that no group holds any more (R401). -/
def State.retireCores (s : State) (pn : Nat) : State :=
  (s.part pn).cores.foldl (fun s n => if (s.core n).retiring && (s.core n).owner == 0 then s.retireCore n else s) s

/-- A dispatch pass of a partition (R99); records that wait for their slot are tried again (R367), and cores that waited to be retired are (R401). -/
def State.pass (s : State) (pn : Nat) : State :=
  let s := s.retireCores pn
  let s := s.flushRecords pn (s.part pn).records.length
  let s := s.stampReady pn
  let s := State.passLoop pn (s.candidates pn) [] s
  s.modPart pn fun p => { p with lastPass := s.wall }

/-! ### Teardown (R369 to R372) -/

/-- Launches and contexts of a partition made by a launch, directly or through its children, deepest first (R371). -/
def State.descendants (s : State) (pn arrival : Nat) : List (Nat × Nat) :=
  let ls := ((s.part pn).pending.filter fun l => l.parents.contains arrival).map fun l => (l.depth, l.arrival)
  let gs := (s.groups.filter fun g => g.part == pn && g.parents.contains arrival).map fun g => (g.depth, g.arrival)
  (List.range 9).flatMap fun k => (ls ++ gs).filter fun e => e.1 == 8 - k

/-- Cancel one launch or context of an arrival with End 0x82; its dependents are not told yet. -/
def State.cancel (s : State) (pn arrival : Nat) : State :=
  match s.groups.find? fun g => g.part == pn && g.arrival == arrival with
  | some g => s.retired g 0 0x82 g.lastCause
  | none =>
    match (s.part pn).pending.find? fun l => l.arrival == arrival with
    | some l => (s.dropLaunch pn arrival).addRecord pn l.tag (Answer.accepted arrival).word 0x82 0 false l.depth 0
    | none => s

/-- What a teardown of an arrival cancels, in order: its descendants, deepest first, then itself (R371). -/
def State.condemned (s : State) (pn arrival : Nat) : List Nat := (s.descendants pn arrival).map (·.2) ++ [arrival]

/-- Cancel launches and contexts in order, and then tell the dependents of each, so that none of them is first found to depend on another (R371). -/
def State.cancelAll (s : State) (pn : Nat) (as : List Nat) : State :=
  as.foldl (fun s a => s.completed pn a false) (as.foldl (fun s a => s.cancel pn a) s)

/-- A teardown finds the record of a completed context still waiting: it carries End 0x82, its launches are cancelled, and what was ready because of it
and is not placed completes with DEP-FAILED (R97, R370). DEDUCED, log entry 108. -/
def State.tornRecord (s : State) (pn num : Nat) : State :=
  match (s.part pn).records.find? fun r => recField r 0x14 4 == num && recField r 0x10 1 == 0 with
  | none => s
  | some r =>
    let tag := BitVec.ofNat 64 (recField r 0 8)
    let arrival := if recField r 8 1 = 0 then recField r 8 8 / 256 else match (s.part pn).history.find? fun h => h.1 == tag with | some h => h.2.1 | none => 0
    let s := s.modPart pn fun p =>
      { p with
        records := p.records.map fun q => if q == r then q.set 0x10 0x82#8 else q
        pending := p.pending.map fun l => if l.bound.contains arrival then { l with waits := l.waits ++ [arrival], readySince := none } else l }
    s.cancelAll pn (s.condemned pn arrival)

/-- Tear down a context (R371), or, while its completion record waits, the completed one (R370). -/
def State.teardown (s : State) (num : Nat) : State :=
  match s.grp? num with
  | none => if num = 0 then s else s.parts.foldl (fun s e => s.tornRecord e.1 num) s
  | some g => s.cancelAll g.part (s.condemned g.part g.arrival)

/-! ### Residency (R22) -/

/-- Whether a saved core's program counters, b registers or return points lie in an object. -/
def Core.pointsInto (c : Core) (o : Obj) : Bool :=
  let inObj (a : Word) : Bool := decide (o.base.toNat ≤ a.toNat) && decide (a.toNat < o.base.toNat + o.size)
  let ctrl (k : Ctrl) : Bool := inObj k.pc || k.b.any fun b => inObj b.2.val
  let frames := (List.range (c.x.base / 16 + 1)).map fun k => 16 * k
  ctrl c.x.k || ctrl c.a.k || (match c.saved with | some a => ctrl a.k | none => false) ||
  frames.any fun b => b != 0 && inObj (linkAddr (if c.x.low ≤ b then sget 0#64 b c.x.links else Memory.word c.sp (linkSlot b)))

/-- The addresses of the records of a partition's launch rings that name an object and have not been read. -/
def State.ringNaming (s : State) (pn obj : Nat) : List Nat :=
  let p := s.part pn
  (List.range 16).flatMap fun q =>
    let base := p.reg (0x40 * q)
    let size := 2 ^ ((p.reg (0x40 * q + 0x10)).toNat / 2 ^ 12 % 16 + 4)
    let head := p.idx (0x40 * q + 0x20)
    let n := min ((p.idx (0x40 * q + 0x18) + 2 ^ 32 - head) % 2 ^ 32) size
    ((List.range n).map fun k => vaOf base + 320 * ((head + k) % size)).filter fun va =>
      match s.mapVa pn none (va + 4) false true with
      | .ok { place := .hbm a, .. } => Memory.le s.hbm a 4 == obj
      | _ => false

/-- The residency count of an object (R22). -/
def State.residency (s : State) (pn : Nat) (o : Obj) : Nat :=
  let p := s.part pn
  let running := (s.groups.filter fun g => g.part == pn && g.images.isEmpty && g.obj == o.id).length
  let saved := (s.groups.filter fun g => g.part == pn && !g.images.isEmpty && g.images.any fun e => e.2.pointsInto o).length
  let pending := (p.pending.filter fun l => l.obj == o.id).length
  let linked := (p.objs.filter fun q => q.id != o.id && q.links.contains o.id).length
  running + saved + pending + linked + (s.ringNaming pn o.id).length

end Sys2Proof.Machine
end

