-- ==== Sys2Proof/Machine/Launch.lean ====
section
/-! DEFINITION. Steps around the dispatcher: launch queues (R92 to R95), LAUNCH (R104 to R108), the delivery of stops and the save
images (R322, R332 to R334), the partition supervisor (R340), exits (R363 to R366), completion rings and teardown (R367 to R371). -/

namespace Sys2Proof.Machine

/-! ### Launch queues (R92 to R94) -/

/-- Whether the distance of a queue's indices exceeds its ring (R94). -/
def Part.overrun (p : Part) (q : Nat) : Bool :=
  let size := 2 ^ ((p.reg (0x40 * q + 0x10)).toNat / 2 ^ 12 % 16 + 4)
  decide (size < (p.idx (0x40 * q + 0x18) + 2 ^ 32 - p.idx (0x40 * q + 0x20)) % 2 ^ 32)

/-- Set ERR of a queue. -/
def Part.setErr (p : Part) (q : Nat) : Part := p.setReg (0x40 * q + 0x10) (p.reg (0x40 * q + 0x10) ||| 0x40000000#64)

/-- LQTAIL_WRITE: bits 31:0; an overrun of an enabled queue sets ERR (R92, R94). -/
def execLqtailWrite (part q : Nat) (value : Word) (s : State) : Result :=
  .next (if q < 16 then
    s.modPart part fun p =>
      let p := p.setReg (0x40 * q + 0x18) (value &&& 0xFFFFFFFF#64)
      if (p.reg (0x40 * q + 0x10)).getLsbD 31 && p.overrun q then p.setErr q else p
  else s)

/-- LQCFG_ERR_CLEAR: writing 1 to ERR clears it (R93). -/
def execLqcfgErrClear (part q : Nat) (s : State) : Result :=
  .next (if q < 16 then s.modPart part fun p => p.setReg (0x40 * q + 0x10) (p.reg (0x40 * q + 0x10) &&& ~~~0x40000000#64) else s)

/-- The priority ceiling of a queue (R93). -/
def Part.ceil (p : Part) (q : Nat) : Nat := (p.reg (0x40 * q + 0x10)).toNat / 2 ^ 27 % 8

/-- The bytes at a space-0 address of a partition, through its tables, or the fault of the first page that fails. -/
def State.readVa (s : State) (pn va : Nat) (n : Nat) : Except Nat Bytes :=
  (cutRange (BitVec.ofNat 64 va) n (n / 8192 + 2)).foldl (fun acc p =>
    match acc with
    | .error k => .error k
    | .ok d =>
      match s.mapVa pn none (vaOf p.1) false true with
      | .error k => .error k
      | .ok h => if s.readBad h.place p.2 then .error 0x20 else .ok (d ++ s.readPlace h.place p.2)) (.ok [])

/-- QUEUE_RECORD_READ: the slot at LQHEAD is read, its record accepted or refused, and its status entry written (R94); it waits for a channel that is
being copied (R400). The space and the alignment of LQBASE and LQSBASE are not looked at (DESIGN CHOICE, log entry 120). DEDUCED, log entry 51. -/
def execQueueRecordRead (part q : Nat) (s : State) : Result :=
  let p := s.part part
  let cfg := p.reg (0x40 * q + 0x10)
  let head := p.idx (0x40 * q + 0x20)
  let size := 2 ^ (cfg.toNat / 2 ^ 12 % 16 + 4)
  .next (if 16 ≤ q || !cfg.getLsbD 31 || cfg.getLsbD 30 then s
    else if p.overrun q then s.setPart part (p.setErr q)
    else if head == p.idx (0x40 * q + 0x18) || (p.poolFor 0).isNone then s
    else if s.vaCopied part ((p.reg (0x40 * q)).toNat + 320 * (head % size)) 320 || s.vaCopied part (vaOf (p.reg (0x40 * q + 8)) + 16 * (head % size)) 16 then s
    else match s.readVa part ((p.reg (0x40 * q)).toNat + 320 * (head % size)) 320 with
      | .error _ => s
      | .ok r =>
        let (s, ans) := s.accept part r 0 (min (recPrio r) (p.ceil q)) []
        let s := match s.mapVa part none (vaOf (p.reg (0x40 * q + 8)) + 16 * (head % size)) true true with
          | .ok h => s.writePlace outsider h.place (wordBytes (recTag r) ++ wordBytes ans.word)
          | .error _ => s
        let s := s.modPart part fun p => p.setReg (0x40 * q + 0x20) (BitVec.ofNat 64 ((head + 1) % 2 ^ 32))
        match ans with | .accepted _ => s.pass part | _ => s)

/-- Whether a refused stage-1 image has left the part to answer attestation requests only (R394). -/
def State.attestOnly (s : State) : Bool := s.balore.health.getLsbD 48 && s.balore.stage1.isNone

/-- FIRMWARE_LAUNCH: a record at depth 0 with its own priority; the status is the command's return value, and without a pool entry the
command waits (R95, R102). A part without firmware answers none (R394). -/
def execFirmwareLaunch (part : Nat) (record : Bytes) (s : State) : Result :=
  .next (if s.attestOnly then s
    else match s.accept part record 0 (recPrio record) [] with
    | (_, .noEntry) => s
    | (s, ans) =>
      let s := { s with reply := .status ans.word }
      match ans with | .accepted _ => s.pass part | _ => s)

/-- DISPATCH_PASS_TIMER: a pass once 100 µs have gone by since the last (R99). -/
def execDispatchPassTimer (part : Nat) (s : State) : Result :=
  .next (if (s.part part).lastPass + 100000 ≤ s.wall then s.pass part else s)

/-- PRIORITY_AGING: an effective priority has changed since the last pass, which starts a new one (R98, R99). -/
def execPriorityAging (part : Nat) (s : State) : Result :=
  let last := (s.part part).lastPass
  .next (if (s.candidates part).any fun c =>
      let since := match c.launch with | some l => l.readySince.getD 0 | none => ((s.grp? c.ctx).map (·.queuedSince)).getD 0
      min 3 ((s.wall - since) / 1000000) != min 3 ((last - since) / 1000000) then s.pass part
  else s)

/-! ### LAUNCH (R104 to R108) -/

/-- The translation of a launch record, once: its pieces, counted (R105, R256, R261). -/
def State.launchCapture (s : State) (n pn : Nat) (p : Word) : Except Cause (State × List Cap) :=
  match s.captureAll n false true (piecesOf (p, 320)) with
  | .error k => .error k
  | .ok caps =>
    let cs := caps.map (·.1)
    .ok (s.captured n pn { reads := cs, writes := [], index := [], hits := caps.map (·.2) }, cs)

/-- The launch queue that a LAUNCH names (R104). -/
def launchQueue : Instr → Nat
  | .launchB _ _ _ q => q.toNat % 16
  | .launchN _ _ _ q => q.toNat % 16
  | _ => 0

/-- LAUNCH at issue: LAUNCH-DEPTH first; a pointer that is no 64-byte-aligned space-0 pointer gives status 1; then the record's pages are
translated, and a fault there is precise. What follows waits for this core's earlier accesses (R108). -/
def State.launch (s : State) (i : Instr) (g : BitVec 4) (rd s1 : BitVec 5) : State :=
  if s.guardC g then
    s.gate (s.regsOk [rd, s1]) fun s =>
      let p := s.reg s1
      let n := s.ctx.core
      match s.grpAt n with
      | none => s
      | some g =>
        if g.depth = 8 then s.raise { cause := 0x1F }
        else if p.toNat / 2 ^ 60 ≠ 0 ∨ p.toNat % 64 ≠ 0 then
          (s.pushSync i p 0#64 0#64 false).modMe fun c => c.modAop s.ctx.iseq fun o => { o with phase := .done, value := 1#64 }
        else if !s.spaceOk n .source p then s.raise { cause := 0x15, addr := p }
        else if (piecesOf (p, 320)).any fun x => s.resolveCopied n x.1 then s.waiting .ops
        else match s.launchCapture n g.part p with
          | .error k => s.raise k
          | .ok (t, cs) =>
            (t.pushSync i p 0#64 0#64 false).modMe fun c => c.modAop s.ctx.iseq fun o => { o with caps := cs }
  else s

/-- LAUNCH.b (R104). -/
def execLaunchB (g : BitVec 4) (rd s1 q : BitVec 5) (s : State) : Result := .next (s.launch (.launchB g rd s1 q) g rd s1)

/-- LAUNCH.n (R104). -/
def execLaunchN (g : BitVec 4) (rd s1 q : BitVec 5) (s : State) : Result := .next (s.launch (.launchN g rd s1 q) g rd s1)

/-- Whether every access before a syllable of this core has been performed. -/
def Core.settled (c : Core) (o : AOp) : Bool :=
  (c.aops.takeWhile fun y => y.iseq != o.iseq).all fun y => (accOf y.instr).isNone || y.phase == .done

/-- The status word of a LAUNCH: what waits to be written to rd; x0 discards it (R104). -/
def State.launched (s : State) (n : Nat) (o : AOp) (v : Word) : State :=
  s.modCore n fun c => if o.dest = some 0 then c.dropAop o.iseq else c.modAop o.iseq fun o => { o with phase := .done, value := v }

/-- A LAUNCH that holds its record asks the dispatcher: the status for rd, or without an entry BUSY for `.n` while `.b` waits on (R105). -/
def State.launchAsk (s : State) (n : Nat) (o : AOp) (g : Grp) (r : Bytes) (blocking : Bool) : State :=
  match s.accept g.part r (g.depth + 1) (min (recPrio r) ((s.part g.part).ceil (launchQueue o.instr))) (g.arrival :: g.parents) with
  | (_, .noEntry) => if blocking then s else s.launched n o 9#64
  | (s, ans) => match ans with | .accepted _ => (s.launched n o ans.word).pass g.part | _ => s.launched n o ans.word

/-- A LAUNCH reads its record once, at its captured pieces, after every earlier access of the core: the release (R108) and the bytes, with the wall time
from which a `.b` waits (R105, R106). -/
def State.launchRead (s : State) (n : Nat) (o : AOp) (g : Grp) (cs : List Cap) (blocking : Bool) : State :=
  match s.ways (s.core n).owner g.part cs with
  | .denied => s.failA n o { cause := 0x19, addr := s.deniedAt (s.core n).owner g.part cs }
  | .waits t => t
  | .clear =>
    match s.badByte g.part cs with
    | some x => s.failA n o { cause := 0x20, addr := x.2 }
    | none =>
      let r := s.readCaps n g.part cs
      let s := s.readsDone n g.part cs
      let s := s.modCore n fun c =>
        ({ c with race := c.race.release } : Core).modAop o.iseq fun o => { o with begun := true, bytes := r, value := BitVec.ofNat 64 s.wall }
      s.launchAsk n o g r blocking

/-- A LAUNCH that is issued again is checked and translated again, at the pointer that its record now holds (R105, R330). -/
def State.launchAgain (s : State) (n : Nat) (o : AOp) (g : Grp) : State :=
  if o.addr.toNat / 2 ^ 60 ≠ 0 ∨ o.addr.toNat % 64 ≠ 0 then s.launched n o 1#64
  else if !s.spaceOk n .source o.addr then s.failA n o { cause := 0x15 }
  else if (piecesOf (o.addr, 320)).any fun x => s.resolveCopied n x.1 then s
  else match s.launchCapture n g.part o.addr with
    | .error k => s.failA n o k
    | .ok (t, cs) => t.modCore n fun c => c.modAop o.iseq fun o => { o with caps := cs }

/-- An unfinished LAUNCH goes on (R105). -/
def State.launchStep (s : State) (n : Nat) (o : AOp) (blocking : Bool) : State :=
  match s.grpAt n with
  | none => s
  | some g =>
    if !o.begun && o.caps.isEmpty then s.launchAgain n o g
    else if o.begun then s.launchAsk n o g o.bytes blocking
    else if !(s.core n).settled o || o.caps.any fun c => s.readOwed n g.part o.iseq (s.landsAt g.part c.2.1) c.2.2 true then s
    else s.launchRead n o g o.caps blocking

/-- Every waiting LAUNCH of a core starts over (R106). -/
def Core.launchesAgain (c : Core) : Core :=
  { c with aops := c.aops.map fun o =>
      match o.instr with
      | .launchB .. => if o.phase == .sync then { o with begun := false, bytes := [], value := 0#64, caps := [] } else o
      | _ => o }

/-- LAUNCH_WAIT_TIMEOUT: a LAUNCH.b that has waited 16 µs, in the program or in a handler, deschedules its group (R106, R331). -/
def execLaunchWaitTimeout (core : Nat) (s : State) : Result :=
  .next (match (s.core core).aops.find? fun o => match o.instr with | .launchB .. => o.phase == .sync && o.begun | _ => false, s.grpAt core with
    | some o, some g =>
      if s.accessRuns core && decide (o.value.toNat + 16000 ≤ s.wall) then
        let s := g.cores.foldl (fun s n => s.modCore n Core.launchesAgain) s
        let r := s.requeued g (some (g.depth + 1))
        r.1.halt ((r.1.grp? g.num).getD r.2) 0x81 0
      else s
    | _, _ => s)

/-! ### Delivery and saving (R322, R332 to R334) -/

/-- STOP_DELIVERY: to the handlers of the cores that raised a cause, or to the supervisor; then a pass (R99, R322). -/
def execStopDelivery (ctx : Nat) (s : State) : Result :=
  .next (match s.grp? ctx with
    | some g =>
      if g.status != .stopped then s
      else if s.toSupervisor g then (s.deliverSupervisor g .saving).pass g.part
      else match g.handler with
        | some e => (s.deliverHandlers g e).pass g.part
        | none => s
    | none => s)

/-- Whether a bank that the save engine writes is not at full rate: owned, written since it was allocated, and WARM or being woken (R118, R134). -/
def Core.mustWake (c : Core) : Bool :=
  (List.range 32).any fun b => let k : Bank := sget {} b c.banks; c.bankOwner b == c.owner && k.live && (k.st == 1 || k.st == 3)

/-- The save engine reaches the WARM banks it is to write. -/
def Core.wakeSaved (c : Core) (now : Nat) : Core :=
  { c with banks := (List.range 32).foldl (fun st b =>
      let k : Bank := sget {} b st
      if k.owner = c.owner ∧ k.live ∧ k.st = 1 then sset {} b { k with st := 3, last := now } st else st) c.banks }

/-- SAVE_IMAGE_COMPLETE: the images stand, the banks are freed and the cores are free; a pre-empted or descheduled context becomes a
candidate (R103, R134, R334). -/
def execSaveImageComplete (ctx : Nat) (s : State) : Result :=
  .next (match s.grp? ctx with
    | some g =>
      if g.status != .saving then s
      else if g.cores.any fun n => (s.core n).mustWake then
        -- the save engine wakes the WARM banks that it is to write and waits for them (R118)
        g.cores.foldl (fun s n => s.modCore n fun c => c.wakeSaved s.power.ref) s
      else
        let images := g.cores.map fun n => (n, s.savedCore n g.num g.unresumable)
        let back := g.lastCause == 0x80 || g.lastCause == 0x81
        let s := g.cores.foldl (fun s n => s.withClock n (Core.freed · s.power.ref)) s
        let s := s.setGrp { g with
          images := images, status := if back then .descheduled else .supervised }
        s.pass g.part
    | none => s)

/-- SUPERVISOR_STOP: the partition supervisor stops a running group (R340). -/
def execSupervisorStop (ctx : Nat) (s : State) : Result :=
  .next (match s.grp? ctx with
    | some g =>
      if g.status == .running then
        match g.cores with
        | n :: _ => s.stop n { cause := 0x41, code := 0xFFFF }
        | [] => s
      else s
    | none => s)

/-- SUPERVISOR_PLACE: the supervisor asks for a saved context to be placed again, its surveys valid by R327; a pass follows (R332). DEDUCED, log entry 42. -/
def execSupervisorPlace (ctx : Nat) (edits : Edits) (s : State) : Result :=
  .next (match s.grp? ctx with
    | some g =>
      if g.status != .supervised then s
      else
        let images := g.images.map fun im => match edits.find? fun e => e.core == im.1 with
          | some e => (im.1, im.2.supervised e)
          | none => im
        let ok := images.all fun im => im.2.saved.isSome || im.2.imageCheck.1 == 0
        if !ok && !g.unresumable then s
        else (s.setGrp { g with images := images.map fun im => (im.1, im.2.asked), status := .replacing, queuedSince := s.wall, readySince := s.wall }).pass g.part
    | none => s)

/-! ### Exits (R363 to R366) -/

/-- A core whose two streams have exited finishes while its group runs; the last one completes the group, and a pass follows (R365, R366). What its
BARAs carry stays for the BARWs of other cores (R287, R299). -/
def State.finishCore (s : State) (n : Nat) : State :=
  match s.grpAt n with
  | none => s
  | some g =>
    let c := s.core n
    if !(c.x.k.exited && c.a.k.exited) || c.finished || g.status != .running then s
    else
      let s := s.modCore n fun c =>
        { c with
          finished := true, q := [], tk := [], barA := [], barW := []
          e := { c.e with
            slot := c.e.slot.foldl (fun st o => sset {} o.1 (if o.2.claimed then { claimed := false, ready := false, gen := (o.2.gen + 1) % 2 ^ 32 } else o.2) st) []
            desc := [], drain := [] }
          banks := (c.freed s.power.ref).banks
          sys := { c.sys with spmask := 0#32 } }
      if g.cores.all fun k => (s.core k).finished then (s.complete g 0 0 g.lastCause).pass g.part else s

/-- The cores whose last stream exited during a stop or a resume finish once their group runs again (R365). -/
def State.finishCores (s : State) (ns : List Nat) : State := ns.foldl State.finishCore s

/-- A_STREAM_EXIT_COMPLETE: every earlier access and command of the core has retired (R363). -/
def execAStreamExitComplete (core : Nat) (s : State) : Result :=
  let c := s.core core
  .next (if c.a.k.exiting && !c.a.k.exited && c.aops.isEmpty && c.cmds.isEmpty && c.saved.isNone && s.accessRuns core then
    (s.modCore core fun c => { c with a := { c.a with k := { c.a.k with exited := true } } }).finishCore core
  else s)

/-- X_EXIT_CHECK: at T_x, when the last of the X-stream's operations has landed, a held bank raises BANK-HELD-AT-EXIT; otherwise the stream
has exited (R364). -/
def execXExitCheck (core : Nat) (s : State) : Result :=
  let c := s.core core
  .next (match s.grpAt core with
    | some g =>
      if !(c.x.k.exiting && !c.x.k.exited && c.ops.isEmpty && g.status == .running) then s
      else if (List.range 64).any fun a => (c.bank a).held then s.stop core { cause := 0x0F }
      else (s.modCore core fun c => { c with x := { c.x with k := { c.x.k with exited := true } } }).finishCore core
    | none => s)

/-- CRTAIL_WRITE (R367). -/
def execCrtailWrite (part : Nat) (value : Word) (s : State) : Result :=
  let s := s.modPart part fun p => p.setReg 0x718 (value &&& 0xFFFFFFFF#64)
  .next (s.flushRecords part (s.part part).records.length)

/-- TEARDOWN_CONTEXT (R369, R371). -/
def execTeardownContext (ctx : Nat) (s : State) : Result :=
  .next (match s.grp? ctx with
    | some g => (s.teardown ctx).pass g.part
    | none => s.teardown ctx)

/-- TEARDOWN_PARTITION: every context of the partition, those whose record still waits among them (R369, R370). -/
def execTeardownPartition (part : Nat) (s : State) : Result :=
  let late := ((s.part part).records.map fun r => recField r 0x14 4).filter fun k => k != 0
  let s := late.foldl (fun s k => if (s.grp? k).isSome then s else s.tornRecord part k) s
  .next ((s.cancelAll part ((s.groups.filter fun g => g.part == part).flatMap fun g => s.condemned part g.arrival)).pass part)

end Sys2Proof.Machine
end

