-- ==== Sys2Proof/Machine/Code.lean ====
section
/-! DEFINITION. The code service (R10 to R26, R403): the ring of commands, LOAD with its checks, symbols and relocations, UNLOAD, UNLOAD.F
and PATCH. -/

namespace Sys2Proof.Machine

/-! ### Reading an object (R10, R11, R14, R15, R17) -/

/-- A section table entry. -/
structure Sec where
  kind : Nat
  align : Nat
  file : Nat
  size : Nat
  load : Nat
deriving DecidableEq, Repr, Inhabited

/-- A symbol table entry: the symbol and its frame byte. -/
structure SymEntry where
  sym : Sym
  frame : Nat
deriving DecidableEq, Repr

/-- A relocation entry. -/
structure Reloc where
  off : Nat
  sec : Nat
  kind : Nat
  sym : Nat
  addend : Int
deriving DecidableEq, Repr

/-- Whether n bytes of an object at an offset are all zero. -/
def zeros (d : Bytes) (off n : Nat) : Bool := ((d.drop off).take n).all fun b => b == 0#8

/-- The header (R10); an object whose flag bit 0 is 0 is loaded like any other. DEDUCED, log entry 59. DESIGN CHOICE, log entry 112. -/
def headerOk (d : Bytes) : Bool :=
  let f := recField d
  let inside (off n : Nat) : Bool := decide (off % 8 = 0) && decide (off + n ≤ d.length)
  decide (64 ≤ d.length) && f 0 4 == 0x544F5645 && f 4 2 == 1 && decide (f 6 2 < 2) && decide (3 ≤ f 8 4) && decide (f 8 4 ≤ 7) &&
  decide (f 0xC 4 ≤ 65535) && decide (f 0x28 4 ≤ 1048575) && zeros d 0x38 8 && inside (f 0x10 8) (32 * f 8 4) && inside (f 0x18 8) (24 * f 0xC 4) &&
  inside (f 0x20 8) (16 * f 0x28 4) && decide (f 0x30 8 + f 0x2C 4 ≤ d.length)

/-- The sections in table order. -/
def sections (d : Bytes) : List Sec :=
  (List.range (recField d 8 4)).map fun i =>
    let at_ := recField d 0x10 8 + 32 * i
    { kind := recField d at_ 1, align := recField d (at_ + 1) 1, file := recField d (at_ + 8) 8, size := recField d (at_ + 0x10) 8
      load := recField d (at_ + 0x18) 8 }

/-- Limits of one section by its kind (R11). An `.xtext` of no bytes passes. DESIGN CHOICE, log entry 89. -/
def Sec.ok (x : Sec) (d : Bytes) : Bool :=
  decide (1 ≤ x.kind) && decide (x.kind ≤ 7) && decide (3 ≤ x.align) && decide (x.align ≤ 16) && decide (x.file + x.size ≤ d.length) &&
  x.load % 2 ^ x.align == 0 &&
  (match x.kind with
    | 1 => x.size % 8 == 0
    | 2 => x.size % 8 == 0
    | 4 => x.align == 16
    | 5 => decide (x.size ≤ 128)
    | 6 => x.size % 16 == 0
    | 7 => x.size == 64
    | _ => true)

/-- Two sections keep apart: their load ranges, and the 64 KiB pages of `.data` (R11). -/
def Sec.apart (x y : Sec) : Bool :=
  let pages (z : Sec) : Nat × Nat := if z.kind = 4 ∧ z.size ≠ 0 then (z.load / 65536 * 65536, (z.load + z.size + 65535) / 65536 * 65536) else (z.load, z.load + z.size)
  x.size == 0 || y.size == 0 || decide ((pages x).2 ≤ (pages y).1) || decide ((pages y).2 ≤ (pages x).1)

/-- The section table (R11): each kind at most once, the three required ones, reserved bytes zero. DEDUCED, log entry 59. -/
def sectionsOk (d : Bytes) : Bool :=
  let ss := sections d
  ss.all (·.ok d) && (List.range (recField d 8 4)).all (fun i => zeros d (recField d 0x10 8 + 32 * i + 2) 6) &&
  [1, 2, 7].all (fun k => ss.any fun x => x.kind == k) && decide (ss.map (·.kind)).Nodup && decide (ss.Pairwise fun x y => x.apart y = true)

/-- The section of a kind. -/
def secOf (ss : List Sec) (k : Nat) : Option Sec := ss.find? fun x => x.kind == k

/-- A NUL-terminated name of the string table; none when it does not end there. -/
def nameAt (d : Bytes) (off : Nat) : Option Bytes :=
  let size := recField d 0x2C 4
  if size ≤ off then none
  else
    let t := (d.drop (recField d 0x30 8 + off)).take (size - off)
    if t.contains 0#8 then some (t.takeWhile fun b => b != 0#8) else none

/-- The symbols in table order (R14). -/
def symbols (d : Bytes) : List (Option SymEntry) :=
  (List.range (recField d 0xC 4)).map fun i =>
    let at_ := recField d 0x18 8 + 24 * i
    (nameAt d (recField d at_ 4)).map fun nm =>
      { sym := { name := nm, sec := recField d (at_ + 4) 1, binding := recField d (at_ + 5) 1, kind := recField d (at_ + 6) 1, value := recField d (at_ + 8) 8 }
        frame := recField d (at_ + 7) 1 }

/-- One symbol (R14). Its value is not held against its section. DESIGN CHOICE, log entry 90. -/
def SymEntry.ok (x : SymEntry) : Bool :=
  decide (x.sym.sec ≤ 7) && decide (x.sym.binding ≤ 2) && decide (1 ≤ x.sym.kind) && decide (x.sym.kind ≤ 8) &&
  (if x.sym.kind = 1 then [4, 8, 12, 16, 20, 24].contains x.frame else x.frame == 0) && (x.sym.kind != 6 || decide (x.sym.value ≤ 15))

/-- The relocations in table order (R15); a set reserved byte makes the kind 0, which is refused. -/
def relocs (d : Bytes) : List Reloc :=
  (List.range (recField d 0x28 4)).map fun i =>
    let at_ := recField d 0x20 8 + 16 * i
    { off := recField d at_ 4, sec := recField d (at_ + 4) 1, kind := if zeros d (at_ + 6) 2 then recField d (at_ + 5) 1 else 0
      sym := recField d (at_ + 8) 4, addend := (BitVec.ofNat 32 (recField d (at_ + 0xC) 4)).toInt }

/-- The patch descriptors: section kind and offset (R25). -/
def patches (d : Bytes) (ss : List Sec) : List (Nat × Nat) :=
  match secOf ss 6 with
  | some x => (List.range (x.size / 16)).map fun i => (recField d (x.file + 16 * i) 1, recField d (x.file + 16 * i + 8) 8)
  | none => []

/-- The patch descriptors are well formed (R25). -/
def patchesOk (d : Bytes) (ss : List Sec) (syms : List SymEntry) : Bool :=
  match secOf ss 6 with
  | some x => (List.range (x.size / 16)).all fun i =>
      let at_ := x.file + 16 * i
      let k := recField d at_ 1
      let off := recField d (at_ + 8) 8
      (k == 1 || k == 2) && zeros d (at_ + 1) 3 && off % 8 == 0 && decide (off + 8 ≤ ((secOf ss k).map (·.size)).getD 0) &&
      (match syms[recField d (at_ + 4) 4]? with | some y => y.sym.kind == 5 | none => false)
  | none => true

/-- The cartouche (R17): magic, version and reserved bytes. DEDUCED, log entry 59. -/
def cartoucheOk (d : Bytes) (c : Sec) : Bool :=
  recField d c.file 4 == 0x54524143 && recField d (c.file + 4) 2 == 1 && zeros d (c.file + 6) 2

/-! ### Symbols of other objects (R14, R21) -/

/-- The image address of a symbol of a loaded object. DEDUCED, log entry 60. -/
def Obj.symAddr (o : Obj) (y : Sym) : Int := o.base.toNat + (o.sec y.sec).1 + y.value

/-- The loaded definition of a name with a binding: the object and the symbol. DEDUCED, log entry 60. -/
def Part.defines (p : Part) (binding : Nat) (name : Bytes) : Option (Obj × Sym) :=
  p.objs.findSome? fun o => (o.syms.find? fun y => y.sec != 0 && y.binding == binding && y.name == name).map fun y => (o, y)

/-- What a symbol of the object being loaded denotes: its object when another one defines it, the symbol, and its address (R21). A global
definition comes before a weak one. DEDUCED, log entry 60. -/
def Part.denotes (p : Part) (base : Nat) (ss : List Sec) (y : Sym) : Option (Option Nat × Sym × Int) :=
  let own : Option (Option Nat × Sym × Int) := some (none, y, base + ((secOf ss y.sec).map (·.load)).getD 0 + y.value)
  let there (r : Obj × Sym) : Option Nat × Sym × Int := (some r.1.id, r.2, r.1.symAddr r.2)
  if y.sec ≠ 0 then
    if y.binding = 2 then (match p.defines 1 y.name with | some r => some (there r) | none => own) else own
  else match p.defines 1 y.name with
    | some r => some (there r)
    | none => if y.binding = 2 then (p.defines 2 y.name).map there else none

/-! ### Relocation (R12, R15, R16) -/

/-- A word of an image with n bits from lo up replaced. -/
def setField (w : Word) (lo n v : Nat) : Word :=
  (w &&& ~~~(BitVec.ofNat 64 ((2 ^ n - 1) * 2 ^ lo))) ||| BitVec.ofNat 64 (v % 2 ^ n * 2 ^ lo)

/-- The new word at a relocated place, or the status that refuses it: BADREL or UNRESOLVED, the latter for a weak undefined symbol that
stays unresolved and for a HANDLE whose name has no bound handle (DESIGN CHOICE, log entry 118) (R15, R16). DEDUCED, log entry 59. -/
def Part.relocate (p : Part) (base : Nat) (ss : List Sec) (syms : List SymEntry) (handles : List (Bytes × Word)) (r : Reloc) (w : Word) :
    Except Nat Word :=
  match syms[r.sym]?, secOf ss r.sec with
  | some y, some x =>
    let y := y.sym
    let at_ : Int := base + x.load + r.off
    let instr := Sys2Proof.decode (Sys2Proof.bare w)
    let inText := (r.sec == 1 || r.sec == 2) && r.off % 8 == 0 && decide (r.off + 8 ≤ x.size)
    let inData := (r.sec == 3 || r.sec == 4) && (x.load + r.off) % 8 == 0 && decide (r.off + 8 ≤ x.size)
    let fits (v : Int) : Bool := decide (-(2 ^ 31) ≤ v) && decide (v < 2 ^ 31)
    let d := p.denotes base ss y
    let undefined : Nat := if y.binding = 2 ∧ d.isNone then 4 else 6
    let other (t : Int) : Bool := match secOf ss (3 - r.sec) with
      | some z => decide (base + z.load ≤ t) && decide (t < base + z.load + z.size)
      | none => false
    match r.kind with
    | 1 =>
      if ¬inText then .error 6
      else if y.sec = 0 then .error undefined
      else
        let t : Int := base + ((secOf ss y.sec).map (·.load)).getD 0 + y.value + r.addend
        let rel := t - at_
        match instr with
        | .ok (.pbr ..) =>
          if rel % 8 ≠ 0 ∨ ¬fits (rel / 8) ∨ other t then .error 6
          else .ok (setField w 0 32 (BitVec.ofInt 32 (rel / 8)).toNat)
        | .ok (.addpc ..) => if fits rel then .ok (setField w 0 32 (BitVec.ofInt 32 rel).toNat) else .error 6
        | _ => .error 6
    | 2 =>
      if ¬inData then .error 6
      else match d with
        | some (_, _, t) => .ok (BitVec.ofNat 64 ((t + r.addend) % 2 ^ 48).toNat)
        | none => if y.binding = 2 then .ok 0#64 else .error 4
    | 3 =>
      if ¬inData then .error 6
      else match handles.find? fun h => h.1 == y.name with
        | some h => .ok h.2
        | none => .error 4
    | 4 =>
      if ¬inText ∨ r.addend ≠ 0 ∨ y.kind ≠ 6 then .error 6
      else match d, instr with
        | some (_, z, _), .ok (.mfs ..) => if z.kind = 6 then .ok (setField w 0 4 z.value) else .error 6
        | none, .ok (.mfs ..) => .error 4
        | _, _ => .error 6
    | 5 =>
      if ¬inText ∨ r.addend ≠ 0 then .error 6
      else if y.sec = 0 then .error undefined
      else if y.kind ≠ 4 ∨ 15 < y.value then .error 6
      else match instr with
        | .ok (.fmti ..) => .ok (setField w 40 4 y.value)
        | _ => .error 6
    | _ => .error 6
  | _, _ => .error 6

/-! ### LOAD (R18, R20, R21) -/

/-- The outcome of LOAD: a status, or the object with the bytes to store. -/
abbrev Loaded := Except Nat (Obj × List (Nat × Bytes))

/-- Whether an image may stand where it is placed: 64 KiB aligned, inside space 0 and the physical range, clear of every other image. DESIGN CHOICE, log entry 31. -/
def Part.room (p : Part) (pl : Placement) (size : Nat) : Bool :=
  let up (n : Nat) : Nat := (n + 65535) / 65536 * 65536
  pl.va.toNat % 65536 == 0 && pl.pa % 65536 == 0 && decide (pl.va.toNat + up size ≤ 2 ^ 48) && decide (pl.pa + up size ≤ 2 ^ 39) &&
  p.objs.all fun o =>
    (decide (o.base.toNat + up o.size ≤ pl.va.toNat) || decide (pl.va.toNat + up size ≤ o.base.toNat)) &&
    (decide (o.pa + up o.size ≤ pl.pa) || decide (pl.pa + up size ≤ o.pa))

/-- Check, link and relocate an object (R10 to R21), in the order of the status codes. Bytes of `.fmt` beyond its last whole template are not
used. DEDUCED, log entry 59. DESIGN CHOICE, log entry 89. -/
def Part.loadObject (p : Part) (d : Bytes) (pl : Placement) : Loaded :=
  if !headerOk d || !sectionsOk d then .error 1
  else
    let ss := sections d
    let entries := symbols d
    let syms := entries.filterMap id
    match secOf ss 7 with
    | none => .error 1
    | some c =>
      if syms.length ≠ entries.length ∨ !syms.all (·.ok) ∨ !patchesOk d ss syms ∨ !cartoucheOk d c then .error 1
      else if BitVec.ofNat 64 (recField d (c.file + 8) 8) ≠ archHash then .error 2
      else if (d.drop (c.file + 0x10)).take 48 ≠ sha384 (d.take c.file ++ List.replicate 64 0#8 ++ d.drop (c.file + 64)) then .error 3
      else
        let base := pl.va.toNat
        let bound (y : Sym) : Bool := pl.handles.any fun h => h.1 == y.name
        if syms.any fun y => y.sym.sec == 0 && y.sym.binding != 2 && (p.denotes base ss y.sym).isNone && !bound y.sym then .error 4
        else if syms.any fun y => y.sym.sec != 0 && y.sym.binding == 1 && (p.defines 1 y.sym.name).isSome then .error 5
        else
          let image := ss.map fun x => (x.kind, (d.drop x.file).take x.size)
          let apply (acc : Except Nat (List (Nat × Bytes))) (r : Reloc) : Except Nat (List (Nat × Bytes)) :=
            match acc with
            | .error k => .error k
            | .ok im =>
              let b := ((im.find? fun e => e.1 == r.sec).map (·.2)).getD []
              match p.relocate base ss syms pl.handles r (BitVec.ofNat 64 (recField b r.off 8)) with
              | .error k => .error k
              | .ok w => .ok (im.map fun e => if e.1 = r.sec then (e.1, e.2.take r.off ++ wordBytes w ++ e.2.drop (r.off + 8)) else e)
          match (relocs d).foldl apply (.ok image) with
          | .error k => .error k
          | .ok im =>
            let size := ss.foldl (fun n x => max n (x.load + x.size)) 0
            let links := (syms.filterMap fun y => (p.denotes base ss y.sym).bind (·.1)).eraseDups
            if !p.room pl size then .error 7
            else if links.any fun k => (match p.obj? k with | some o => o.deferred | none => false) then .error 12
            else
              let fmt := ((im.find? fun e => e.1 == 5).map (·.2)).getD []
              let o : Obj :=
                { id := p.nextObj, base := pl.va, pa := pl.pa, size := size, secs := ss.map fun x => (x.kind, x.load, x.size)
                  syms := syms.map (·.sym), slots := patches d ss
                  templates := (List.range (fmt.length / 8)).map fun i => BitVec.ofNat 64 (recField fmt (8 * i) 8), links := links }
              .ok (o, im.map fun e => (pl.pa + ((secOf ss e.1).map (·.load)).getD 0, e.2))

/-! ### The command ring (R403) -/

/-- The address of the entry at CSHEAD, when one waits. -/
def Part.csEntry (p : Part) : Option Nat :=
  let head := p.idx 0x910
  if head = p.idx 0x908 ∨ 64 < (p.idx 0x908 + 2 ^ 32 - head) % 2 ^ 32 then none
  else some ((p.reg 0x900).toNat + 64 * (head % 64))

/-- Write a field of an entry of the ring. -/
def State.csWrite (s : State) (pn va : Nat) (d : Bytes) : State :=
  match s.mapVa pn none (va % 2 ^ 48) true true with
  | .ok h => s.writePlace outsider h.place d
  | .error _ => s

/-- The status of a command, written before CSHEAD advances (R403). -/
def State.csDone (s : State) (pn va status : Nat) (id : Option Nat) : State :=
  let s := match id with | some k => s.csWrite pn (va + 0x28) (leBytes 8 k) | none => s
  let s := { s.csWrite pn (va + 0x20) [BitVec.ofNat 8 status] with reply := .status (BitVec.ofNat 64 status) }
  s.modPart pn fun p => p.setReg 0x910 (BitVec.ofNat 64 ((p.idx 0x910 + 1) % 2 ^ 32))

/-- Run a command of the ring if its code stands at the head: the entry's bytes go to the body, which gives the state, the status and the id. It
waits for a channel that is being copied (R400). DEDUCED, log entry 61. -/
def State.csCommand (s : State) (pn cmd : Nat) (body : Bytes → State → State × Nat × Option Nat) : State :=
  match (s.part pn).csEntry with
  | none => s
  | some va =>
    if s.vaCopied pn (va % 2 ^ 48) 64 then s
    else match s.readVa pn (va % 2 ^ 48) 64 with
    | .error _ => s
    | .ok e =>
      if recField e 0 1 ≠ cmd || (cmd == 1 && s.vaCopied pn (recField e 8 8 % 2 ^ 48) (recField e 0x10 8)) then s
      else
        let r := body e s
        r.1.csDone pn va r.2.1 r.2.2

/-- LOAD (R18, R20, R21): check, map, relocate and link. -/
def execLoad (part : Nat) (place : Placement) (s : State) : Result :=
  .next (s.csCommand part 1 fun e s =>
    match s.readVa part (recField e 8 8 % 2 ^ 48) (recField e 0x10 8) with
    | .error _ => (s, 1, none)
    | .ok d =>
      if recField e 8 8 / 2 ^ 48 ≠ 0 then (s, 1, none)
      else match (s.part part).loadObject d place with
        | .error k => (s, k, none)
        | .ok (o, parts) =>
          let s := parts.foldl (fun (s : State) b => s.storeHbm b.1 b.2) s
          let s := s.modPart part fun p => { p with objs := p.objs ++ [o], nextObj := (p.nextObj + 1) % 2 ^ 32 }
          (s.mapImage part o true, 0, some o.id))

/-- Unmap an object: its pages leave the tables, and no core keeps a leaf for them (R23). DESIGN CHOICE, log entry 31. -/
def State.unmap (s : State) (pn id : Nat) : State :=
  let s := match (s.part pn).obj? id with
    | some o =>
      let inside (l : Leaf) : Bool := decide (o.base.toNat < (l.vpn + 1) * 2 ^ l.size) && decide (l.vpn * 2 ^ l.size < o.base.toNat + o.size)
      (s.mapImage pn o false).mapCores fun _ c => if c.part = some pn then { c with cache := c.cache.filter fun l => !inside l } else c
    | none => s
  s.modPart pn fun p => { p with objs := p.objs.filter fun o => o.id != id }

/-- UNLOAD (R23). DEDUCED, log entry 61. -/
def execUnload (part : Nat) (s : State) : Result :=
  .next (s.csCommand part 2 fun e s =>
    let id := recField e 8 8
    match (s.part part).obj? id with
    | none => (s, 1, none)
    | some o =>
      if s.residency part o = 0 then (s.unmap part id, 0, none)
      else (s.modPart part fun p => { p with objs := p.objs.map fun q => if q.id = id then { q with deferred := true } else q }, 8, none))

/-- DEFERRED_UNMAP (R23): the count of a deferred object has reached 0. -/
def execDeferredUnmap (part obj : Nat) (s : State) : Result :=
  .next (match (s.part part).obj? obj with
    | some o => if o.deferred && s.residency part o == 0 then s.unmap part obj else s
    | none => s)

/-- A waiting launch completes with CODE-GONE; its dependents are not told yet (R24). DEDUCED, log entry 62. -/
def State.goneLaunch (s : State) (pn : Nat) (l : Launch) : State :=
  (s.dropLaunch pn l.arrival).addRecord pn l.tag 11#64 0 0 false l.depth 0

/-- A launch that waits in a launch queue completes with CODE-GONE; its record stays in the ring, and its status entry comes when the
dispatcher reads it (R24). DEDUCED, log entry 62. -/
def State.goneRecord (s : State) (pn va : Nat) : State :=
  match s.mapVa pn none (vaOf (BitVec.ofNat 64 (va + 0x10))) false true with
  | .ok { place := .hbm a, .. } => s.addRecord pn (Memory.word s.hbm a) 11#64 0 0 false 0 0
  | _ => s

/-- The effect of UNLOAD.F on one object: groups torn down, saved contexts unresumable, waiting launches complete, then the dependents of all of them
are told, and the object unmaps (R24). DEDUCED, log entry 62. -/
def State.forceOut (s : State) (pn : Nat) (o : Obj) : State :=
  let torn := (s.groups.filter fun g => g.part == pn && g.images.isEmpty && g.obj == o.id).flatMap fun g => s.condemned pn g.arrival
  let s := torn.foldl (fun s a => s.cancel pn a) s
  let mark (g : Grp) : Grp := if g.part == pn && (g.images.any fun im => im.2.pointsInto o) then { g with unresumable := true, images := g.images.map fun im => (im.1, im.2.markGone) } else g
  let s := { s with groups := s.groups.map mark }
  let gone := (s.part pn).pending.filter fun l => l.obj == o.id
  let s := gone.foldl (fun s l => s.goneLaunch pn l) s
  let s := (torn ++ gone.map (·.arrival)).foldl (fun s a => s.completed pn a false) s
  let s := (s.ringNaming pn o.id).foldl (fun s va => s.goneRecord pn va) s
  s.unmap pn o.id

/-- UNLOAD.F (R24). -/
def execUnloadF (part : Nat) (s : State) : Result :=
  let t := s.csCommand part 3 fun e s =>
    match (s.part part).obj? (recField e 8 8) with
    | none => (s, 1, none)
    | some o => if (s.part part).objs.any fun q => q.id != o.id && q.links.contains o.id then (s, 9, none) else (s.forceOut part o, 0, none)
  .next (t.pass part)

/-- The text section and place of a patch slot at an offset: `.xtext` first (R25, R403 names no section). DEDUCED, log entry 61. -/
def Obj.slotAt (o : Obj) (off : Nat) : Option Nat :=
  ((o.slots.find? fun x => x == (1, off)).orElse fun _ => o.slots.find? fun x => x == (2, off)).map fun x => o.pa + (o.sec x.1).1 + off

/-- PATCH (R25, R26): the write is atomic and visible from the next fetch on. SLOT-SHAPE is answered before UNLOADING (DESIGN CHOICE, log entry 117).
DEDUCED, log entry 30. DEDUCED, log entry 61. -/
def execPatch (part : Nat) (s : State) : Result :=
  .next (s.csCommand part 4 fun e s =>
    match (s.part part).obj? (recField e 8 8) with
    | none => (s, 10, none)
    | some o =>
      match o.slotAt (recField e 0x10 8) with
      | none => (s, 10, none)
      | some a =>
        let new := recField e 0x18 8
        if new / 2 ^ 60 ≠ Memory.le s.hbm a 8 / 2 ^ 60 then (s, 11, none)
        else if o.deferred then (s, 12, none)
        else (s.storeHbm a (leBytes 8 new), 0, none))

/-- CSTAIL_WRITE (R403). -/
def execCstailWrite (part : Nat) (value : Word) (s : State) : Result :=
  .next (s.modPart part fun p => p.setReg 0x908 (value &&& 0xFFFFFFFF#64))

end Sys2Proof.Machine
end

