-- ==== Sys2Proof/Machine/Power.lean ====
section
/-! DEFINITION. The power controller (R373 to R388): reference frequency, rails and votes, current and thermal limits, autopilot, and the
parking of clusters, with the registers of its window. -/

namespace Sys2Proof.Machine

/-! ### Fuse points and rails (R373, R376) -/

/-- MHz of a fuse point: the points ascend, and the last is 2,700 MHz (R373). -/
def fuseMhz : Nat → Nat
  | 0 => min 2693 ((Config.vft 0).toNat % 2 ^ 12)
  | i + 1 => if 6 ≤ i then 2700 else min (2694 + i) (max (fuseMhz i + 1) ((Config.vft (i + 1)).toNat % 2 ^ 12))

/-- mV of a fuse point (R373). -/
def fuseMv (i : Nat) : Nat := (Config.vft i).toNat / 2 ^ 16 % 2 ^ 10

/-- Vmin(f): the voltage of the first fuse point at or above f (R373). -/
def vmin (f : Nat) : Nat := fuseMv (((List.range 8).find? fun i => decide (f ≤ fuseMhz i)).getD 7)

/-- The rail of a cluster (R376). -/
def clusterRail (k : Nat) : Nat := 4 * (k / 12) + k % 12 / 3
def coreRail (c : Nat) : Nat := clusterRail (coreCluster c)

/-- The fused voltage of a rail, ten bits (R373). -/
def railFused (r : Nat) : Nat := Config.railFused r % 2 ^ 10

/-- The voltage at which a rail stands, or from which it moves, and its target. -/
def Power.mv (p : Power) (r : Nat) : Nat := (sget none r p.rails).getD (railFused r)
def Power.target (p : Power) (r : Nat) : Nat := (sget none r p.targets).getD (railFused r)

/-- How far in mV a move of a rail has gone in n steps of its highest rate: by at most 1 in each, and never back (R376). DEDUCED, log entry 64. -/
def railSteps (r start n : Nat) : Nat := ((List.range n).filter fun i => Config.railMoves r start i).length

/-- The present voltage of a rail (R376): where it stands, or, while it moves, a free value that its rate allows. DEDUCED, log entry 64. -/
def State.railMv (s : State) (r : Nat) : Nat :=
  let v := s.power.mv r
  let t := s.power.target r
  match sget none r s.power.moves with
  | some (start, true) => v + min (t - v) (railSteps r start ((s.wall - start) / 100))
  | some (start, false) => v - min (v - t) (railSteps r start ((s.wall - start) / 250))
  | none => v

/-- The vote of a partition (R377). -/
def Part.vote (p : Part) : Nat := (p.reg 0x800).toNat % 2 ^ 10

/-- Whether a cluster counts toward its rail's target: its share of the rail is not switched off (R376, R387, R392). DEDUCED, log entry 63. -/
def Cluster.counts (k : Cluster) : Bool := k.rail != 2

/-- The highest vote of the partitions that own a core in the counting clusters of a rail (R376). DEDUCED, log entry 63. -/
def State.votes (s : State) (r : Nat) : Nat :=
  s.parts.foldl (fun m e =>
    if e.2.cores.any fun c => coreRail c == r && (s.cluster (coreCluster c)).counts then max m e.2.vote else m) 0

/-- The target that a rail ought to have (R376, R381). DEDUCED, log entry 65. -/
def State.railTarget (s : State) (r : Nat) : Nat :=
  let need := vmin s.power.refcur
  min (fuseMv 7) (if s.power.auto then max (sget 0 r s.power.heldTarget) need else max (s.votes r) need)

/-- A rail under its new target (R376): a rise starts at once, from where the rail now stands, and stops a fall; a fallen target stops a fall as well, which
goes on only once every group has passed a contour since and no reduction is pending. DEDUCED, log entry 64. -/
def State.retarget (s : State) (r : Nat) : State :=
  let p := s.power
  let old := p.target r
  let new := s.railTarget r
  if new = old ∧ (sget none r p.targets).isSome then s
  else
    let move := sget none r p.moves
    let stopped := move.isSome && new != old
    let v := if stopped then s.railMv r else p.mv r
    let kept : Option (Nat × Bool) := if stopped then none else move
    let next : Option (Nat × Bool) := if kept.isNone && decide (v < new) then some (s.wall, true) else kept
    { s with
      power := { p with
        targets := sset none r (some new) p.targets
        rails := sset none r (some v) p.rails
        moves := sset none r next p.moves
        railRose := (match sget none r p.moves with | some (_, true) => if stopped then sset none r (some s.wall) p.railRose else p.railRose | _ => p.railRose)
        railPassed := if new < old then p.railPassed.filter fun e => coreRail e.2 != r else p.railPassed } }

/-- Every rail under its new target. -/
def State.retargets (s : State) : State := (List.range 8).foldl State.retarget s

/-- What a fall waits for (R376): contours of every group on the rail, no pending frequency reduction, 500 µs since the last rise. DEDUCED, log entry 67. -/
def State.mayFall (s : State) (r : Nat) : Bool :=
  let p := s.power
  (s.groups.all fun g => !g.images.isEmpty || (g.cores.filter fun c => coreRail c == r).all fun c => p.railPassed.contains (g.num, c)) &&
  (match p.pend with | some f => decide (p.refcur ≤ f) | none => true) &&
  (match sget none r p.railRose with | some t => decide (t + 500000 ≤ s.wall) | none => true)

/-- RAIL_FALL_START (R376). -/
def execRailFallStart (rail : Nat) (s : State) : Result :=
  let p := s.power
  .next (if decide (rail < 8) && !p.auto && (sget none rail p.moves).isNone && decide (p.target rail < p.mv rail) && s.mayFall rail then { s with power := { p with moves := sset none rail (some (s.wall, false)) p.moves } } else s)

/-- RAIL_AT_TARGET (R376): the move has come to its target, no sooner than 10 mV/µs up and 4 mV/µs down allow. DEDUCED, log entry 64. -/
def execRailAtTarget (rail : Nat) (s : State) : Result :=
  let p := s.power
  .next (match sget none rail p.moves with
    | some (_, up) =>
      let t := p.target rail
      if s.railMv rail = t then
        { s with power := { p with
            rails := sset none rail (some t) p.rails
            moves := sset none rail none p.moves
            railRose := if up then sset none rail (some s.wall) p.railRose else p.railRose } }
      else s
    | none => s)

/-- VVOTE_WRITE (R377, R381). -/
def execVvoteWrite (part : Nat) (value : Word) (s : State) : Result :=
  let v := value.toNat % 2 ^ 10
  .next (if s.power.auto ∨ ¬(v = 0 ∨ (600 ≤ v ∧ v ≤ 950)) then s
    else (s.modPart part fun p => p.setReg 0x800 (BitVec.ofNat 64 v)).retargets)

/-! ### The reference frequency (R374, R379) -/

/-- Post a request; a later one keeps the contours already counted (R374). -/
def State.postRequest (s : State) (f : Nat) : State :=
  let s := if s.power.pend.isSome then s else { s with groups := s.groups.map fun g => { g with passed := [] } }
  { s with power := { s.power with pend := some f } }

/-- Whether a group counts as having passed a contour: every core has or waits in ALIGN, or the group is halted or waits for its first pulse (R374).
DEDUCED, log entry 67. -/
def State.groupPassed (s : State) (g : Grp) : Bool :=
  g.status != .running || g.cores.all (fun c => g.passed.contains c || (s.core c).x.align.isSome) || (!g.clock && g.cores.any fun c => (s.core c).x.align.isSome)

/-- A trace record for the enabled sources of some cores of a partition (R349, R351). -/
def State.traceCores (s : State) (pn : Nat) (cores : List Nat) (kind a : Nat) (b : Word) : State :=
  cores.foldl (fun s c => ((s.trace pn (2 * c) kind a b).trace pn (2 * c + 1) kind a b).trace pn (384 + c) kind a b) s

/-- A trace record for every enabled source (R351). -/
def State.traceAll (s : State) (kind a : Nat) (b : Word) : State :=
  (List.range 48).foldl (fun s p => (s.traceCores p (s.part p).cores kind a b).trace p (640 + p) kind a b) s

/-- REFSET_WRITE (R373, R374, R381). -/
def execRefsetWrite (value : Word) (s : State) : Result :=
  let f := value.toNat % 2 ^ 12
  .next (if s.power.auto ∨ f < 800 ∨ 2700 < f then s
    else ({ s with power := { s.power with refset := f } } : State).postRequest f)

/-- REFERENCE_FREQUENCY_CHANGE: the instant I of a pending request, with its RATE records (R351, R374); while the thermal trip holds the clock there
is none (R380). DEDUCED, log entry 110. -/
def execReferenceFrequencyChange (s : State) : Result :=
  let p := s.power
  .next (match p.pend with
    | none => s
    | some f =>
      if p.therm || !s.groups.all (s.groupPassed ·) || !((List.range 8).all fun r => decide (vmin f ≤ s.railMv r)) then s
      else
        let s := s.traceAll 6 f 0#64
        ({ s with power := { s.power with refcur := f, pend := none } } : State).retargets)

/-! ### Limits (R378 to R380) -/

/-- CURRENT_EXCESS: the limiter stretches reference cycles; no tick moves (R378). -/
def execCurrentExcess (s : State) : Result :=
  .next (if s.power.stretch then s else { s with power := { s.power with stretch := true, stretchSince := s.wall } })

/-- CURRENT_EXCESS_END (R378). -/
def execCurrentExcessEnd (s : State) : Result := .next { s with power := { s.power with stretch := false } }

/-- STRETCH_TIMEOUT: a request for the highest fuse point below REFCUR that fits PLIMIT (R379). -/
def execStretchTimeout (s : State) : Result :=
  let p := s.power
  .next (if p.stretch ∧ p.stretchSince + 100000 ≤ s.wall then
    match ((List.range 8).map fun i => fuseMhz (7 - i)).find? fun f => decide (f < p.refcur) && Config.fits f p.plimit with
    | some f => s.postRequest f
    | none => s
  else s)

/-- THERMAL_TRIP: a die has reached 115 °C, and the reference clock stops (R380). DEDUCED, log entry 66. -/
def execThermalTrip (die : Nat) (s : State) : Result :=
  let p := s.power
  .next { s with power := { p with
    hot := if p.hot.contains die then p.hot else die :: p.hot
    therm := true
    thermSince := if p.therm then p.thermSince else s.wall } }

/-- THERMAL_RECOVERY: every die is at or below 105 °C; the clock restarts and every trace source receives a GAP record (R351, R380). -/
def execThermalRecovery (s : State) : Result :=
  .next (if s.power.therm then
    ({ s with power := { s.power with therm := false, hot := [] } } : State).traceAll 7 0 (BitVec.ofNat 64 (s.wall - s.power.thermSince))
  else s)

/-! ### Autopilot (R381) -/

/-- Entering autopilot (R381): every rail is held at the highest target in force. DEDUCED, log entry 64. DEDUCED, log entry 65. -/
def State.enterAuto (s : State) : State :=
  if s.power.auto then s
  else
    let p := s.power
    -- no rail falls: a fall in progress stops where it is
    let p := (List.range 8).foldl (fun (x : Power) r =>
      match sget none r x.moves with
      | some (_, false) => { x with rails := sset none r (some (s.railMv r)) x.rails, moves := sset none r none x.moves }
      | _ => x) p
    let most := (List.range 8).foldl (fun m r => max m (p.target r)) 0
    let held := (List.range 8).foldl (fun st r => sset 0 r most st) []
    let floors := (List.range 192).foldl (fun st c => sset 0#64 c (s.core c).sys.diva st) []
    (({ s with power := { p with auto := true, heldTarget := held, floors := floors } } : State).postRequest (min p.refcur 1000)).retargets

/-- Whether every management core is halted, which a refused stage-1 image leaves them: nothing then writes the heartbeat (R394, R398). -/
def State.silent (s : State) : Bool := (List.range 4).all fun n => (s.mcore n).halted

/-- PCHB_WRITE: the heartbeat; autopilot ends when UPDATE is 0 (R381). With every management core halted there is none (R398). -/
def execPchbWrite (_value : Word) (s : State) : Result :=
  let p := { s.power with beat := s.wall }
  .next (if s.silent then s
  else if p.auto && !p.update then
    ({ s with power := { p with auto := false, heldTarget := [], floors := [] } } : State).retargets
  else { s with power := p })

/-- PWSTAT_UPDATE_WRITE (R373, R381). -/
def execPwstatUpdateWrite (value : Word) (s : State) : Result :=
  let s := { s with power := { s.power with update := value.getLsbD 3 } }
  .next (if value.getLsbD 3 then s.enterAuto else s)

/-- HEARTBEAT_TIMEOUT: PCHB has not been written for 2 ms (R381). -/
def execHeartbeatTimeout (s : State) : Result :=
  .next (if s.power.beat + 2000000 ≤ s.wall then s.enterAuto else s)

/-! ### Parking a cluster (R384 to R388) -/

/-- The cores of a cluster. -/
def clusterCores (k : Nat) : List Nat := (List.range 8).map (8 * k + ·)

/-- Cores of a cluster in placed groups. -/
def State.placedIn (s : State) (k : Nat) : Nat := ((clusterCores k).filter fun c => (s.core c).owner != 0).length

/-- Whether a bank of a cluster is owned or in TRANSIT. -/
def State.banksIn (s : State) (k : Nat) : Bool :=
  (clusterCores k).any fun c => (s.core c).banks.any fun b => b.2.owner != 0 || b.2.st == 3

/-- Whether a place lies in a cluster's scratchpad, or in operand memory of a core of it. -/
def Place.inCluster (p : Place) (core k : Nat) : Bool :=
  match p with
  | .sp c _ => coreCluster c == k
  | .slot _ _ => coreCluster core == k
  | _ => false

/-- QACK.ACK (R385). -/
def State.qack (s : State) (k : Nat) : Bool :=
  (s.cluster k).req && s.placedIn k == 0 && !s.banksIn k &&
  !(s.cores.any fun e => e.2.allCmds.any fun m => (m.reads ++ m.writes).any fun r => r.2.1.inCluster e.1 k)

/-- Pre-empt every group with a core in a cluster (R384). -/
def State.evict (s : State) (k : Nat) : State :=
  let gs := s.groups.filter fun g => g.images.isEmpty && g.cores.any fun c => coreCluster c == k
  gs.foldl (fun s g => s.preempt g.num) s

/-- QREQ_REQ: a write of QREQ. One that clears REQ is ignored while the clocks are stopped (R384, R393). -/
def execQreqReq (cluster : Nat) (value : Word) (s : State) : Result :=
  let c := s.cluster cluster
  .next (if 24 ≤ cluster || (c.stat && !value.getLsbD 0) then s
    else
      let s := s.setCluster cluster { c with req := value.getLsbD 0, evict := value.getLsbD 1 }
      if value.getLsbD 0 && value.getLsbD 1 then s.evict cluster else s)

/-- QREQ_EVICT (R384). -/
def execQreqEvict (cluster : Nat) (s : State) : Result :=
  let c := s.cluster cluster
  .next (if 24 ≤ cluster then s
    else
      let s := s.setCluster cluster { c with evict := true }
      if c.req then s.evict cluster else s)

/-- The retention state of a cluster as a 4 KiB image (R386): as it came up or as a restore read it back, its scrub positions as they now are.
DEDUCED, log entry 68. -/
def State.retentionImage (s : State) (k : Nat) : Bytes :=
  (List.range 4096).map (Config.retention k (s.cluster k).losses (s.cluster k).ret s.wall)

/-- An image that a restore may read (R386, R393): one that a save of the cluster has written. DEDUCED, log entry 68. -/
def State.imageOk (s : State) (k a : Nat) : Bool := !s.readBad (.hbm a) 4096 && (s.cluster k).saves.contains (Memory.bytes s.hbm a 4096)

/-- A write of RETSAVE with GO 1: accepted, or refused with ERR (R386). -/
def State.retsaveGo (s : State) (k : Nat) (value : Word) (dir : Bool) : State :=
  let c := s.cluster k
  let a := value.toNat % 2 ^ 39
  if 24 ≤ k then s
  else if !s.qack k || a % 4096 != 0 || c.busy || (dir && (c.rail != 0 || !s.imageOk k a)) then s.setCluster k { c with err := true }
  else s.setCluster k { c with dir := dir, addr := a, work := a, done := false, err := false, busy := true, saving := !dir }

/-- RETSAVE_SAVE (R386). -/
def execRetsaveSave (cluster : Nat) (value : Word) (s : State) : Result := .next (s.retsaveGo cluster value false)

/-- RETSAVE_RESTORE (R386). -/
def execRetsaveRestore (cluster : Nat) (value : Word) (s : State) : Result := .next (s.retsaveGo cluster value true)

/-- RETSAVE_DONE: an accepted save or restore finishes: a save's image stands in memory, or the state is as the image has it (R386). It waits for a channel that
is being copied (R400). -/
def execRetsaveDone (cluster : Nat) (s : State) : Result :=
  let c := s.cluster cluster
  .next (if c.busy && !s.copied (.hbm c.work) 4096 then
    if c.saving then
      let d := s.retentionImage cluster
      (s.storeHbm c.work d).setCluster cluster { c with busy := false, done := true, saves := d :: c.saves }
    else s.setCluster cluster { c with busy := false, done := true, ret := some (Memory.bytes s.hbm c.work 4096) }
  else s)

/-- CLKGATE_SET: GATE := 1 (R387). -/
def execClkgateSet (cluster : Nat) (s : State) : Result :=
  let c := s.cluster cluster
  .next (if s.qack cluster && c.saving && c.done then s.setCluster cluster { c with gate := true } else s)

/-- CLKGATE_CLEAR: GATE := 0 (R387). -/
def execClkgateClear (cluster : Nat) (s : State) : Result :=
  let c := s.cluster cluster
  .next (if c.rail = 0 then s.setCluster cluster { c with gate := false } else s)

/-- CLOCK_GATE_COMPLETE: STAT follows GATE; sources whose clock restarts receive a GAP record (R351, R387). -/
def execClockGateComplete (cluster : Nat) (s : State) : Result :=
  let c := s.cluster cluster
  .next (if c.stat = c.gate then s
    else if c.gate then s.setCluster cluster { c with stat := true, gatedAt := s.wall }
    else
      let s := s.setCluster cluster { c with stat := false }
      (clusterCores cluster).foldl (fun s n => match (s.core n).part with
        | some p => s.traceCores p [n] 7 0 (BitVec.ofNat 64 (s.wall - c.gatedAt))
        | none => s) s)

/-- RAILGATE_OFF: OFF := 1 takes effect whenever the clocks are stopped, also while the cluster is going on; one that is off or going off stays so
(R387). -/
def execRailgateOff (cluster : Nat) (s : State) : Result :=
  let c := s.cluster cluster
  .next (if c.stat then s.setCluster cluster { c with off := true, rail := if c.rail = 2 then 2 else 1 } else s)

/-- RAILGATE_ON: OFF := 0 (R387). -/
def execRailgateOn (cluster : Nat) (s : State) : Result :=
  let c := s.cluster cluster
  .next (if c.rail = 2 then (s.setCluster cluster { c with off := false, rail := 3 }).retargets else s)

/-- RAIL_SWITCH_COMPLETE: off, with every SRAM content of the cluster lost, or on, with its cores in their reset state (R387). -/
def execRailSwitchComplete (cluster : Nat) (s : State) : Result :=
  let c := s.cluster cluster
  let blank (s : State) : State :=
    (clusterCores cluster).foldl (fun s n => s.modCore n fun k => { part := k.part, failed := k.failed, spared := k.spared }) s
  .next (if c.rail = 1 then (blank (s.setCluster cluster { c with rail := 2, ret := none, losses := c.losses + 1 })).retargets
    else if c.rail = 3 then blank (s.setCluster cluster { c with rail := 0 })
    else s)

/-- WAKE_SET (R388): by a management core, or a client of a partition that owns a core in the cluster. -/
def execWakeSet (cluster : Nat) (client : ClientId) (s : State) : Result :=
  let may := match client with
    | .mgmt _ => true
    | .client p => (s.part p).cores.any fun c => coreCluster c == cluster
  .next (if may && decide (cluster < 24) then s.setCluster cluster { s.cluster cluster with wake := true } else s)

/-- WAKEACK_ACK (R388). DEDUCED, log entry 85. -/
def execWakeackAck (cluster : Nat) (s : State) : Result :=
  let c := s.cluster cluster
  .next (if cluster < 24 then s.setCluster cluster { c with wake := false, count := (c.count + 1) % 65536 } else s)

/-! ### The window of the power controller (R373, R384, R390) -/

/-- A cluster register as it reads; write-only fields read 0. -/
def State.clusterRead (s : State) (k off : Nat) : Word :=
  let c := s.cluster k
  let bit (b : Bool) (n : Nat) : Nat := if b then 2 ^ n else 0
  BitVec.ofNat 64 (match off with
    | 0x00 => bit c.evict 1 + bit c.req 0
    | 0x08 => bit (s.banksIn k) 16 + s.placedIn k * 256 + bit (s.qack k) 0
    | 0x10 => bit c.dir 62 + bit c.done 61 + bit c.err 60 + c.addr
    | 0x18 => bit c.stat 1 + bit c.gate 0
    | 0x20 => bit c.off 0
    | 0x28 => clusterRail k * 4 + c.rail
    | 0x30 => bit c.wake 63
    | 0x38 => c.count * 2 ^ 32
    | _ => 0)

/-- The state of a step's result, or the state before a stop. -/
def stateOf (s : State) (r : Result) : State := match r with | .next t => t | _ => s

/-- A write of a cluster register (R384 to R388). -/
def State.clusterWrite (s : State) (k off : Nat) (v : Word) (who : ClientId) : State :=
  match off with
  | 0x00 => stateOf s (execQreqReq k v s)
  | 0x10 =>
    if v.getLsbD 63 then stateOf s (if v.getLsbD 62 then execRetsaveRestore k v s else execRetsaveSave k v s)
    else s.setCluster k { s.cluster k with dir := v.getLsbD 62, addr := v.toNat % 2 ^ 39 / 4096 * 4096 }
  | 0x18 => stateOf s (if v.getLsbD 0 then execClkgateSet k s else execClkgateClear k s)
  | 0x20 => stateOf s (if v.getLsbD 0 then execRailgateOff k s else execRailgateOn k s)
  | 0x30 => if v.getLsbD 0 then stateOf s (execWakeSet k who s) else s
  | 0x38 => if v.getLsbD 0 then stateOf s (execWakeackAck k s) else s
  | _ => s

/-- A register of the power window as it reads (R373, R384). -/
def State.powerRead (s : State) (off : Nat) : Word :=
  let p := s.power
  let bit (b : Bool) (n : Nat) : Nat := if b then 2 ^ n else 0
  if 0x20000 ≤ off ∧ off < 0x20000 + 0x40 * 24 then s.clusterRead ((off - 0x20000) / 0x40) (off % 0x40)
  else if off < 0x21000 ∨ 0x210D8 ≤ off then 0#64
  else
    let o := off - 0x21000
    if o = 0x00 then BitVec.ofNat 64 p.refset
    else if o = 0x08 then BitVec.ofNat 64 (bit p.pend.isSome 63 + p.refcur)
    else if o = 0x10 then BitVec.ofNat 64 p.plimit
    else if o = 0x18 then BitVec.ofNat 64 (bit p.update 3 + bit p.therm 2 + bit p.stretch 1 + bit p.auto 0)
    else if o = 0x28 then 0x0100#64
    else if 0x40 ≤ o ∧ o < 0x80 then BitVec.ofNat 64 (fuseMv ((o - 0x40) / 8) * 2 ^ 16 + fuseMhz ((o - 0x40) / 8))
    else if 0x80 ≤ o ∧ o < 0xC0 then BitVec.ofNat 64 (p.target ((o - 0x80) / 8) * 2 ^ 16 + s.railMv ((o - 0x80) / 8))
    else sget 0#64 o p.regs

/-- Whether a write of RETSAVE waits: a restore whose image is to be read from a channel that is being copied (R386, R400). -/
def State.powerHeld (s : State) (off : Nat) (v : Word) : Bool :=
  decide (0x20000 ≤ off) && decide (off < 0x20000 + 0x40 * 24) && off % 0x40 == 0x10 && v.getLsbD 63 && v.getLsbD 62 && s.copied (.hbm (v.toNat % 2 ^ 39)) 4096

/-- A write of a register of the power window (R373, R384): reserved offsets and read-only registers ignore it (R7). -/
def State.powerWrite (s : State) (off : Nat) (v : Word) (who : ClientId) : State :=
  if 0x20000 ≤ off ∧ off < 0x20000 + 0x40 * 24 then s.clusterWrite ((off - 0x20000) / 0x40) (off % 0x40) v who
  else match off with
    | 0x21000 => stateOf s (execRefsetWrite v s)
    | 0x21010 =>
      let w := v.toNat % 2 ^ 11
      if s.power.auto ∨ w < 900 ∨ 1800 < w then s else { s with power := { s.power with plimit := w } }
    | 0x21018 => stateOf s (execPwstatUpdateWrite v s)
    | 0x21020 => stateOf s (execPchbWrite v s)
    | _ => s

end Sys2Proof.Machine
end

