-- ==== Sys2Proof/Machine/Boundary.lean ====
section
/-! DEFINITION. The boundary of the device: boot and the Balore root (R394 to R398), the registers of every window (R92, R258, R341, R367,
R390), peers (R254, R399), degraded operation (R400, R401), Ethernet (R402) and partitions (R91). -/

namespace Sys2Proof.Machine

/-! ### The Balore root (R394, R395) -/

/-- Whether the root accepts an image (R394, R395). -/
def State.stageOk (s : State) (g : StageImage) : Bool :=
  let kind := if g.stage < 4 then g.stage else g.updates
  ecdsaOk g.key g.sig (sha384 g.image) && sha384 g.key == Config.keyDigest && decide (Config.minVersion kind ≤ g.version) &&
  decide (s.balore.log.length < 256) && decide (1 ≤ kind) && decide (kind ≤ (if g.stage < 4 then 3 else 2))

/-- A management core starts at an entry with every register zero (R394, R398). DEDUCED, log entry 74. -/
def State.startMgmt (s : State) (n : Nat) (g : StageImage) : State :=
  s.setMcore n { a := { k := { pc := BitVec.ofNat 64 (3 * 2 ^ 60 + g.entry) } }, halted := false }

/-- A stage is measured and started, or refused and recorded in HEALTH (R394, R395, R397). DEDUCED, log entry 69. -/
def State.loadStage (s : State) (g : StageImage) : State :=
  if s.stageOk g then
    let d := sha384 g.image
    let b := { s.balore with m := sha384 (s.balore.m ++ d), log := s.balore.log ++ [(g.stage, d)], running := s.balore.running ++ [g.stage] }
    let one := g.stage == 1 || (decide (4 ≤ g.stage) && g.updates == 1)
    let s := { s with balore := if one then { b with stage1 := some g } else b }
    let s := if one then s.storeHbm g.base g.image else s
    if g.stage = 1 then s.startMgmt 0 g else s
  else { s with balore := { s.balore with health := s.balore.health ||| 0x0001000000000000#64 } }

/-- PACKAGE_RESET: every register to its reset value, then the ROM loads stage 1 (R394). Memory outside the package's registers stays, and with it what an
image saved in it is checked against (R386). DEDUCED, log entry 69. -/
def execPackageReset (image : StageImage) (s : State) : Result :=
  let s := ({ s with copying := [], delayed := [] } : State).storeDelayed s.delayed
  let t : State := { State.reset with
    hbm := s.hbm, peer := s.peer, bad := s.bad.filter fun b => b.1 == 0, free := s.free, turns := s.turns
    clusters := (List.range 24).foldl (fun st k => sset {} k { saves := (s.cluster k).saves } st) [] }
  .next (if image.stage = 1 then t.loadStage image else { t with balore := { t.balore with health := 0x0001000000000000#64 } })

/-- Whether a stage comes in the order of R394's table: stages 2 and 3 once, each after the one before it, and then updates, by rising number.
DEDUCED, log entry 111. -/
def State.stageDue (s : State) (g : StageImage) : Bool :=
  let on := s.balore.running
  s.balore.stage1.isSome &&
  (match g.stage with
    | 0 => false
    | 1 => false
    | 2 => !on.contains 2
    | 3 => on.contains 2 && !on.contains 3
    | k => on.contains 3 && on.all fun j => decide (j < k))

/-- STAGE_LOAD: a later stage, asked for by the management firmware (R394). DEDUCED, log entry 111. -/
def execStageLoad (image : StageImage) (s : State) : Result :=
  .next (if !s.stageDue image then s
    else
      let t := s.loadStage image
      { t with reply := .status (if s.stageOk image then 0#64 else 1#64) })

/-! ### Attestation (R396) -/

/-- HEALTH with its counters (R397). -/
def State.healthWord (s : State) : Word := s.balore.health

/-- The quote over a nonce (R396). -/
def State.quote (s : State) (nonce : Bytes) : Bytes :=
  let b := s.balore
  let body := leBytes 4 0x544F5551 ++ leBytes 2 1 ++ leBytes 2 b.log.length ++ nonce ++ b.m ++ wordBytes archHash ++ wordBytes s.healthWord ++
    leBytes 8 s.wall ++ b.log.flatMap fun e => leBytes 4 e.1 ++ e.2
  let d := sha384 body
  body ++ ecdsaSign Config.deviceKey (Config.signNonce d) d ++ leBytes 2 Config.certificate.length ++ Config.certificate

/-- The places of n bytes at a space-0 address of a partition with a permission, none when a page refuses (R255, R402). DEDUCED, log entry 70. -/
def State.places (s : State) (pn : Nat) (va n : Nat) (write : Bool) : Option (List (Place × Nat)) :=
  (cutRange (BitVec.ofNat 64 va) n (n / 8192 + 2)).foldl (fun acc p =>
    match acc, s.mapVa pn none (vaOf p.1) write true with
    | some l, .ok h => some (l ++ [(h.place, p.2)])
    | _, _ => none) (some [])

/-- Write bytes at places in order, on behalf of no core. -/
def State.writePlaces (s : State) : List (Place × Nat) → Bytes → State
  | [], _ => s
  | (p, k) :: t, d => State.writePlaces ((s.writePlace outsider p (d.take k)).writeGood p k) t (d.drop k)

/-- The quote over a partition's nonce. -/
def State.nonceQuote (s : State) (part : Nat) : Bytes := s.quote ((List.range 6).flatMap fun i => wordBytes ((s.part part).reg (0x840 + 8 * i)))

/-- Whether an ATTGO write has no effect: no pointer that R396 allows, or an earlier one that has not been answered. -/
def State.attgoIgnored (s : State) (part : Nat) (value : Word) : Bool :=
  decide (value.toNat / 2 ^ 48 ≠ 0) || decide (value.toNat % 64 ≠ 0) || ((s.part part).reg 0x870 != 0#64 && !((s.part part).reg 0x878).getLsbD 0)

/-- Whether an ATTGO write waits for a channel that is being copied (R400). -/
def State.attgoHeld (s : State) (part : Nat) (value : Word) : Bool :=
  !s.attgoIgnored part value && s.vaCopied part value.toNat (s.nonceQuote part).length

/-- ATTGO_WRITE: the quote at the pointer, then ATTSTAT bit 0; once a quote has been asked for and while that bit is clear, a second write is ignored
(R396). Offset 0x870 keeps that one has been asked for; it reads 0. DEDUCED, log entry 70. -/
def execAttgoWrite (part : Nat) (value : Word) (s : State) : Result :=
  .next (if s.attgoIgnored part value || s.attgoHeld part value then s
    else
      let q := s.nonceQuote part
      match s.places part value.toNat q.length true with
      | some l => (s.writePlaces l q).modPart part fun p => (p.setReg 0x870 1#64).setReg 0x878 1#64
      | none => s.modPart part fun p => (p.setReg 0x870 1#64).setReg 0x878 0#64)

/-! ### Management cores (R398) -/

/-- MCCTL_RESTART: a write of MCCTL by a running management core: bits 3:0 restart management cores at the latest accepted stage-1 entry; a write that names
the writing core is ignored, and nothing else writes MCCTL. DEDUCED, log entry 74. -/
def execMcctlRestart (writer : Nat) (value : Word) (s : State) : Result :=
  .next (if 4 ≤ writer || (s.mcore writer).halted || value.getLsbD writer then s else (List.range 4).foldl (fun s n =>
    if value.getLsbD n then
      match s.balore.stage1 with
      | some g =>
        let m := s.balore.mcstat.toNat
        let sh := 256 ^ n
        let s := { s with balore := { s.balore with
          health := s.balore.health &&& ~~~(1#64 <<< (52 + n))
          mcstat := BitVec.ofNat 64 (m - m / sh % 256 * sh) } }
        s.startMgmt n g
      | none => s
    else s) s)

/-! ### The partition window (R92, R93, R258, R341, R342, R355, R367, R377, R383, R396, R403) -/

/-- Bits of a TRSRC register that the partition owns (R341). -/
def Part.owned (p : Part) (k : Nat) : Word :=
  BitVec.ofNat 64 (p.cores.foldl (fun acc c => if c / 64 = k then acc ||| 2 ^ (c % 64) else acc) 0)

/-- What a partition's meter counts at present (R382). -/
def State.meter (s : State) (pn : Nat) : Meter :=
  let m : Meter := sget {} pn s.meters
  { m with since := s.wall, coreNs := m.coreNs + (s.part pn).cores.length * (s.wall - m.since) }

/-- ESAVED: the energy credited, in µJ (R383). -/
def State.esaved (s : State) (pn : Nat) : Word := BitVec.ofNat 64 ((s.meter pn).credited / 2 ^ 20)

/-- The energy of k nanoseconds of a partition's cores (R382). -/
def coreCharge (pn : Nat) : Nat → Nat
  | 0 => 0
  | k + 1 => coreCharge pn k + Config.coreEnergy pn k

/-- ENERGY: the energy charged less the energy credited, in µJ (R382, R383). -/
def State.energyNet (s : State) (pn : Nat) : Word :=
  let m := s.meter pn
  BitVec.ofNat 64 ((coreCharge pn m.coreNs + m.charged - m.credited) / 2 ^ 20)

/-- A register of a partition's window as it reads; QPOP pops (R258). -/
def State.windowRead (s : State) (pn off : Nat) : Word × State :=
  let p := s.part pn
  if off = 0x428 then
    match execQpopRead pn s with
    | .next t => ((match t.reply with | .status w => w | _ => 0#64), { t with reply := s.reply })
    | _ => (0#64, s)
  else (if off = 0x430 then BitVec.ofNat 64 s.qseq
    else if off = 0x808 then s.energyNet pn
    else if off = 0x810 then s.esaved pn
    else if 0xA00 ≤ off ∧ off < 0xB00 then BitVec.ofNat 64 (leNat ((archDescriptor.drop (off - 0xA00)).take 8))
    else if off = 0xB00 then archHash
    else if 0x648 ≤ off ∧ off ≤ 0x658 then p.reg off &&& p.owned ((off - 0x648) / 8)
    else if off = 0x420 ∨ off = 0x870 ∨ 0x1000 ≤ off then 0#64
    else p.reg off, s)

/-- Registers that an Ethernet client may write (R93, R367, R396, R403). -/
def clientMay (off : Nat) : Bool :=
  (decide (off < 0x400) && off % 0x40 == 0x18) || off == 0x718 || (decide (0x840 ≤ off) && decide (off ≤ 0x870)) || off == 0x908

/-- A write of an 8-byte register of a partition's window by the firmware: fields that are not writable keep their value (R7). -/
def State.windowWrite (s : State) (pn off : Nat) (v : Word) : State :=
  let p := s.part pn
  let put (w : Word) : State := s.setPart pn (p.setReg off w)
  if off % 8 ≠ 0 then s
  else if off < 0x400 then
    let q := off / 0x40
    match off % 0x40 with
    | 0x00 => put v
    | 0x08 => put v
    | 0x10 =>
      let old := p.reg off
      let size := if v.toNat / 2 ^ 12 % 16 ≤ 8 then v &&& 0xF000#64 else old &&& 0xF000#64
      let err := if v.getLsbD 30 then 0#64 else old &&& 0x40000000#64
      put ((v &&& 0xB8000000#64) ||| size ||| err)
    | 0x18 => stateOf s (execLqtailWrite pn q v s)
    | _ => s
  else if 0x500 ≤ off ∧ off < 0x580 then put (if off % 16 = 0 then v else v &&& 0xF00000FFFFFFFFFF#64)
  else if 0x580 ≤ off ∧ off < 0x600 then (if off % 16 = 0 then put v else s.writeWpctl pn ((off - 0x588) / 16) v)
  else match off with
    | 0x400 => put (v &&& 0x7FFFFFF000#64)
    | 0x408 => if s.groups.any fun g => g.part == pn && g.images.isEmpty then s else put (v &&& 1#64)
    | 0x410 => put v
    | 0x418 => put (v &&& 0xFFFF#64)
    | 0x420 => stateOf s (execQpushWrite pn v s)
    | 0x600 => put (v &&& ~~~0xFFF#64)
    | 0x610 => put (v &&& 0xFFFFFFFF#64)
    | 0x620 => put (v &&& ~~~0xFFFF#64)
    | 0x628 => put ((v &&& 0x8000000000000000#64) ||| (if v.toNat % 32 ≤ 16 then v &&& 0x1F#64 else p.reg off &&& 0x1F#64))
    | 0x638 => put (v &&& 0xFFFFFFFF#64)
    | 0x648 => put (v &&& p.owned 0)
    | 0x650 => put (v &&& p.owned 1)
    | 0x658 => put (v &&& p.owned 2)
    | 0x660 => put (v &&& ~~~0xFFFF#64)
    | 0x668 => put (v &&& 0xC00000000000003F#64)
    | 0x670 => put ((p.reg off &&& 0xFFFFFFFF#64) ||| (v &&& 0xFFFFFFFF00000000#64))
    | 0x700 => put v
    | 0x708 => if v.toNat % 16 ≤ 8 then put (v &&& 0xF#64) else s
    | 0x718 => stateOf s (execCrtailWrite pn v s)
    | 0x800 => stateOf s (execVvoteWrite pn v s)
    | 0x870 => stateOf s (execAttgoWrite pn v s)
    | 0x900 => put v
    | 0x908 => stateOf s (execCstailWrite pn v s)
    | _ => if 0x840 ≤ off ∧ off < 0x870 then put v else s

/-! ### The Balore window (R261, R390, R397, R398) -/

/-- A register of the Balore window as it reads. -/
def State.baloreRead (s : State) (off : Nat) : Word :=
  if off = 0 then s.healthWord
  else if off = 8 then s.balore.mcstat
  else if off = 0x18 then archHash
  else if 0x100 ≤ off ∧ off < 0x200 then BitVec.ofNat 64 (leNat ((archDescriptor.drop (off - 0x100)).take 8))
  else if off = 0x10000 then s.balore.pcbase
  else 0#64

/-- A write of a register of the Balore window. -/
def State.baloreWrite (s : State) (off : Nat) (v : Word) (writer : Nat) : State :=
  match off with
  | 0x10 => stateOf s (execMcctlRestart writer v s)
  | 0x10000 => { s with balore := { s.balore with pcbase := v &&& 0x7FF8000001#64 } }
  | _ => s

/-! ### Register accesses of management cores (R119, R390) -/

/-- An atlas entry (R119): scratchpad banks 0 to 31, accumulator banks from 32 on. DEDUCED, log entry 21. -/
def Core.atlas (c : Core) (k : Nat) : Nat :=
  let bit (b : Bool) (n : Nat) : Nat := if b then 2 ^ n else 0
  if k < 32 then
    let b := sget {} k c.banks
    b.st * 2 ^ 30 + bit b.live 29 + bit b.pin 28 + b.owner
  else if k < 96 then
    let a := c.bank (k - 32)
    (if a.st = 0 then 1 else a.st) * 2 ^ 30 + bit a.held 29 + bit a.held 28 + (if a.held then c.owner else 0)
  else 0

/-- An 8-byte register of the power controller window, the atlas included. -/
def State.pcRead (s : State) (off : Nat) : Word :=
  if off < 0x18000 then
    let c := s.core (off / 0x200)
    let k := off % 0x200 / 4
    BitVec.ofNat 64 (c.atlas k + c.atlas (k + 1) * 2 ^ 32)
  else s.powerRead off

/-- REGISTER_WRITE (R7): writes of the firmware to a register of a window. MCCTL is none of them: a write of it has its writer (`execMcctlRestart`). -/
def execRegisterWrite (target : RegTarget) (value : Word) (s : State) : Result :=
  .next (match target with
    | .part p off => s.windowWrite p off value
    | .power off => if s.powerHeld off value then s else s.powerWrite off value (.mgmt 0)
    | .balore off => if off = 0x10 then s else s.baloreWrite off value 4)

/-! ### Peers (R254, R399) -/

/-- The syllable whose new value a peer's atomic takes (R291). -/
def atomicOf (op : Nat) : Instr :=
  match op with
  | 0x11 => .aadd 15#4 0#5 0#5 0#5 0#2 0#2 0#3
  | 0x12 => .amin 15#4 0#5 0#5 0#5 0#2 0#2 0#3
  | 0x13 => .amax 15#4 0#5 0#5 0#5 0#2 0#2 0#3
  | 0x14 => .aand 15#4 0#5 0#5 0#5 0#2 0#2 0#3
  | 0x15 => .aor 15#4 0#5 0#5 0#5 0#2 0#2 0#3
  | 0x16 => .axor 15#4 0#5 0#5 0#5 0#2 0#2 0#3
  | 0x17 => .axchg 15#4 0#5 0#5 0#5 0#2 0#2 0#3
  | _ => .acas 15#4 0#5 0#5 0#5 0#5 0#2 0#2 0#3

/-- The pieces of n bytes that do not cross a 64 KiB page: offset and length. -/
def pagePieces (a n : Nat) : List (Nat × Nat) :=
  (List.range (n / 65536 + 2)).filterMap fun i =>
    let lo := max a ((a / 65536 + i) * 65536)
    let hi := min (a + n) ((a / 65536 + i + 1) * 65536)
    if lo < hi then some (lo, hi - lo) else none

/-- An arriving access counts and is watched page by page (R261, R345). DEDUCED, log entry 86. -/
def State.arrivedAll (s : State) (pn node base a n : Nat) (kinds : List WatchKind) : State :=
  (pagePieces a n).foldl (fun s e => s.arrived pn node (e.1 - base) kinds (.hbm e.1) e.2) s

/-- PEER_ACCESS_ARRIVAL: the access is performed in the partition's shared window (R254); an AWAIT that does not find what it waits for waits on (R295,
R399). DEDUCED, log entry 86. -/
def execPeerAccessArrival (access : PeerAccess) (s : State) : Result :=
  let p := s.part access.part
  let base := p.windowBase
  let a := base + access.off
  let n := match access.op with | .read k => k | .write d => d.length | .atomic _ sz _ _ => 2 ^ sz | .await sz _ _ => 2 ^ sz
  .next (if s.copied (.hbm a) n || s.attestOnly then s
    else if p.windowSize < access.off + n then { s with reply := .nakAccess }
    else match access.op with
      | .read k =>
        let s := s.arrivedAll access.part access.node base a k [.read]
        if s.readBad (.hbm a) k then { s with reply := .uncorrected } else { s.readsOutside (.hbm a) k with reply := .data (s.readPlace (.hbm a) k) }
      | .write d =>
        let s := s.arrivedAll access.part access.node base a d.length [.write]
        { (s.writeOutside (.hbm a) d).writeGood (.hbm a) d.length with reply := .ack }
      | .atomic op _ v new =>
        let s := s.arrivedAll access.part access.node base a n [.atomic]
        if s.readBad (.hbm a) n then { s with reply := .uncorrected }
        else
          let old := BitVec.ofNat 64 (leNat (s.readPlace (.hbm a) n))
          let on := s.relsSeen outsider (.hbm a) n
          let s := s.readsOutside (.hbm a) n
          let s := match atomicNew (atomicOf op) (8 * n) old v new with
            | some w => (s.writeOutside (.hbm a) (leBytes n w.toNat) on).writeGood (.hbm a) n
            | none => s
          { s with reply := .data (leBytes n old.toNat) }
      | .await sz cond v =>
        if s.readBad (.hbm a) n then { s.arrivedAll access.part access.node base a n [.atomic] with reply := .uncorrected }
        else
          let w := loadValue sz (2 ≤ cond && cond ≤ 5) (s.readPlace (.hbm a) n)
          if awaitHolds cond sz w v then { (s.arrivedAll access.part access.node base a n [.atomic]).readsOutside (.hbm a) n with reply := .data (leBytes n w.toNat) } else s)

/-- Every unperformed access of a core to a lost node, and the command that reaches it next, raises MEMORY-UNCORRECTED (R399); a prefetch raises nothing
(R264). DEDUCED, log entry 72. -/
def State.loseRoute (s : State) (n node : Nat) : State :=
  let c := s.core n
  let aims (w : Word) : Bool := spaceOf w == 2 && peerNode w == node
  let s := c.aops.foldl (fun s o => match accOf o.instr, c.part with
    | some a, some pn => if (o.phase == .ready || o.phase == .walking) && aims o.addr then s.loseAccess n pn o a else s
    | _, _ => s) s
  match c.cmds, c.part with
  | m :: _, some pn =>
    match (headOf 1 (restOf m.progress m.reads) ++ headOf 1 (restOf m.progress m.writes)).find? fun x => aims x.1 with
    | some x =>
      let s := match restOf m.progress m.writes with
        | (_, w, wn) :: _ => if s.accessRuns n && s.cmdHeld n pn m (chunkReads m (chunkLen w.offset 512 wn)) then s else s.maybeChunk n pn m (s.landsAt pn w) (chunkLen w.offset 512 wn)
        | [] => s
      s.failC n m 0x20 x.1
    | none => s
  | _, _ => s

/-- ROUTE_LOSS_TIMEOUT: no route to a node for 1 ms (R399). -/
def execRouteLossTimeout (node : Nat) (s : State) : Result :=
  let s := { s with lostNodes := if s.lostNodes.contains node then s.lostNodes else node :: s.lostNodes }
  .next ((List.range 192).foldl (fun s n => if (s.core n).owner = 0 then s else s.loseRoute n node) s)

/-! ### Degraded operation (R397, R400, R401) -/

/-- An error corrected on a read counts in HEALTH and shows nowhere else (R89, R397). DEDUCED, log entry 94. -/
def State.countCorrected (s : State) : State :=
  let h := s.balore.health.toNat
  { s with balore := { s.balore with health := if h % 2 ^ 24 = 2 ^ 24 - 1 then s.balore.health else BitVec.ofNat 64 (h + 1) } }

/-- CHANNEL_RETIRE: the copy into a spare begins, or with no spare left the channel's lines raise MEMORY-UNCORRECTED (R400). -/
def execChannelRetire (channel : Nat) (s : State) : Result :=
  let used := (s.remapped ++ s.copying).filter fun c => Config.stackOf c == Config.stackOf channel
  .next (if s.copying.contains channel then s
    else if used.length < 2 then { s.countHealth 40 8 255 with copying := s.copying ++ [channel] }
    else
      let h := s.balore.health ||| 0x8000000000000000#64
      { s with dead := if s.dead.contains channel then s.dead else channel :: s.dead, balore := { s.balore with health := h } })

/-- CHANNEL_COPY_COMPLETE (R400): what waited to be written is written, but for what another copy still holds. -/
def execChannelCopyComplete (channel : Nat) (s : State) : Result :=
  .next (if s.copying.contains channel then
    ({ s with copying := s.copying.filter (· != channel), remapped := s.remapped ++ [channel], delayed := [] } : State).storeDelayed s.delayed
  else s)

/-- CORE_RETIRE (R401): a group on the core is pre-empted first, and the core is retired at the pass that follows its save; nothing is placed on it
meanwhile. DEDUCED, log entry 109. -/
def execCoreRetire (core : Nat) (s : State) : Result :=
  .next (if 192 ≤ core then s
    else if (s.core core).owner = 0 then s.retireCore core
    else
      let s := s.modCore core fun c => { c with retiring := true }
      match s.grpAt core with | some g => s.preempt g.num | none => s)

/-! ### Ethernet (R402) -/

/-- Write consecutive registers of a window, those that a client may not write being ignored (R93). DEDUCED, log entry 71. -/
def State.clientWrites (s : State) (pn off : Nat) : Nat → Bytes → State
  | 0, _ => s
  | n + 1, d =>
    let v := BitVec.ofNat 64 (leNat (d.take 8))
    State.clientWrites (if clientMay off then s.windowWrite pn off v else s) pn (off + 8) n (d.drop 8)

/-- Read consecutive registers of a window. DEDUCED, log entry 71. -/
def State.clientReads (s : State) (pn off : Nat) : Nat → Bytes × State
  | 0 => ([], s)
  | n + 1 =>
    let (v, s) := s.windowRead pn off
    let (d, s) := State.clientReads s pn (off + 8) n
    (wordBytes v ++ d, s)

/-- Whether a window access covers whole 8-byte registers of the window. DEDUCED, log entry 71. -/
def windowSpan (addr n : Nat) : Bool := addr % 8 == 0 && n % 8 == 0 && decide (addr + n ≤ 0x1000)

/-- Whether a client's write waits, since it writes an ATTGO that waits (R396, R400). -/
def State.clientHeld (s : State) (part addr : Nat) (data : Bytes) : Bool :=
  windowSpan addr data.length && decide (addr ≤ 0x870) && decide (0x878 ≤ addr + data.length) &&
  s.attgoHeld part (BitVec.ofNat 64 (leNat ((data.drop (0x870 - addr)).take 8)))

/-- Whether a request goes unanswered, because it lies outside the attestation registers of a part that answers nothing else (R394, R396). DEDUCED, log entry 71. -/
def State.unanswered (s : State) (window : Bool) (addr n : Nat) : Bool := s.attestOnly && !(window && decide (0x840 ≤ addr) && decide (addr + n ≤ 0x880))

/-- RDMA_WRITE (R394, R402). -/
def execRdmaWrite (part : Nat) (window : Bool) (addr : Word) (data : Bytes) (s : State) : Result :=
  .next (if s.unanswered window addr.toNat data.length then { s with reply := .none }
  else if window then
    if s.clientHeld part addr.toNat data then s
    else if windowSpan addr.toNat data.length then { s.clientWrites part addr.toNat (data.length / 8) data with reply := .ack }
    else { s with reply := .nakAccess }
  else if addr.toNat / 2 ^ 48 ≠ 0 ∨ 2 ^ 48 < addr.toNat + data.length then { s with reply := .nakAccess }
  else if s.vaCopied part addr.toNat data.length then s
  else match s.places part addr.toNat data.length true with
    | some l => if l.any fun p => s.copied p.1 p.2 then s else { s.writePlaces l data with reply := .ack }
    | none => { s with reply := .nakAccess })

/-- RDMA_READ (R90, R394, R402). -/
def execRdmaRead (part : Nat) (window : Bool) (addr : Word) (len : Nat) (s : State) : Result :=
  .next (if s.unanswered window addr.toNat len then { s with reply := .none }
  else if window then
    if windowSpan addr.toNat len then
      let (d, t) := s.clientReads part addr.toNat (len / 8)
      { t with reply := .data d }
    else { s with reply := .nakAccess }
  else if addr.toNat / 2 ^ 48 ≠ 0 ∨ 2 ^ 48 < addr.toNat + len then { s with reply := .nakAccess }
  else if s.vaCopied part addr.toNat len then s
  else match s.places part addr.toNat len false with
    | some l =>
      if l.any fun p => s.copied p.1 p.2 then s
      else if l.any fun p => s.readBad p.1 p.2 then { s with reply := .uncorrected }
      else { s with reply := .data (l.flatMap fun p => s.readPlace p.1 p.2) }
    | none => { s with reply := .nakAccess })

/-- RDMA_INVALID_OPERATION (R402); a part without firmware does not answer it (R394). -/
def execRdmaInvalidOperation (_part : Nat) (s : State) : Result := .next { s with reply := if s.attestOnly then .none else .nakInvalid }

/-! ### Partitions (R91, R254) -/

/-- Whether a configuration keeps R91: at least 4 cores or none, none owned by another partition, and no placed group on a core that leaves. DEDUCED, log entry 75. -/
def State.configOk (s : State) (part : Nat) (config : PartConfig) : Bool :=
  decide (part < 48) && config.cores.all (fun c => decide (c < 192)) && decide config.cores.Nodup &&
  (config.cores.isEmpty || decide (4 ≤ config.cores.length)) &&
  (s.parts.all fun e => e.1 == part || config.cores.all fun c => !e.2.cores.contains c) &&
  ((s.part part).cores.all fun c => config.cores.contains c || (s.core c).owner == 0)

/-- PARTITION_CONFIGURATION (R91, R254, R376); a partition that had no core starts anew, so its first launch has arrival sequence 1 (R95). DEDUCED, log entry 75. -/
def execPartitionConfiguration (part : Nat) (config : PartConfig) (s : State) : Result :=
  .next (if !s.configOk part config then s
    else
      let gone := (s.part part).cores.filter fun c => !config.cores.contains c
      let s := gone.foldl (fun s c => s.modCore c fun k => { k with part := none, cache := [] }) s
      let s := config.cores.foldl (fun s c => s.modCore c fun k => { k with part := some part, cache := if k.part = some part then k.cache else [] }) s
      -- the meters count what the partition has owned until now, or anew from its creation (R382)
      let s := { s with meters := sset {} part (if (s.part part).cores.isEmpty then { since := s.wall } else s.meter part) s.meters }
      let s := s.modPart part fun p =>
        let p := if p.cores.isEmpty then { p with arrivals := 0, history := [], pending := [], reserved := [] } else p
        { p with cores := config.cores, peers := config.peers, windowBase := config.windowBase, windowSize := config.windowSize }
      s.retargets)

end Sys2Proof.Machine
end

