-- ==== Sys2Proof/Machine/Slips.lean ====
section
/-! DEFINITION. What ends the X-stream's waits (R110, R145 to R148, R151, R166, R329): a target fetched, window lines moved, the end of
a slip, and the meridian pulse that starts or restarts the chart clocks. -/

namespace Sys2Proof.Machine

/-! ### Fetch (R12, R37, R389) -/

/-- Where the code at an address stands: in a text section of the stream's kind; a management core runs on through HBM, since only its branches are
bounded to the accepted stage-1 image (R389). DESIGN CHOICE, log entry 31. -/
def State.codeAt (s : State) (w : Who) (n : Nat) (a : Word) : Option Place :=
  match w with
  | .mgmt =>
    if 3 * 2 ^ 60 ≤ a.toNat ∧ a.toNat + 8 ≤ 3 * 2 ^ 60 + 2 ^ 39 then some (.hbm (a.toNat - 3 * 2 ^ 60)) else none
  | w =>
    match (s.core n).part with
    | none => none
    | some p => ((s.part p).objs.find? fun o => o.holds (if w = .x then 1 else 2) a).map fun o => .hbm (o.pa + (a.toNat - o.base.toNat))

/-- How a fetch ends: with the syllable that has S = 1, without one, at a line in error, or outside the code. -/
inductive FetchEnd where
  | whole (past : Word)
  | long (a : Word)
  | bad (a : Word)
  | outside (a : Word)
deriving DecidableEq, Repr

/-- A word of text as a stream fetches it: what it has fetched before and not issued, else what stands in memory now; none where the line is
in error (R26). DEDUCED, log entry 30. -/
def State.textWord (s : State) (w : Who) (n : Nat) (a : Word) (p : Place) : Option Word :=
  let kept : List (Word × Word) := match w with | .x => (s.core n).x.k.fetched | .a => (s.core n).a.k.fetched | .mgmt => []
  match kept.find? fun e => e.1 == a with
  | some e => some e.2
  | none => if s.readBad p 8 then none else some (BitVec.ofNat 64 (leNat (s.readPlace p 8)))

/-- The syllables of a bundle, address and word, up to k of them (R37). DESIGN CHOICE, log entry 4. DEDUCED, log entry 30. DEDUCED, log entry 58. -/
def State.fetch (s : State) (w : Who) (n : Nat) (a : Word) : Nat → List (Word × Word) × FetchEnd
  | 0 => ([], .long a)
  | k + 1 =>
    match s.codeAt w n a with
    | none => ([], .outside a)
    | some p =>
      match s.textWord w n a p with
      | none => ([], .bad a)
      | some v =>
        if sBit v then ([(a, v)], .whole (a + 8#64))
        else
          let r := s.fetch w n (a + 8#64) k
          ((a, v) :: r.1, r.2)

/-- Keep fetched words (R26). -/
def Ctrl.hold (k : Ctrl) (ws : List (Word × Word)) : Ctrl :=
  { k with fetched := ws ++ k.fetched.filter fun e => !ws.any fun w => w.1 == e.1 }

/-- The words of a bundle that issues are no longer kept. -/
def Ctrl.unhold (k : Ctrl) (pc past : Word) : Ctrl :=
  { k with fetched := k.fetched.filter fun e => !(decide (pc.toNat ≤ e.1.toNat) && decide (e.1.toNat < past.toNat)) }

/-! ### Targets and window -/

/-- The X-stream's wait for a target ends when the fetch that is over brought that target. -/
def XStream.fetchedTarget (x : XStream) (b : BReg) : Option BReg :=
  match x.await with
  | none => none
  | some w =>
    let same (u : BReg) : Bool := u.val == w.val && u.ready == w.ready
    if same b || !x.k.b.any (fun e => same e.2) then none else some w

/-- What a fetch-ahead at a target brings: the words of its bundle; a target that no branch may take brings none (R164). -/
def State.targetWords (s : State) (w : Who) (n : Nat) (b : BReg) : List (Word × Word) :=
  if b.fetched || b.val.toNat % 8 ≠ 0 then [] else (s.fetch w n b.val (if w = .x then 4 else 2)).1

/-- The group of a core slips, for a fetch of this core or for anything. -/
def State.fetchSlip (s : State) (n : Nat) : Bool := match s.grpAt n with | some g => g.slip == some .fetch && g.slipCore == n | none => false
def State.slips (s : State) (n : Nat) : Bool := match s.grpAt n with | some g => g.slip.isSome | none => false

/-- A fetch-ahead of the X-stream, which takes place 4 control cycles after the PBR or in a slip (R166). It is over when its target is ready, 7 cycles after
the PBR, or at the end of the slip that waits for it. -/
def State.fetchX (s : State) (n bd : Nat) (c : Core) : Core :=
  let b := sget {} bd c.x.k.b
  let k := if decide (b.ready ≤ c.tick + 3 * c.divisor 0) || s.slips n then c.x.k.hold (s.targetWords .x n b) else c.x.k
  let x := { c.x with k := k }
  { c with x := if decide (b.ready ≤ c.tick) || (s.fetchSlip n && (x.fetchedTarget b).isNone) then
      { x with await := x.fetchedTarget b, k := { k with b := sset {} bd { b with fetched := true } k.b } } else x }

/-- A fetch-ahead of an A-stream, 4 cycles of the access core after the PBR (R166). -/
def State.fetchA (s : State) (n bd : Nat) (c : Core) : Core :=
  let b := sget {} bd c.a.k.b
  let k := c.a.k.hold (s.targetWords .a n b)
  if b.ready ≤ c.cycle + 3 * c.divisor 0 then { c with a := { c.a with k := { k with b := sset {} bd { b with fetched := true } k.b } } } else c

/-- TARGET_FETCH: the target of a b register is fetched and ready (R166). -/
def execTargetFetch (core : Nat) (stream : Strm) (bd : Nat) (s : State) : Result :=
  .next (s.modCore core (match stream with | .x => s.fetchX core bd | .a => s.fetchA core bd))

/-- The first line of bank 31 in error that moving k lines meets (R90, R151): a fill reads registers and links; a spill writes lines of registers
whole, and a link within a line. -/
def State.windowBad (s : State) (n k : Nat) (fill : Bool) : Option Nat :=
  let low := (s.core n).x.low
  ((List.range k).flatMap fun i =>
    let lo := if fill then low - 8 * (i + 1) else low + 8 * i
    (if fill then [(spillSlot lo, 64)] else []) ++ if lo % 16 = 0 then [(linkSlot lo, 8)] else []).findSome? fun a =>
      if s.readBad (.sp n a.1) a.2 then some (a.1 / 64 * 64) else none

/-- Whether a store to the spill area still stands before an A-class push whose entry the X-stream has popped (R152). -/
def Core.spillOwed (c : Core) (n : Nat) : Bool :=
  c.aops.any fun o => seqBefore o.iseq c.seen && o.phase != .done && (match accOf o.instr with | some a => a.wr | none => false) &&
    decide (spaceOf o.addr = 1) && decide (spCore o.addr = n) && decide (0x1F2000 ≤ spOff o.addr + 127) && decide (spOff o.addr < 0x200000)

/-- WINDOW_SPILL_FILL: the lines of a spill or fill have moved to or from bank 31, all at one instant (R151, R152). DEDUCED, log entry 80. -/
def execWindowSpillFill (core : Nat) (s : State) : Result :=
  let runs := match s.grpAt core with | some g => g.status == .running || g.status == .resuming | none => false
  .next (match (s.core core).x.window with
    | none => s
    | some (k, fill) =>
      if !runs || !(s.core core).windowRuns || (fill && (s.core core).spillOwed core) || (sget ({} : Bank) 31 (s.core core).banks).st == 3 then s
      else match s.windowBad core k fill with
        | some a => s.stop core { cause := 0x20, engine := 6, iseq := (s.core core).x.windowSeq, addr := spPointer core a }
        | none =>
          let low := (s.core core).x.low
          let s := s.modCore core fun c => ({ c.moveLines fill k with x := { (c.moveLines fill k).x with window := none } } : Core).touch s.power.ref 31 (!fill)
          if fill then s else s.writeGood (.sp core (spillSlot low)) (64 * k))

/-! ### The end of a slip (R145, R146) -/

/-- The operations a core holds for which a stop would write records (R313): while a handler runs, not the handler's own, which are in no survey (R323). -/
def Core.held (c : Core) : Nat :=
  c.ops.length + (if c.saved.isSome then c.heldA.length + c.heldC.length else c.aops.length + c.cmds.length) + (if c.x.align.isSome then 1 else 0) + (if c.x.window.isSome then 1 else 0)

/-- Whether the `.w` syllable with an ISEQ is no longer to wait: it is ready, or it is to fault (R147). -/
def State.startReady (s : State) (n q : Nat) : Bool :=
  match (s.core n).ops.find? fun o => o.iseq == q && o.engine == 3 && o.kind == .start with
  | none => true
  | some o =>
    match o.fw.orElse fun _ => (((s.core n).head 20 (s.core n).tick).map fun e => e.val.setWidth 64) with
    | none => true
    | some fw => s.mxCheck n o fw != .late

/-- Whether what a bundle or start waits for holds. DEDUCED, log entry 16. -/
def State.waitOver (s : State) (n : Nat) (why : Slip) : Bool :=
  let c := s.core n
  match why with
  | .pop q => (c.head q c.tick).isSome
  | .room q => !c.full q
  | .token ch => c.tokens ch != 0
  | .start q => s.startReady n q
  | .fetch => c.x.await.isNone
  | .ops => c.aops.isEmpty
  | .full k => decide (c.held + k ≤ 96) || (c.aops.isEmpty && c.heldA.isEmpty && c.cmds.isEmpty && c.heldC.isEmpty)
  | .window => c.x.window.isNone
  | .align => c.x.aligned
  | .reg => c.aops.isEmpty

/-- SLIP_END: the wait is over, and the clocks of the group restart at the tick at which they were held. DEDUCED, log entry 16. DEDUCED, log entry 78. -/
def execSlipEnd (ctx : Nat) (s : State) : Result :=
  .next (match s.grp? ctx with
    | some g =>
      match g.slip with
      | some why =>
        if g.status == .running && s.waitOver g.slipCore why then
          (s.slipEnds g).setGrp { g with slip := none }
        else s
      | none => s
    | none => s)

/-! ### The meridian pulse (R110, R329) -/

/-- A core has arrived at its group's alignment: its ALIGN waits and no earlier operation is in flight. -/
def Core.arrived (c : Core) : Bool := c.x.align.isSome && !c.x.aligned && c.ops.isEmpty

/-- A core whose chart clock starts at 0: what counted the old clock is moved onto the new one. DEDUCED, log entry 18. -/
def Core.pulse (c : Core) : Core :=
  let t := c.tick
  let k := c.x.k
  { c with
    tick := 0
    freed7 := []
    early := []
    x := { c.x with
      aligned := c.x.align.isSome, next := c.x.next - t, await := none
      k := { k with
        c := k.c.map fun e => (e.1, (e.2.take 1).map fun h => (0, h.2))
        b := k.b.foldl (fun st e => sset {} e.1 { e.2 with ready := e.2.ready - t } st) [] } }
    q := c.q.map fun e => (e.1, { e.2 with es := e.2.es.map fun n => { n with present := 0, old := true } })
    ops := c.ops.map fun o => { o with due := o.due - t }
    e := { c.e with builderEnd := c.e.builderEnd - t, arrayEnd := c.e.arrayEnd - t, drainEnd := c.e.drainEnd - t, ipfEnd := c.e.ipfEnd - t }
    sys := { c.sys with bwphLate := none, divpLate := none } }

/-- MERIDIAN_PULSE: every core of a group has arrived or exited, so every chart clock starts at 0; or phase 1 of a resume is over, and
the clocks restart at T_s. -/
def execMeridianPulse (ctx : Nat) (s : State) : Result :=
  .next (match s.grp? ctx with
    | some g =>
      if g.status == .resuming then (s.restart g).finishCores g.cores
      else
        let out (n : Nat) : Bool := (s.core n).x.k.exiting || (s.core n).x.k.exited
        if g.status == .running && g.cores.any (fun n => (s.core n).arrived) && g.cores.all fun n => (s.core n).arrived || out n then
          (g.cores.foldl (fun s n => s.withClock n Core.pulse) s).setGrp { g with clock := true, key := 0 }
        else s
    | none => s)

end Sys2Proof.Machine
end

