-- ==== Sys2Proof/Machine/Sync.lean ====
section
/-! DEFINITION. Synchronisation on an access core: fences (R297), barriers (R299), tokens (R302), CWAIT (R270), scratchpad allocation (R128,
R129), bank states (R118, R121, R130), and how unfinished A-class syllables go on (R50). -/

namespace Sys2Proof.Machine

/-! ### What an earlier syllable still owes -/

/-- Write a result or let it wait for rd (R50): x0 discards it. -/
def State.result (s : State) (n : Nat) (o : AOp) (v : Word) : State :=
  s.modCore n fun c => if o.dest = some 0 then c.dropAop o.iseq else c.modAop o.iseq fun o => { o with phase := .done, value := v }

/-! ### FENCE (R287, R297) -/

/-- A core after a FENCE.rel or FENCE.full: every later write is its release (R280); of one scope the latest stands for those before it. -/
def Core.fenced (c : Core) (r : Rel) : List Rel := if r.scp = 0 then c.fences else r :: c.fences.filter fun f => f.scp != r.scp

/-- A fence goes on when the earlier accesses it orders have been performed: none, when its scope holds no other agent (R279). A release before it that is
still to come keeps the vector it has seen, and its own snapshot is of what came before it (R287). -/
def State.fenceStep (s : State) (n : Nat) (o : AOp) (ord scp : Nat) : State :=
  let c := s.core n
  let owed := s.binds n scp && (c.earlier o.iseq).any fun y =>
    y.pending && (ord != 1 || (match accOf y.instr with | some a => a.rd | none => false))
  if owed then s
  else
    let s := if ord = 1 ∨ ord = 3 then s.acquire n scp (s.core n).heard else s
    let covers := s.order.knownBy n
    s.modCore n fun c =>
      let c := if ord = 1 ∨ ord = 3 then
          let c := c.observe o.iseq (joinV c.race.v c.race.p)
          { c with race := { c.race with p := [0, 0, 0, 0, 0, 0, 0, 0] } }
        else c
      let c := if ord = 2 ∨ ord = 3 then
          { c with race := ({ c.race with f := some (o.snap c.race (coreRank n)) } : Race).release, fences := c.fenced { core := n, scp := scp, space := 0, iseq := o.iseq, covers := covers } }
        else c
      c.dropAop o.iseq

/-! ### Barriers (R299, R300) -/

/-- Arrivals and waits of a core at a barrier. -/
def Core.arrivals (c : Core) (k : Nat) : Nat := sget 0 k c.barA
def Core.waits (c : Core) (k : Nat) : Nat := sget 0 k c.barW

/-- The arrival of BARA: the release, the snapshot it carries, the count. -/
def Core.arrive (c : Core) (k : Nat) (snap : List Nat) : Core :=
  let a := c.arrivals k
  { c with
    carried := sset [] (16 * a + k) snap (c.carried.filter fun e => e.1 % 16 != k || decide (a < e.1 / 16 + 32))
    race := c.race.release
    barA := sset 0 k (a + 1) c.barA }

/-- Group scope: the smallest scope that holds every core of a group (R299). -/
def Grp.scope (g : Grp) : Nat :=
  if g.cores.all fun c => coreCluster c == coreCluster (g.cores.headD 0) then 1
  else if g.cores.all fun c => coreDie c == coreDie (g.cores.headD 0) then 2 else 3

/-- A BARA arrives once the accesses before it have been performed; what comes after it does not wait for it. DEDUCED, log entry 77. -/
def State.baraStep (s : State) (n : Nat) (o : AOp) (k : Nat) : State :=
  if ((s.core n).earlier o.iseq).any AOp.pending then s
  else
    let covers := s.order.knownBy n
    s.modCore n fun c => ({ c.arrive k (o.snap c.race (coreRank n)) with covered := sset [] (16 * c.arrivals k + k) covers c.covered } : Core).dropAop o.iseq

/-- Whether every core of a group has arrived at a phase; one whose A-stream has exited counts. -/
def State.allArrived (s : State) (g : Grp) (k phase : Nat) : Bool :=
  g.cores.all fun c => (s.core c).a.k.exited || decide (phase ≤ (s.core c).arrivals k)

/-- A BARW goes on once the phase is complete: the acquire joins every snapshot the phase carried from this core's cluster. -/
def State.barwStep (s : State) (n : Nat) (o : AOp) (k : Nat) : State :=
  match s.grpAt n with
  | none => s
  | some g =>
    let w := (s.core n).waits k
    if !s.allArrived g k (w + 1) then s
    else
      let v := (g.cores.filter fun c => coreCluster c == coreCluster n).foldl (fun v c => match sget [] (16 * w + k) (s.core c).carried with
        | [] => v
        | u => joinV v u) (s.core n).race.v
      let before := g.cores.flatMap fun c => sget [] (16 * w + k) (s.core c).covered
      (s.reveal [n] (fun v => before.contains v.id) true).modCore n fun c => ({ c.observe o.iseq v with barW := sset 0 k (w + 1) c.barW } : Core).dropAop o.iseq

/-! ### Tokens and CWAIT (R270, R302) -/

/-- A TKPUSH goes on once earlier accesses and commands have retired. DEDUCED, log entry 77. -/
def State.tkpushStep (s : State) (n : Nat) (o : AOp) (k : Nat) : State :=
  let c := s.core n
  if ((c.earlier o.iseq).any fun y => (accOf y.instr).isSome) || (c.cmds.any fun m => seqBefore m.iseq o.iseq) then s
  else if 15 ≤ c.tokens k then s.failA n o { cause := 0x09 }
  else s.modCore n fun c => (c.setTokens k (c.tokens k + 1)).dropAop o.iseq

/-- The channel from which an I-class syllable is to pop a token (R141). -/
def popsFrom : Instr → Option (BitVec 4)
  | .vpop _ _ _ _ _ _ t c => if t = 2#2 then some c else none
  | .vpush _ _ _ _ t c => if t = 2#2 then some c else none
  | .spop _ _ _ _ _ _ t c => if t = 2#2 then some c else none
  | .ypop _ _ _ _ _ t c => if t = 2#2 then some c else none
  | .cpop _ _ _ _ _ t c => if t = 2#2 then some c else none
  | .apush _ _ _ _ t c => if t = 2#2 then some c else none
  | .ipsel _ _ t c => if t = 2#2 then some c else none
  | .ipld _ _ _ t c => if t = 2#2 then some c else none
  | .ipf _ _ t c => if t = 2#2 then some c else none
  | _ => none

/-- Whether a pending start of a core goes on but for its tick and pops a token of a channel (R141, R234). -/
def State.startPops (s : State) (n k : Nat) (o : Op) : Bool :=
  o.engine == 3 && o.kind == .start && (mxTok o.mx).2 == (2#2, BitVec.ofNat 4 k) &&
  match o.fw.orElse fun _ => (((s.core n).head 20 (s.core n).tick).map fun e => e.val.setWidth 64) with
  | none => false
  | some fw => s.mxCheck n o fw == .go

/-- Whether a syllable of the X-stream that moves an entry, a token or the window is not to go on: it waits, or it is to fault (R138, R141, R151). -/
def State.stays (s : State) (i : Instr) : Bool :=
  let r : Result := match i with
    | .vpop g vr q md pk cf t ch => execVpop g vr q md pk cf t ch s
    | .ypop g vr md pk cf t ch => execYpop g vr md pk cf t ch s
    | .spop g sg q md pk cf t ch => execSpop g sg q md pk cf t ch s
    | .cpop g sg md pk cf t ch => execCpop g sg md pk cf t ch s
    | .vpush g vr q md t ch => execVpush g vr q md t ch s
    | .apush g sg q md t ch => execApush g sg q md t ch s
    | .ipsel g fn t ch => execIpsel g fn t ch s
    | .ipld g fn o t ch => execIpld g fn o t ch s
    | .ipf g vs t ch => execIpf g vs t ch s
    | .fmt g rs => execFmt g rs s
    | .fmti g t => execFmti g t s
    | .mfs g rd sys => execMfs g rd sys s
    | .call g bd fr => execCall g bd fr s
    | .ret g => execRet g s
    | _ => .next s
  (stateOf s r).ctx.out != .running

/-- Whether the X-stream bundle of a core at its tick is to issue and to pop a token of a channel: nothing else of it waits or is to fault. -/
def State.bundlePops (s : State) (n k : Nat) : Bool :=
  let c := s.core n
  let u := { s with ctx := { who := .x, core := n, tick := c.tick } }
  decide (c.x.next ≤ c.tick) && c.x.align.isNone && c.x.window.isNone && !c.x.k.exiting && !c.x.k.exited &&
  (match c.x.await with | some b => b.fetched || decide (b.ready ≤ c.tick) | none => true) &&
  match s.fetch .x n c.x.k.pc 4 with
  | (ws, .whole _) =>
    (ws.any fun e => match decode e.2 with | .ok i => popsFrom i == some (BitVec.ofNat 4 k) && u.guardM (guardOf e.2) | .error _ => false) &&
    ws.all fun e => match decode e.2 with | .ok i => !({ u with ctx := { u.ctx with pc := e.1, word := e.2 } } : State).stays i | .error _ => false
  | _ => false

/-- Whether a core whose clock another core holds has a start or a bundle at the held tick that is to pop a token of a channel (R141, R302). -/
def State.heldPops (s : State) (n k : Nat) : Bool :=
  ((s.core n).ops.any fun o => decide (o.due ≤ (s.core n).tick) && s.startPops n k o) || s.bundlePops n k

/-- Whether an engine of a core takes the last token of a channel: it slips for it, or is to pop it at the tick at which its clock is held (R141, R147,
R302). DEDUCED, log entry 16. -/
def State.engineWaits (s : State) (n k : Nat) : Bool :=
  match s.grpAt n with
  | none => false
  | some g =>
    match g.slip with
    | none => false
    | some why =>
      if g.slipCore = n then
        (match why with
          | .token ch => ch == k
          | .start q => (s.core n).ops.any fun o => o.iseq == q && s.startPops n k o
          | _ => false)
      else s.heldPops n k

/-- A TKWAIT takes a token, but leaves the last one to an engine of its core that waits for it (R302). -/
def State.tkwaitStep (s : State) (n : Nat) (o : AOp) (k : Nat) : State :=
  let c := s.core n
  if c.tokens k = 0 ∨ (c.tokens k = 1 ∧ s.engineWaits n k) then s else s.modCore n fun c => (c.setTokens k (c.tokens k - 1)).dropAop o.iseq

/-- Pop k entries of cq0. -/
def Core.popStatuses (c : Core) : Nat → Core
  | 0 => c
  | k + 1 => Core.popStatuses (c.pop 19) k

/-- A CWAIT goes on when its k entries are present together, or with 0 when every earlier command has retired. -/
def State.cwaitStep (s : State) (n : Nat) (o : AOp) : State :=
  let c := s.core n
  let k := min o.addr.toNat 32
  if k = 0 then (if c.cmds.any fun m => seqBefore m.iseq o.iseq then s else s.result n o 0#64)
  else
    let es := (c.queue 19).es.take k
    if es.length < k || es.any fun e => !e.filled then s
    else
      let words := es.map fun e => e.val.setWidth 64
      let stale := words.any fun w => w.getLsbD 0
      let last : Word := words.getLastD 0#64
      ((s.modCore n fun c => c.popStatuses k)).result n o (if stale then last ||| 1#64 else last)

/-! ### Scratchpad banks (R128, R129) -/

/-- The banks that unfinished SPALLOCs of a core have chosen. DESIGN CHOICE, log entry 20. -/
def Core.chosen (c : Core) : Word := c.aops.foldl (fun m o => m ||| o.mask) 0#64

/-- The lowest n banks of 0 to 30 that are free and not chosen (R128). DESIGN CHOICE, log entry 20. -/
def Core.freeBanks (c : Core) (n : Nat) : List Nat :=
  ((List.range 31).filter fun b => c.bankOwner b == 0 && !c.chosen.getLsbD b).take n

/-- Bits of a list of numbers. -/
def maskOf (bs : List Nat) : Word := BitVec.ofNat 64 (bs.foldl (fun m b => m ||| 2 ^ b) 0)

/-- An SPALLOC begins: the banks it takes go to TRANSIT, and it waits for those still being scrubbed. -/
def State.spallocStart (s : State) (n : Nat) (o : AOp) : State :=
  s.modCore n fun c =>
    let bs := c.freeBanks (min o.addr.toNat 31)
    let busy := bs.filter fun b => (sget ({} : Bank) b c.banks).st == 3
    let c := { c with banks := bs.foldl (fun st b => sset {} b { sget ({} : Bank) b st with st := 3 } st) c.banks }
    c.modAop o.iseq fun o => { o with begun := true, mask := maskOf bs, value := maskOf busy }

/-- The end of an SPALLOC, with the write of rd: its banks become owned, zero-filled and HOT, and the mask is the result (R128). -/
def State.spallocDone (s : State) (n : Nat) (o : AOp) : State :=
  if !o.begun || o.value != 0#64 then s
  else
    let s := s.modCore n fun c =>
      let c := ((List.range 31).filter fun b => o.mask.getLsbD b).foldl (fun c b => c.allot b c.owner s.power.ref (c.sys.bwpa.getLsbD b)) c
      { c with sys := { c.sys with spmask := c.sys.spmask ||| o.mask.setWidth 32 } }
    (s.modCore n fun c => c.modAop o.iseq fun o => { o with mask := 0#64 }).result n o o.mask

/-- Whether an address or place reaches a bank of a mask on core n. -/
def reachesBank (n : Nat) (m : Word) (p : Place) (len : Nat) : Bool :=
  match p with
  | .sp c off => c == n && decide (off < 0x200000) && (m.getLsbD (off / 65536) || m.getLsbD ((off + len - 1) / 65536))
  | _ => false

/-- Free the banks of a mask at one instant (R129). -/
def Core.freeBanksOf (c : Core) (m : Word) : Core :=
  { c with
    banks := (List.range 32).foldl (fun st b =>
      if m.getLsbD b then sset {} b { sget {} b st with owner := 0, pin := false, live := false, st := 3 } st else st) c.banks
    sys := { c.sys with spmask := c.sys.spmask &&& ~~~(m.setWidth 32) } }

/-- Whether a core may free the banks of a mask: not bank 31, and only banks of SPMASK (R122, R129). -/
def Core.mayFree (c : Core) (m : Word) : Bool := !m.getLsbD 31 && m &&& ~~~(c.sys.spmask.setWidth 64) == 0#64

/-- An SPFREE goes on once the core's earlier accesses and commands to the banks have completed; reissued, it checks its mask afresh (R129, R330). -/
def State.spfreeStep (s : State) (n : Nat) (o : AOp) : State :=
  let c := s.core n
  let m := o.addr &&& 0xFFFFFFFF#64
  let pointed (w : Word) : Bool := spaceOf w == 1 && spCore w == n && decide (spOff w < 0x200000) && m.getLsbD (spOff w / 65536)
  if !c.mayFree m then s.failA n o { cause := 0x19, addr := 0#64 }
  else if ((c.earlier o.iseq).any fun y => y.pending && pointed y.addr) ||
      (c.cmds.any fun k => (k.reads ++ k.writes).any fun r => reachesBank n m r.2.1 r.2.2) then s
  else s.modCore n fun c => (c.freeBanksOf m).dropAop o.iseq

/-! ### Going on -/

/-- One unfinished synchronisation syllable makes what steps it can. -/
def State.syncOne (s : State) (n q : Nat) : State :=
  match (s.core n).aop q, (s.core n).part with
  | some o, some pn =>
    if o.phase != .sync || !s.opRuns n q then s
    else match o.instr with
      | .fence _ ord scp => s.fenceStep n o ord.toNat scp.toNat
      | .tfence _ scp => s.tfenceStep n pn o scp.toNat
      | .bara _ k => s.baraStep n o k.toNat
      | .barw _ k => s.barwStep n o k.toNat
      | .tkpush _ k => s.tkpushStep n o k.toNat
      | .tkwait _ k => s.tkwaitStep n o k.toNat
      | .cwait .. => s.cwaitStep n o
      | .spalloc .. => if o.begun then s else s.spallocStart n o
      | .spfree .. => s.spfreeStep n o
      | .launchB .. => s.launchStep n o true
      | .launchN .. => s.launchStep n o false
      | .publish _ h _ => s.publishSwap n pn o h.toNat
      | .hnew _ h _ => s.hnewStep n pn o h
      | _ => s
  | _, _ => s

/-- One unfinished synchronisation syllable goes on as far as it can. -/
def State.syncStep (s : State) (n q : Nat) : State := s.eased (s.syncOne n q) n

/-- Every unfinished synchronisation syllable of a core goes on, oldest first. -/
def State.syncAll (s : State) (n : Nat) : State :=
  ((s.core n).aops.filter fun o => o.phase == .sync).foldl (fun s o => s.syncStep n o.iseq) s

/-- Issue a synchronisation syllable: it stands unfinished, and completes at once if nothing holds it. -/
def State.issueSync (s : State) (i : Instr) (addr data extra : Word) : State :=
  (s.pushSync i addr data extra false).syncStep s.ctx.core s.ctx.iseq

/-! ### The syllables -/

/-- FENCE (R297): on a management core, whose register accesses are performed in order, it has nothing to wait for (R389). DEDUCED, log entry 76. -/
def execFence (g : BitVec 4) (ord : BitVec 2) (scp : BitVec 3) (s : State) : Result :=
  .next (if s.guardC g then match s.ctx.who with | .mgmt => s | _ => s.issueSync (.fence g ord scp) 0#64 0#64 0#64 else s)

/-- BARA (R299): it arrives once the accesses before it have been performed, and holds nothing that comes after. DEDUCED, log entry 77. -/
def execBara (g : BitVec 4) (n : BitVec 5) (s : State) : Result :=
  let k := n.toNat
  .next (if s.guardC g then
    if (s.me.arrivals k + (s.me.aops.filter fun o => match o.instr with | .bara _ j => j == n | _ => false).length) - s.me.waits k = 15 then
      s.raise { cause := 0x09 }
    else s.issueSync (.bara g n) 0#64 0#64 0#64
  else s)

/-- BARW (R299). -/
def execBarw (g : BitVec 4) (n : BitVec 5) (s : State) : Result :=
  let k := n.toNat
  .next (if s.guardC g then
    if s.me.arrivals k + (s.me.aops.filter fun o => match o.instr with | .bara _ j => j == n | _ => false).length = s.me.waits k then
      s.raise { cause := 0x08 }
    else s.issueSync (.barw g n) 0#64 0#64 0#64
  else s)

/-- TKPUSH (R302). -/
def execTkpush (g : BitVec 4) (n : BitVec 5) (s : State) : Result :=
  .next (if s.guardC g then s.issueSync (.tkpush g n) 0#64 0#64 0#64 else s)

/-- TKWAIT (R302). -/
def execTkwait (g : BitVec 4) (n : BitVec 5) (s : State) : Result :=
  .next (if s.guardC g then s.issueSync (.tkwait g n) 0#64 0#64 0#64 else s)

/-- CWAIT (R270). -/
def execCwait (g : BitVec 4) (rd s1 : BitVec 5) (s : State) : Result :=
  .next (if s.guardC g then s.gate (s.regsOk [rd, s1]) fun s => s.issueSync (.cwait g rd s1) (s.reg s1) 0#64 0#64 else s)

/-- SPALLOC (R128). -/
def execSpalloc (g : BitVec 4) (rd s1 : BitVec 5) (s : State) : Result :=
  .next (if s.guardC g then s.gate (s.regsOk [rd, s1]) fun s => s.issueSync (.spalloc g rd s1) (s.reg s1) 0#64 0#64 else s)

/-- SPFREE (R129). -/
def execSpfree (g : BitVec 4) (s1 : BitVec 5) (s : State) : Result :=
  .next (if s.guardC g then
    s.gate (s.regsOk [s1]) fun s =>
      if !s.me.mayFree (s.reg s1 &&& 0xFFFFFFFF#64) then s.raise { cause := 0x19 }
      else s.issueSync (.spfree g s1) (s.reg s1) 0#64 0#64
  else s)

/-! ### Events -/

/-- Whether an A-class result may reach its register: not during a resume, when the write waits for the A-stream (R330). -/
def State.mayWrite (s : State) (n : Nat) : Bool := match s.grpAt n with | some g => g.status != .resuming | none => false

/-- An A-class result reaches its register; a result of an earlier syllable, or one of its bundle, that is still to land there stands over it (R45, R50). -/
def Core.setResult (c : Core) (r : Nat) (v : Word) : Core := if c.cycle < sget 0 r c.a.due then c else c.setX r v

/-- A performed syllable writes rd (R50). -/
def State.writeRd (s : State) (n q : Nat) : State :=
  match (s.core n).aop q with
  | some o =>
    if o.phase == .done && o.dest.isSome && s.mayWrite n then s.modCore n fun c => (c.setResult (o.dest.getD 0) o.value).dropAop q else s
  | none => s

/-- An unfinished syllable goes on: a synchronisation step, or the access itself. -/
def State.goOn (s : State) (n : Nat) (o : AOp) : State :=
  match o.instr with
  | .await .. => s
  | _ => if o.phase == .sync then s.syncStep n o.iseq else s.eased (s.performOne n o) n

/-- What stands before the write of rd. -/
def State.towardRd (s : State) (n : Nat) (o : AOp) : State :=
  match o.instr with
  | .spalloc .. => if o.phase == .sync && s.mayWrite n then s.spallocDone n o else s
  | _ => s.goOn n o

/-- A_CLASS_RESULT: an unfinished syllable that has been performed writes rd (R50); one that can be performed is, first. -/
def execAClassResult (core iseq : Nat) (s : State) : Result :=
  .next (match (s.core core).aop iseq with
    | some o => if s.opRuns core iseq then (s.towardRd core o).writeRd core iseq else s
    | none => s)

/-- ACCESS_PERFORMED: an access that has passed its checks is performed in memory (R288), or a synchronisation syllable goes on. DEDUCED, log entry 27. -/
def execAccessPerformed (core iseq : Nat) (s : State) : Result :=
  .next (match (s.core core).aop iseq with
    | some o => if s.opRuns core iseq then s.goOn core o else s
    | none => s)

/-- AWAIT_SATISFIED: the polled word meets the condition, and rd is written (R295). -/
def execAwaitSatisfied (core : Nat) (s : State) : Result :=
  .next (match (s.core core).aops.find? fun o => match o.instr with | .await .. => true | _ => false with
    | some o => if s.opRuns core o.iseq then (s.eased (s.performOne core o) core).writeRd core o.iseq else s
    | none => s)

/-- BARRIER_PHASE_COMPLETE: a waiting BARW whose phase is complete (R299). -/
def execBarrierPhaseComplete (core : Nat) (s : State) : Result :=
  .next (match (s.core core).aops.find? fun o => match o.instr with | .barw .. => true | _ => false with
    | some o => s.syncStep core o.iseq
    | none => s)

/-- QUEUE_FILL: the row of an LDQ, or the next row of an LDQ2, fills its entry (R139, R265, R266). -/
def execQueueFill (core iseq : Nat) (s : State) : Result :=
  .next (match (s.core core).aop iseq with
    | some o => if s.opRuns core iseq then s.fillLdq core o else s
    | none =>
      match (s.core core).cmds with
      | m :: _ => (match m.instr with | .ldq2 .. => if m.iseq = iseq then s.copyTurn core else s | _ => s)
      | [] => s)

/-- Whole reference ticks since an instant of the reference clock (R121). -/
def State.idleTicks (s : State) (t : Nat) : Nat := (s.power.ref - t) / 1000

/-- BANK_WAKE_COMPLETE: a woken bank of a context becomes HOT, and 2,048 ticks are to pass before it may go WARM again (R118, R126). -/
def execBankWakeComplete (core bank : Nat) (s : State) : Result :=
  let b := sget {} bank (s.core core).banks
  .next (if b.owner ≠ 0 ∧ b.st = 3 then s.modCore core fun c => { c with banks := sset {} bank { b with st := 2, last := s.power.ref } c.banks } else s)

/-- BANK_IDLE_WARM (R121). -/
def execBankIdleWarm (core bank : Nat) (s : State) : Result :=
  let b := sget {} bank (s.core core).banks
  .next (if b.owner ≠ 0 ∧ b.st = 2 ∧ ¬b.pin ∧ 2048 ≤ s.idleTicks b.last then
    s.modCore core fun c => { c with banks := sset {} bank { b with st := 1 } c.banks }
  else s)

/-- ACC_BANK_IDLE_WARM (R130). -/
def execAccBankIdleWarm (core bank : Nat) (s : State) : Result :=
  let a := (s.core core).bank bank
  .next (if a.st = 2 ∧ ¬a.held ∧ 2048 ≤ s.idleTicks a.last then s.modCore core fun c => c.setBank bank { a with st := 1 } else s)

/-- BANK_SCRUB_COMPLETE: a freed bank's scrub finishes; it goes COLD, to the SPALLOC that waits for it, or to the group that was placed on the core
meanwhile (R117, R121, R128). Error marks of its lines stay (DESIGN CHOICE, log entry 121). DEDUCED, log entry 95. -/
def execBankScrubComplete (core bank : Nat) (s : State) : Result :=
  let c := s.core core
  let b := sget {} bank c.banks
  .next (if b.owner ≠ 0 ∨ b.st ≠ 3 then s
    else if c.bankOwner bank ≠ 0 then
      s.modCore core fun c =>
        let b := { b with st := 2, owner := c.owner, pin := bank == 31 || c.sys.bwpa.getLsbD bank, last := s.power.ref }
        { c with banks := sset {} bank b c.banks }
    else
      let s := s.modCore core fun c => { c with sp := Memory.zero c.sp (65536 * bank) 65536, lines := sclear (1024 * bank) 1024 c.lines }
      match (if s.accessRuns core then c.aops.find? fun o => o.begun && o.mask.getLsbD bank else none) with
      | some o => s.modCore core fun c => c.modAop o.iseq fun o => { o with value := o.value &&& ~~~(1#64 <<< bank) }
      | none => s.modCore core fun c => { c with banks := sset {} bank { b with st := 0, live := false } c.banks })

end Sys2Proof.Machine
end

