-- ==== Sys2Proof/Machine/Loads.lean ====
section
/-! DEFINITION. Loads, stores, queue accesses, atomics and AWAIT (R262 to R265, R291 to R295): their checks at issue on an access core, and
their whole effect on a management core (R389, R390). -/

namespace Sys2Proof.Machine

/-! ### On an access core -/

/-- The unfinished access of the syllable being issued. -/
def State.pushAccess (s : State) (i : Instr) (addr data extra : Word) (entry : Option Nat) : State :=
  s.modMe fun c => { c with aops := c.aops ++ [{ iseq := s.ctx.iseq, word := s.ctx.word, instr := i, phase := .walking, addr := addr, data := data,
                                                 extra := extra, entry := entry }] }

/-- Checks 1 and 2 of R262 at issue; what follows waits for the translation. A write does not issue while the orders of a FENCE.rel before it do not hold
(R297). DEDUCED, log entry 53. -/
def State.issueAccess (s : State) (i : Instr) (addr data extra : Word) (k : State → State) : State :=
  match accOf i with
  | none => s
  | some a =>
    if !s.spaceOk s.ctx.core .access addr then s.raise { cause := 0x15, addr := addr }
    else if addr.toNat % a.size ≠ 0 then s.raise { cause := 0x16, addr := addr }
    else if a.wr && s.relWaits then s.waiting .ops
    else k (s.pushAccess i addr data extra none)

/-! ### On a management core (R390) -/

/-- What a space-3 system address names. -/
inductive Sysaddr where
  | hbm (a : Nat)
  | balore (off : Nat)
  | power (off : Nat)
  | none
deriving DecidableEq, Repr

/-- The range of a space-3 pointer (R390). DEDUCED, log entry 76. -/
def sysaddr (p : Word) : Sysaddr :=
  let a := p.toNat % 2 ^ 40
  if spaceOf p ≠ 3 ∨ p.toNat / 2 ^ 40 % 2 ^ 20 ≠ 0 then .none
  else if a < 2 ^ 39 then .hbm a
  else if (0x8000000000 ≤ a ∧ a < 0x8000001000) ∨ (0x8000010000 ≤ a ∧ a < 0x8000020000) then .balore (a - 0x8000000000)
  else if 0x8002000000 ≤ a ∧ a < 0x8002040000 then .power (a - 0x8002000000)
  else .none

/-- An 8-byte register as a management core reads it. -/
def State.regRead (s : State) (w : Sysaddr) : Word :=
  match w with
  | .balore off => s.baloreRead off
  | .power off => s.pcRead off
  | _ => 0#64

/-- A store to an 8-byte register by a management core; the atlas ignores writes (R119). -/
def State.regWrite (s : State) (w : Sysaddr) (v : Word) : State :=
  match w with
  | .balore off => s.baloreWrite off v s.ctx.core
  | .power off => s.powerWrite off v (.mgmt s.ctx.core)
  | _ => s

/-- The value a management core's AWAIT found, or nothing yet (R295). -/
def awaitValue (cond sz : Nat) (d : Bytes) (v : Word) : Option Word :=
  let r := loadValue sz (2 ≤ cond && cond ≤ 5) d
  if awaitHolds cond sz r v then some r else none

/-- A whole access of a management core: checks 1 and 2, the read, the write, the result (R389, R390). DEDUCED, log entry 76. -/
def State.mgmtAccess (s : State) (i : Instr) (addr data extra : Word) : State :=
  match accOf i with
  | none => s
  | some a =>
    let w := sysaddr addr
    let isReg : Bool := match w with | .balore _ => true | .power _ => true | _ => false
    let isAtomic := a.atom && a.wr
    if w = .none ∨ (isReg ∧ isAtomic) then s.raise { cause := 0x15, addr := addr }
    else if addr.toNat % a.size ≠ 0 ∨ (isReg ∧ a.size ≠ 8) then s.raise { cause := 0x16, addr := addr }
    else
      let pl : Place := .hbm (addr.toNat % 2 ^ 39)
      if (!isReg && s.copied pl a.size) || (a.wr && match w with | .power off => s.powerHeld off data | _ => false) then s.waiting .ops
      else if !isReg && a.rd && s.readBad pl a.size then s.raise { cause := 0x20, addr := addr }
      else
        let d := if isReg then wordBytes (s.regRead w) else s.mgmtRead (addr.toNat % 2 ^ 39) a.size
        let put (s : State) (v : Word) : State :=
          if isReg then s.regWrite w v else s.mgmtWrite (addr.toNat % 2 ^ 39) (leBytes a.size v.toNat)
        match i with
        | .ld _ rd _ _ sz sx _ _ => s.putReg 1 rd (loadValue sz.toNat (sx == 1#1) d)
        | .ldx _ rd _ _ _ sz sx _ _ => s.putReg 1 rd (loadValue sz.toNat (sx == 1#1) d)
        | .st .. => put s data
        | .stx .. => put s data
        | .await _ rd _ _ cond sz _ _ =>
          (match awaitValue cond.toNat sz.toNat d data with
            | some v => s.putReg 1 rd v
            | none => s.waiting .ops)
        | i =>
          let old := BitVec.ofNat 64 (leNat d)
          let s := match atomicNew i (8 * a.size) old data extra with | some v => put s v | none => s
          match i with
          | .aadd _ rd .. => s.putReg 1 rd old
          | .amin _ rd .. => s.putReg 1 rd old
          | .amax _ rd .. => s.putReg 1 rd old
          | .aand _ rd .. => s.putReg 1 rd old
          | .aor _ rd .. => s.putReg 1 rd old
          | .axor _ rd .. => s.putReg 1 rd old
          | .axchg _ rd .. => s.putReg 1 rd old
          | .acas _ rd .. => s.putReg 1 rd old
          | _ => s

/-- An access with a true guard on either kind of core: registers, then the access. -/
def State.access (s : State) (i : Instr) (rs : List (BitVec 5)) (addr data extra : Word) : State :=
  s.gate (s.regsOk rs) fun s =>
    match s.ctx.who with
    | .mgmt => s.mgmtAccess i addr data extra
    | _ => s.issueAccess i addr data extra id

/-! ### Scalar loads and stores (R263, R264) -/

/-- LD (R264). -/
def execLd (g : BitVec 4) (rd b : BitVec 5) (imm : BitVec 24) (sz : BitVec 2) (sx : BitVec 1) (ord : BitVec 2) (scp : BitVec 3) (s : State) : Result :=
  .next (if s.guardC g then s.access (.ld g rd b imm sz sx ord scp) [rd, b] (s.reg b + imm.signExtend 64) 0#64 0#64 else s)

/-- LDX (R264). -/
def execLdx (g : BitVec 4) (rd b ix : BitVec 5) (sh sz : BitVec 2) (sx : BitVec 1) (ord : BitVec 2) (scp : BitVec 3) (s : State) : Result :=
  .next (if s.guardC g then s.access (.ldx g rd b ix sh sz sx ord scp) [rd, b, ix] (s.reg b + s.reg ix <<< sh.toNat) 0#64 0#64 else s)

/-- ST (R264). -/
def execSt (g : BitVec 4) (rd b : BitVec 5) (imm : BitVec 24) (sz ord : BitVec 2) (scp : BitVec 3) (s : State) : Result :=
  .next (if s.guardC g then s.access (.st g rd b imm sz ord scp) [rd, b] (s.reg b + imm.signExtend 64) (s.reg rd) 0#64 else s)

/-- STX (R264). -/
def execStx (g : BitVec 4) (rd b ix : BitVec 5) (sh sz ord : BitVec 2) (scp : BitVec 3) (s : State) : Result :=
  .next (if s.guardC g then s.access (.stx g rd b ix sh sz ord scp) [rd, b, ix] (s.reg b + s.reg ix <<< sh.toNat) (s.reg rd) 0#64 else s)

/-- PREF (R264): dropped when a check fails. -/
def execPref (g : BitVec 4) (b : BitVec 5) (imm : BitVec 24) (s : State) : Result :=
  .next (if s.guardC g then
    s.gate (s.regsOk [b]) fun s =>
      let addr := s.reg b + imm.signExtend 64
      match s.ctx.who with
      | .mgmt => s
      | _ => if s.spaceOk s.ctx.core .access addr then s.pushAccess (.pref g b imm) addr 0#64 0#64 none else s
  else s)

/-! ### Queue loads and stores (R265) -/

/-- LDQ: checks 1 and 2, then the reservation (R139, R265). -/
def execLdq (g q : BitVec 4) (b : BitVec 5) (imm : BitVec 24) (md : BitVec 2) (s : State) : Result :=
  .next (if s.guardC g then
    s.gate (s.regsOk [b]) fun s =>
      s.issueAccess (.ldq g q b imm md) (s.reg b + imm.signExtend 64) 0#64 0#64 fun t =>
        if s.me.full q.toNat then (if md = 1#2 then s.waiting (.room q.toNat) else s.raise { cause := 0x09 })
        else t.modMe fun c =>
          let r := c.reserve q.toNat { emptyEntry with iseq := s.ctx.iseq }
          r.1.modAop s.ctx.iseq fun o => { o with entry := some r.2 }
  else s)

/-- STQ: checks 1 and 2; the rest when its translation ends (R265). -/
def execStq (g q : BitVec 4) (b : BitVec 5) (imm : BitVec 24) (md : BitVec 2) (s : State) : Result :=
  .next (if s.guardC g then
    s.gate (s.regsOk [b]) fun s => s.issueAccess (.stq g q b imm md) (s.reg b + imm.signExtend 64) 0#64 0#64 id
  else s)

/-- SQPUSH (R265). -/
def execSqpush (g q : BitVec 4) (b : BitVec 5) (md : BitVec 2) (s : State) : Result :=
  .next (if s.guardC g then
    s.gate (s.regsOk [b]) fun s =>
      let k := 12 + q.toNat
      if s.me.full k then (if md = 1#2 then s.waiting (.room k) else s.raise { cause := 0x09 })
      else s.modMe fun c => (c.reserve k { filled := true, present := c.tick, val := (s.reg b).setWidth 1024, iseq := s.ctx.iseq }).1
  else s)

/-! ### Atomics (R291, R292) -/

/-- An atomic at x[b] with operands. -/
def State.atomic (s : State) (g : BitVec 4) (i : Instr) (rs : List (BitVec 5)) (b s2 s3 : BitVec 5) : State :=
  if s.guardC g then s.access i rs (s.reg b) (s.reg s2) (s.reg s3) else s

/-- AADD (R292). -/
def execAadd (g : BitVec 4) (rd b s2 : BitVec 5) (sz ord : BitVec 2) (scp : BitVec 3) (s : State) : Result :=
  .next (s.atomic g (.aadd g rd b s2 sz ord scp) [rd, b, s2] b s2 0#5)

/-- AMIN (R292). -/
def execAmin (g : BitVec 4) (rd b s2 : BitVec 5) (sz ord : BitVec 2) (scp : BitVec 3) (s : State) : Result :=
  .next (s.atomic g (.amin g rd b s2 sz ord scp) [rd, b, s2] b s2 0#5)

/-- AMAX (R292). -/
def execAmax (g : BitVec 4) (rd b s2 : BitVec 5) (sz ord : BitVec 2) (scp : BitVec 3) (s : State) : Result :=
  .next (s.atomic g (.amax g rd b s2 sz ord scp) [rd, b, s2] b s2 0#5)

/-- AAND (R292). -/
def execAand (g : BitVec 4) (rd b s2 : BitVec 5) (sz ord : BitVec 2) (scp : BitVec 3) (s : State) : Result :=
  .next (s.atomic g (.aand g rd b s2 sz ord scp) [rd, b, s2] b s2 0#5)

/-- AOR (R292). -/
def execAor (g : BitVec 4) (rd b s2 : BitVec 5) (sz ord : BitVec 2) (scp : BitVec 3) (s : State) : Result :=
  .next (s.atomic g (.aor g rd b s2 sz ord scp) [rd, b, s2] b s2 0#5)

/-- AXOR (R292). -/
def execAxor (g : BitVec 4) (rd b s2 : BitVec 5) (sz ord : BitVec 2) (scp : BitVec 3) (s : State) : Result :=
  .next (s.atomic g (.axor g rd b s2 sz ord scp) [rd, b, s2] b s2 0#5)

/-- AXCHG (R292). -/
def execAxchg (g : BitVec 4) (rd b s2 : BitVec 5) (sz ord : BitVec 2) (scp : BitVec 3) (s : State) : Result :=
  .next (s.atomic g (.axchg g rd b s2 sz ord scp) [rd, b, s2] b s2 0#5)

/-- ACAS (R292). -/
def execAcas (g : BitVec 4) (rd b s2 s3 : BitVec 5) (sz ord : BitVec 2) (scp : BitVec 3) (s : State) : Result :=
  .next (s.atomic g (.acas g rd b s2 s3 sz ord scp) [rd, b, s2, s3] b s2 s3)

/-- AWAIT (R295): the operand is taken in the same way as the word, from w bits (R294). -/
def execAwait (g : BitVec 4) (rd b s2 : BitVec 5) (cond : BitVec 4) (sz ord : BitVec 2) (scp : BitVec 3) (s : State) : Result :=
  .next (if s.guardC g then s.access (.await g rd b s2 cond sz ord scp) [rd, b, s2] (s.reg b) (s.reg s2) 0#64 else s)

end Sys2Proof.Machine
end

