-- ==== Sys2Proof/Machine/Scalar.lean ====
section
/-! DEFINITION. The S and T classes (R156 to R163): every scalar syllable on both streams. -/

namespace Sys2Proof.Machine

/-- A scalar syllable whose guard is true names its registers, reads its sources at issue and writes one destination after its
latency (R36, R156). -/
def scalarBody (g : BitVec 4) (regs : List (BitVec 5)) (lat : Nat) (rd : BitVec 5) (val : State → Word) (s : State) : State :=
  if s.guardC g then s.gate (s.regsOk regs) fun s => s.putReg lat rd (val s) else s

/-- A three-register form (R157, R158). -/
def scalar3 (lat : Nat) (f : Word → Word → Word) (g : BitVec 4) (rd rs1 rs2 : BitVec 5) (s : State) : Result :=
  .next (scalarBody g [rd, rs1, rs2] lat rd (fun s => f (s.reg rs1) (s.reg rs2)) s)

/-- A two-register form, and an immediate form with its immediate inside f (R157, R159, R160). -/
def scalar2 (lat : Nat) (f : Word → Word) (g : BitVec 4) (rd rs1 : BitVec 5) (s : State) : Result :=
  .next (scalarBody g [rd, rs1] lat rd (fun s => f (s.reg rs1)) s)

/-- ADD (R157). -/
def execAdd (g : BitVec 4) (rd rs1 rs2 : BitVec 5) (s : State) : Result := scalar3 1 (scalarOp 1) g rd rs1 rs2 s

/-- SUB (R157). -/
def execSub (g : BitVec 4) (rd rs1 rs2 : BitVec 5) (s : State) : Result := scalar3 1 (scalarOp 2) g rd rs1 rs2 s

/-- MUL (R158). -/
def execMul (g : BitVec 4) (rd rs1 rs2 : BitVec 5) (s : State) : Result := scalar3 3 (scalarOp 3) g rd rs1 rs2 s

/-- MULH (R158). -/
def execMulh (g : BitVec 4) (rd rs1 rs2 : BitVec 5) (s : State) : Result := scalar3 3 (fun a b => mulHigh a.toInt b.toInt) g rd rs1 rs2 s

/-- MULHN (R158). -/
def execMulhn (g : BitVec 4) (rd rs1 rs2 : BitVec 5) (s : State) : Result := scalar3 3 (fun a b => mulHigh a.toNat b.toNat) g rd rs1 rs2 s

/-- DIV (R158). -/
def execDiv (g : BitVec 4) (rd rs1 rs2 : BitVec 5) (s : State) : Result := scalar3 18 (divS) g rd rs1 rs2 s

/-- DIVN (R158). -/
def execDivn (g : BitVec 4) (rd rs1 rs2 : BitVec 5) (s : State) : Result := scalar3 18 (divU) g rd rs1 rs2 s

/-- REM (R158). -/
def execRem (g : BitVec 4) (rd rs1 rs2 : BitVec 5) (s : State) : Result := scalar3 18 (remS) g rd rs1 rs2 s

/-- REMN (R158). -/
def execRemn (g : BitVec 4) (rd rs1 rs2 : BitVec 5) (s : State) : Result := scalar3 18 (remU) g rd rs1 rs2 s

/-- AND (R157). -/
def execAnd (g : BitVec 4) (rd rs1 rs2 : BitVec 5) (s : State) : Result := scalar3 1 (scalarOp 4) g rd rs1 rs2 s

/-- OR (R157). -/
def execOr (g : BitVec 4) (rd rs1 rs2 : BitVec 5) (s : State) : Result := scalar3 1 (scalarOp 5) g rd rs1 rs2 s

/-- XOR (R157). -/
def execXor (g : BitVec 4) (rd rs1 rs2 : BitVec 5) (s : State) : Result := scalar3 1 (scalarOp 6) g rd rs1 rs2 s

/-- ANDN (R157). -/
def execAndn (g : BitVec 4) (rd rs1 rs2 : BitVec 5) (s : State) : Result := scalar3 1 (scalarOp 7) g rd rs1 rs2 s

/-- SHL (R157). -/
def execShl (g : BitVec 4) (rd rs1 rs2 : BitVec 5) (s : State) : Result := scalar3 1 (scalarOp 8) g rd rs1 rs2 s

/-- SHR (R157). -/
def execShr (g : BitVec 4) (rd rs1 rs2 : BitVec 5) (s : State) : Result := scalar3 1 (scalarOp 9) g rd rs1 rs2 s

/-- SAR (R157). -/
def execSar (g : BitVec 4) (rd rs1 rs2 : BitVec 5) (s : State) : Result := scalar3 1 (scalarOp 10) g rd rs1 rs2 s

/-- ROTR (R157). -/
def execRotr (g : BitVec 4) (rd rs1 rs2 : BitVec 5) (s : State) : Result := scalar3 1 (scalarOp 11) g rd rs1 rs2 s

/-- MIN (R157). -/
def execMin (g : BitVec 4) (rd rs1 rs2 : BitVec 5) (s : State) : Result := scalar3 1 (scalarOp 12) g rd rs1 rs2 s

/-- MAX (R157). -/
def execMax (g : BitVec 4) (rd rs1 rs2 : BitVec 5) (s : State) : Result := scalar3 1 (scalarOp 13) g rd rs1 rs2 s

/-- MINN (R157). -/
def execMinn (g : BitVec 4) (rd rs1 rs2 : BitVec 5) (s : State) : Result := scalar3 1 (scalarOp 14) g rd rs1 rs2 s

/-- MAXN (R157). -/
def execMaxn (g : BitVec 4) (rd rs1 rs2 : BitVec 5) (s : State) : Result := scalar3 1 (scalarOp 15) g rd rs1 rs2 s

/-- CLZ (R157). -/
def execClz (g : BitVec 4) (rd rs1 : BitVec 5) (s : State) : Result := scalar2 1 (fun a => BitVec.ofNat 64 (clzOf a)) g rd rs1 s

/-- CTZ (R157). -/
def execCtz (g : BitVec 4) (rd rs1 : BitVec 5) (s : State) : Result := scalar2 1 (fun a => BitVec.ofNat 64 (ctzOf a)) g rd rs1 s

/-- POPC (R157). -/
def execPopc (g : BitVec 4) (rd rs1 : BitVec 5) (s : State) : Result := scalar2 1 (fun a => BitVec.ofNat 64 (popcount a)) g rd rs1 s

/-- MOV (R157). -/
def execMov (g : BitVec 4) (rd rs1 : BitVec 5) (s : State) : Result := scalar2 1 (fun a => a) g rd rs1 s

/-- SEXT of the low len + 1 bits (R159). -/
def execSext (g : BitVec 4) (rd rs1 : BitVec 5) (len : BitVec 6) (s : State) : Result := scalar2 1 (signLow (len.toNat + 1)) g rd rs1 s

/-- ZEXT of the low len + 1 bits (R159). -/
def execZext (g : BitVec 4) (rd rs1 : BitVec 5) (len : BitVec 6) (s : State) : Result := scalar2 1 (lowBits (len.toNat + 1)) g rd rs1 s

/-- BFX of bits [pos + len : pos] (R159). -/
def execBfx (g : BitVec 4) (rd rs1 : BitVec 5) (pos len : BitVec 6) (s : State) : Result :=
  scalar2 1 (fun a => lowBits (len.toNat + 1) (a >>> pos.toNat)) g rd rs1 s

/-- BFI of rs2's low bits into bits [pos + len : pos] of rs1 (R159). -/
def execBfi (g : BitVec 4) (rd rs1 rs2 : BitVec 5) (pos len : BitVec 6) (s : State) : Result :=
  scalar3 1 (insertBits pos.toNat (len.toNat + 1)) g rd rs1 rs2 s

/-- SEL by any c register, read at issue as a guard of the S class reads it (R159, R162). -/
def execSel (g : BitVec 4) (rd rs1 rs2 : BitVec 5) (cc : BitVec 3) (s : State) : Result :=
  .next (scalarBody g [rd, rs1, rs2] 1 rd (fun s => if s.ctrl.cNow cc.toNat then s.reg rs1 else s.reg rs2) s)

/-- ADDI with the signed 34-bit immediate (R160). -/
def execAddi (g : BitVec 4) (rd rs1 : BitVec 5) (imm : BitVec 34) (s : State) : Result := scalar2 1 (fun a => a + imm.signExtend 64) g rd rs1 s

/-- ANDI with the signed 34-bit immediate (R160). -/
def execAndi (g : BitVec 4) (rd rs1 : BitVec 5) (imm : BitVec 34) (s : State) : Result := scalar2 1 (fun a => a &&& imm.signExtend 64) g rd rs1 s

/-- ORI with the signed 34-bit immediate (R160). -/
def execOri (g : BitVec 4) (rd rs1 : BitVec 5) (imm : BitVec 34) (s : State) : Result := scalar2 1 (fun a => a ||| imm.signExtend 64) g rd rs1 s

/-- XORI with the signed 34-bit immediate (R160). -/
def execXori (g : BitVec 4) (rd rs1 : BitVec 5) (imm : BitVec 34) (s : State) : Result := scalar2 1 (fun a => a ^^^ imm.signExtend 64) g rd rs1 s

/-- SHLI (R160). -/
def execShli (g : BitVec 4) (rd rs1 : BitVec 5) (n : BitVec 6) (s : State) : Result := scalar2 1 (fun a => a <<< n.toNat) g rd rs1 s

/-- SHRI (R160). -/
def execShri (g : BitVec 4) (rd rs1 : BitVec 5) (n : BitVec 6) (s : State) : Result := scalar2 1 (fun a => a >>> n.toNat) g rd rs1 s

/-- SARI (R160). -/
def execSari (g : BitVec 4) (rd rs1 : BitVec 5) (n : BitVec 6) (s : State) : Result := scalar2 1 (fun a => a.sshiftRight n.toNat) g rd rs1 s

/-- LI: rd := sext(imm) (R161). -/
def execLi (g : BitVec 4) (rd : BitVec 5) (imm : BitVec 32) (s : State) : Result :=
  .next (scalarBody g [rd] 1 rd (fun _ => imm.signExtend 64) s)

/-- LIH: rd[63:32] := imm, the low half kept, read at issue (R161). -/
def execLih (g : BitVec 4) (rd : BitVec 5) (imm : BitVec 32) (s : State) : Result :=
  .next (scalarBody g [rd] 1 rd (fun s => imm ++ (s.reg rd).setWidth 32) s)

/-- ADDPC: the byte address of this syllable plus sext(imm) (R161). -/
def execAddpc (g : BitVec 4) (rd : BitVec 5) (imm : BitVec 32) (s : State) : Result :=
  .next (scalarBody g [rd] 1 rd (fun s => s.ctx.pc + imm.signExtend 64) s)

/-- The compare of CMP and CMPI: a condition pair after one control cycle (R162). -/
def compareBody (g : BitVec 4) (regs : List (BitVec 5)) (cd : BitVec 3) (val : State → Bool) (s : State) : State :=
  if s.guardC g then s.gate (s.regsOk regs) fun s => s.putPair cd (val s) else s

/-- CMP (R162). -/
def execCmp (g : BitVec 4) (cd : BitVec 3) (rs1 rs2 : BitVec 5) (cond : BitVec 4) (s : State) : Result :=
  .next (compareBody g [rs1, rs2] cd (fun s => condHolds cond.toNat (s.reg rs1) (s.reg rs2)) s)

/-- CMPI with the signed 30-bit immediate (R162). -/
def execCmpi (g : BitVec 4) (cd : BitVec 3) (rs1 : BitVec 5) (cond : BitVec 4) (imm : BitVec 30) (s : State) : Result :=
  .next (compareBody g [rs1] cd (fun s => condHolds cond.toNat (s.reg rs1) (imm.signExtend 64)) s)

/-- The registers a twin half names (R42). -/
def TwinHalf.regs (h : TwinHalf) : List (BitVec 5) :=
  if h.op = 0#5 then []
  else if h.op = 16#5 then if h.i = 1#1 then [h.rd] else [h.rd, h.rs1]
  else if h.i = 1#1 then [h.rd, h.rs1] else [h.rd, h.rs1, h.low.extractLsb' 7 5]

/-- The value of a twin half: its S-class equivalent with sext(imm) or rs2, MOV with i = 1 writing the immediate (R42). -/
def TwinHalf.value (h : TwinHalf) (s : State) : Word :=
  let b := if h.i = 1#1 then h.low.signExtend 64 else s.reg (h.low.extractLsb' 7 5)
  if h.op = 16#5 then if h.i = 1#1 then b else s.reg h.rs1 else scalarOp h.op.toNat (s.reg h.rs1) b

/-- Write the result of a twin half; on the X-stream its operation says which half it is (R38, R319). -/
def TwinHalf.put (h : TwinHalf) (second : Bool) (v : Word) (s : State) : State :=
  if h.op = 0#5 then s
  else match s.ctx.who with
    | .x => s.fly { s.op 0 (scalarLat h.op.toNat) (s.me.divisor 0) [s.xLand h.rd v] with half := second }
    | _ => s.putReg (scalarLat h.op.toNat) h.rd v

/-- TWIN: both halves read their sources at issue; the second half's value lands over the first's (R38, R42). -/
def execTwin (a b : TwinHalf) (s : State) : Result :=
  .next (s.gate (s.regsOk (TwinHalf.regs a ++ TwinHalf.regs b)) fun s =>
    TwinHalf.put b true (TwinHalf.value b s) (TwinHalf.put a false (TwinHalf.value a s) s))

end Sys2Proof.Machine
end

