-- ==== Sys2Proof/Machine/Vector.lean ====
section
/-! DEFINITION. The V class (R186 to R200): lane arithmetic, compares, conversions, reduction, flags and mesh sends. Every source is
read at issue and the result lands after its latency in vector cycles (R142, R48). -/

namespace Sys2Proof.Machine

/-! ### Lanes as codes and values -/

/-- The lanes of a row under a type, as codes (R72). -/
def codesOf (ty : Nat) (r : Row) : List Nat :=
  if ty < 2 then (lanes 32 32 r).map (·.toNat) else (lanes 16 64 r).map (·.toNat)

/-- A row from lane codes under a type. -/
def ofCodes (ty : Nat) (cs : List Nat) : Row :=
  if ty < 2 then ofLanes 32 (cs.map (BitVec.ofNat 32)) else ofLanes 16 (cs.map (BitVec.ofNat 16))

/-- A code as a signed integer of w bits. -/
def sInt (w c : Nat) : Int := (BitVec.ofNat w c).toInt

/-- Floating type codes: F32 0, B16 2 (R40). -/
def isFloat (ty : Nat) : Bool := ty == 0 || ty == 2

/-- The format of a floating type. -/
def tyFmt (ty : Nat) : Fmt := if ty = 0 then f32 else bf16

/-- The exact value of a lane (R72, R73). -/
def laneVal (ty c : Nat) : Val := if isFloat ty then (tyFmt ty).dec c else Val.ofInt (sInt (tyWidth ty) c)

/-- A code of an integer of w bits. -/
def intCode (w : Nat) (i : Int) : Nat := (toBits w i).toNat

/-- A value converted to a type in a mode (R87). -/
def toLane (ty rm : Nat) (v : Val) : Nat :=
  if isFloat ty then (tyFmt ty).enc rm v else intCode (tyWidth ty) (v.toIntSat rm (sMin (tyWidth ty)) (sMax (tyWidth ty)))

/-- The canonical NaN of a floating type (R74). DEDUCED, log entry 83. -/
def nanCode (ty : Nat) : Nat := (tyFmt ty).enc 0 .nan

/-- Lane by lane over three source rows; a missing source reads as zeros. -/
def zip3 (f : Nat → Nat → Nat → Nat) : List Nat → List Nat → List Nat → List Nat
  | a :: as, bs, cs => f a (bs.headD 0) (cs.headD 0) :: zip3 f as bs.tail cs.tail
  | [], _, _ => []

/-- A result row from up to three source rows, lane by lane. -/
def laneMap (f : Nat → Nat → Nat → Nat → Nat) (ty : Nat) (rs : List Row) : Row :=
  ofCodes ty (zip3 (f ty) (codesOf ty (rs.getD 0 0#1024)) (codesOf ty (rs.getD 1 0#1024)) (codesOf ty (rs.getD 2 0#1024)))

/-! ### The shared body -/

/-- The lanes of a layout that a guard selects (R36). -/
def State.lanesOn (s : State) (g : BitVec 4) (ty : Nat) : Word :=
  s.guardV g &&& BitVec.ofNat 64 (2 ^ tyLanes ty - 1)

/-- A V-class syllable that writes a row: every row named is held at issue and the checks of its entry are made whatever lanes the guard selects, the
sources are read, and the selected lanes land after lat vector cycles; with none selected nothing lands (R36, R132, R186). DEDUCED, log entry 11. -/
def State.vec (s : State) (g : BitVec 4) (lat : Nat) (vd : BitVec 10) (vs : List (BitVec 10)) (more : State → Chk)
    (f : Nat → List Row → State → Row) : State :=
  let d := s.vrow vd
  let rs := vs.map s.vrow
  let ty := s.me.rowType d
  let m := s.lanesOn g ty
  s.gate (((s.heldOk (d :: rs)).seq (more s)).seq (s.rowsGood rs)) fun s =>
    if m = 0#64 then s
    else s.fly { s.op 2 lat (s.me.divisor 1) [.rows [(d, laneMask (tyWidth ty) (tyLanes ty) m, f ty (rs.map s.me.row) s)]] with wide := true }

/-- A lane-by-lane form. -/
def vecLanes (lat : Nat) (g : BitVec 4) (vd : BitVec 10) (vs : List (BitVec 10)) (f : Nat → Nat → Nat → Nat → Nat) (s : State) : Result :=
  .next (s.vec g lat vd vs (fun _ => .ok) fun ty rs _ => laneMap f ty rs)

/-! ### Arithmetic (R187, R188) -/

/-- Floating lanes: the exact result rounded once; integer lanes: the exact result wrapped or saturated. -/
def arith (rm : Nat) (sat : Bool) (ff : Val → Val → Val → Val) (fi : Int → Int → Int → Int) (ty a b c : Nat) : Nat :=
  let w := tyWidth ty
  if isFloat ty then (tyFmt ty).enc rm (ff (laneVal ty a) (laneVal ty b) (laneVal ty c))
  else
    let r := fi (sInt w a) (sInt w b) (sInt w c)
    intCode w (if sat then clampI (sMin w) (sMax w) r else r)

/-- VADD (R188). -/
def execVadd (g : BitVec 4) (vd va vb : BitVec 10) (rnd : BitVec 4) (s : State) : Result :=
  vecLanes 4 g vd [va, vb] (arith rnd.toNat false (fun a b _ => Val.add rnd.toNat a b) (fun a b _ => a + b)) s

/-- VSUB (R188). -/
def execVsub (g : BitVec 4) (vd va vb : BitVec 10) (rnd : BitVec 4) (s : State) : Result :=
  vecLanes 4 g vd [va, vb] (arith rnd.toNat false (fun a b _ => Val.add rnd.toNat a b.neg) (fun a b _ => a - b)) s

/-- VMUL (R188). -/
def execVmul (g : BitVec 4) (vd va vb : BitVec 10) (rnd : BitVec 4) (s : State) : Result :=
  vecLanes 6 g vd [va, vb] (arith rnd.toNat true (fun a b _ => Val.mul a b) (fun a b _ => a * b)) s

/-- VFMA (R188). -/
def execVfma (g : BitVec 4) (vd va vb vc : BitVec 10) (rnd : BitVec 4) (s : State) : Result :=
  vecLanes 6 g vd [va, vb, vc] (arith rnd.toNat true (fun a b c => Val.add rnd.toNat (Val.mul a b) c) (fun a b c => a * b + c)) s

/-- VFMS (R188). -/
def execVfms (g : BitVec 4) (vd va vb vc : BitVec 10) (rnd : BitVec 4) (s : State) : Result :=
  vecLanes 6 g vd [va, vb, vc] (arith rnd.toNat true (fun a b c => Val.add rnd.toNat (Val.mul a b) c.neg) (fun a b c => a * b - c)) s

/-- A finite result that would round to an infinity gives the largest finite value of its sign (R188). -/
def satFinite (f : Fmt) (rm : Nat) (v : Val) : Nat :=
  match v with
  | .fin d => if f.enc rm v % 2 ^ (f.width - 1) = f.top then f.signed d.neg (f.top - 1) else f.enc rm v
  | _ => f.enc rm v

/-- Saturating sum of lanes (R188). -/
def addSat (rm : Nat) (minus : Bool) (ty a b _c : Nat) : Nat :=
  let w := tyWidth ty
  if isFloat ty then satFinite (tyFmt ty) rm (Val.add rm (laneVal ty a) (if minus then (laneVal ty b).neg else laneVal ty b))
  else intCode w (clampI (sMin w) (sMax w) (if minus then sInt w a - sInt w b else sInt w a + sInt w b))

/-- VADDS (R188). -/
def execVadds (g : BitVec 4) (vd va vb : BitVec 10) (rnd : BitVec 4) (s : State) : Result := vecLanes 4 g vd [va, vb] (addSat rnd.toNat false) s

/-- VSUBS (R188). -/
def execVsubs (g : BitVec 4) (vd va vb : BitVec 10) (rnd : BitVec 4) (s : State) : Result := vecLanes 4 g vd [va, vb] (addSat rnd.toNat true) s

/-- Order of values with −0 below +0 (R188, R196). -/
def Val.below (a b : Val) : Bool :=
  Val.lt a b || (match a, b with | .fin x, .fin y => x.man == 0 && y.man == 0 && x.neg && !y.neg | _, _ => false)

/-- The lesser or the greater of two lanes, without NaN (R188). -/
def pick (ty : Nat) (lesser : Bool) (a b : Nat) : Nat :=
  let lt := if isFloat ty then Val.below (laneVal ty a) (laneVal ty b) else decide (sInt (tyWidth ty) a < sInt (tyWidth ty) b)
  if lt == lesser then a else b

/-- The canonical NaN when an operand is NaN (R188). -/
def orNan (ty : Nat) (ops : List Nat) (r : Nat) : Nat :=
  if isFloat ty && ops.any (fun x => laneVal ty x == .nan) then nanCode ty else r

/-- VMIN (R188). -/
def execVmin (g : BitVec 4) (vd va vb : BitVec 10) (s : State) : Result :=
  vecLanes 4 g vd [va, vb] (fun ty a b _ => orNan ty [a, b] (pick ty true a b)) s

/-- VMAX (R188). -/
def execVmax (g : BitVec 4) (vd va vb : BitVec 10) (s : State) : Result :=
  vecLanes 4 g vd [va, vb] (fun ty a b _ => orNan ty [a, b] (pick ty false a b)) s

/-- VCLAMP: min(max(a, lo), hi) (R188). -/
def execVclamp (g : BitVec 4) (vd va vb vc : BitVec 10) (s : State) : Result :=
  vecLanes 4 g vd [va, vb, vc] (fun ty a b c => orNan ty [a, b, c] (pick ty true (pick ty false a b) c)) s

/-- VABS (R188). -/
def execVabs (g : BitVec 4) (vd va : BitVec 10) (s : State) : Result :=
  vecLanes 4 g vd [va] (fun ty a _ _ =>
    let w := tyWidth ty
    if isFloat ty then orNan ty [a] (a % 2 ^ (w - 1)) else intCode w (min (sMax w) (sInt w a).natAbs)) s

/-- VNEG (R188). -/
def execVneg (g : BitVec 4) (vd va : BitVec 10) (s : State) : Result :=
  vecLanes 4 g vd [va] (fun ty a _ _ =>
    let w := tyWidth ty
    if isFloat ty then orNan ty [a] ((a + 2 ^ (w - 1)) % 2 ^ w) else intCode w (min (sMax w) (-(sInt w a)))) s

/-- VMULLO: the low w bits of the product (R188). -/
def execVmullo (g : BitVec 4) (vd va vb : BitVec 10) (s : State) : Result :=
  vecLanes 6 g vd [va, vb] (fun ty a b _ => a * b % 2 ^ tyWidth ty) s

/-- VMULH: bits 2w − 1 to w of the signed (0) or unsigned (1) product (R188). -/
def execVmulh (g : BitVec 4) (vd va vb : BitVec 10) (u : BitVec 4) (s : State) : Result :=
  vecLanes 6 g vd [va, vb] (fun ty a b _ =>
    let w := tyWidth ty
    if u = 0#4 then intCode w (sInt w a * sInt w b / (2 ^ w : Nat)) else a * b / 2 ^ w) s

/-- VAND (R188). -/
def execVand (g : BitVec 4) (vd va vb : BitVec 10) (s : State) : Result := vecLanes 4 g vd [va, vb] (fun _ a b _ => a &&& b) s

/-- VOR (R188). -/
def execVor (g : BitVec 4) (vd va vb : BitVec 10) (s : State) : Result := vecLanes 4 g vd [va, vb] (fun _ a b _ => a ||| b) s

/-- VXOR (R188). -/
def execVxor (g : BitVec 4) (vd va vb : BitVec 10) (s : State) : Result := vecLanes 4 g vd [va, vb] (fun _ a b _ => a ^^^ b) s

/-- VNOT (R188). -/
def execVnot (g : BitVec 4) (vd va : BitVec 10) (s : State) : Result :=
  vecLanes 4 g vd [va] (fun ty a _ _ => 2 ^ tyWidth ty - 1 - a) s

/-! ### Shifts and rotation of lanes (R189) -/

/-- VRSHR: floor((a + 2^(n-1)) / 2^n) with a signed (R189). -/
def execVrshr (g : BitVec 4) (vd va : BitVec 10) (n : BitVec 6) (s : State) : Result :=
  vecLanes 4 g vd [va] (fun ty a _ _ =>
    let w := tyWidth ty
    if n = 0#6 then a else intCode w ((sInt w a + (2 ^ (n.toNat - 1) : Nat)) / (2 ^ n.toNat : Nat))) s

/-- VSHL (R189). -/
def execVshl (g : BitVec 4) (vd va : BitVec 10) (n : BitVec 6) (s : State) : Result :=
  vecLanes 4 g vd [va] (fun ty a _ _ => a * 2 ^ n.toNat % 2 ^ tyWidth ty) s

/-- VSHR (R189). -/
def execVshr (g : BitVec 4) (vd va : BitVec 10) (n : BitVec 6) (s : State) : Result := vecLanes 4 g vd [va] (fun _ a _ _ => a / 2 ^ n.toNat) s

/-- VSAR (R189). -/
def execVsar (g : BitVec 4) (vd va : BitVec 10) (n : BitVec 6) (s : State) : Result :=
  vecLanes 4 g vd [va] (fun ty a _ _ => intCode (tyWidth ty) (sInt (tyWidth ty) a / (2 ^ n.toNat : Nat))) s

/-- VROTL: lane (k + n) mod L (R189). -/
def execVrotl (g : BitVec 4) (vd va : BitVec 10) (n : BitVec 6) (s : State) : Result :=
  .next (s.vec g 4 vd [va] (fun _ => .ok) fun ty rs _ =>
    let cs := codesOf ty (rs.getD 0 0#1024)
    ofCodes ty ((List.range (tyLanes ty)).map fun k => cs.getD ((k + n.toNat) % tyLanes ty) 0))

/-! ### Immediates and broadcasts (R190) -/

/-- The same code in every lane. -/
def splat (ty c : Nat) : Row := ofCodes ty (List.replicate (tyLanes ty) c)

/-- VMOVI (R190). -/
def execVmovi (g : BitVec 4) (vd : BitVec 10) (imm : BitVec 24) (s : State) : Result :=
  .next (s.vec g 4 vd [] (fun _ => .ok) fun ty _ _ =>
    splat ty (match ty with
      | 0 => imm.toNat * 256
      | 1 => intCode 32 imm.toInt
      | 2 => imm.toNat % 65536
      | _ => intCode 16 (clampI (sMin 16) (sMax 16) imm.toInt)))

/-- VBC: the low bits of a scalar read at issue (R190), whose name counts where the guard lets the syllable act on a lane (R149). -/
def execVbc (g : BitVec 4) (vd : BitVec 10) (rs : BitVec 5) (s : State) : Result :=
  .next (s.vec g 4 vd [] (fun s => if s.lanesOn g (s.me.rowType (s.vrow vd)) = 0#64 then .ok else s.regsOk [rs]) fun ty _ s => splat ty ((s.reg rs).toNat % 2 ^ tyWidth ty))

/-- VIOTA: sext(imm) + k, converted under RNE or wrapped (R190). -/
def execViota (g : BitVec 4) (vd : BitVec 10) (imm : BitVec 24) (s : State) : Result :=
  .next (s.vec g 4 vd [] (fun _ => .ok) fun ty _ _ =>
    ofCodes ty ((List.range (tyLanes ty)).map fun (k : Nat) =>
      if isFloat ty then (tyFmt ty).enc 0 (Val.ofInt (imm.toInt + k)) else intCode (tyWidth ty) (imm.toInt + k)))

/-! ### Compares and selection (R191, R192) -/

/-- A 64-bit mask from the lanes that satisfy a test. -/
def bitsWhere (n : Nat) (f : Nat → Bool) : Word :=
  BitVec.ofNat 64 ((List.range n).foldl (fun acc k => if f k then acc + 2 ^ k else acc) 0)

/-- Compare two lanes (R191). -/
def laneCmp (cond ty a b : Nat) : Bool :=
  if isFloat ty then condFloat cond (laneVal ty a) (laneVal ty b)
  else condHolds cond (BitVec.ofNat (tyWidth ty) a) (BitVec.ofNat (tyWidth ty) b)

/-- VCMP: a predicate pair on the guarded lanes; bits L to 63 clear whatever the guard (R191). DEDUCED, log entry 11. -/
def execVcmp (g pd : BitVec 4) (va vb : BitVec 10) (cond : BitVec 4) (s : State) : Result :=
  let ra := s.vrow va
  let rb := s.vrow vb
  let ty := s.me.rowType ra
  let m := s.lanesOn g ty
  .next (s.gate ((s.heldOk [ra, rb]).seq (s.rowsGood [ra, rb])) fun s =>
    let a := codesOf ty (s.me.row ra)
    let b := codesOf ty (s.me.row rb)
    let t := bitsWhere (tyLanes ty) fun k => laneCmp cond.toNat ty (a.getD k 0) (b.getD k 0)
    let high := ~~~ BitVec.ofNat 64 (2 ^ tyLanes ty - 1)
    s.fly (s.op 2 4 (s.me.divisor 1) [.preg pd.toNat (m ||| high) (t &&& m), .preg (pd.toNat + 1) (m ||| high) (~~~t &&& m)]))

/-- VSEL (R192). -/
def execVsel (g : BitVec 4) (vd va vb : BitVec 10) (ps : BitVec 4) (s : State) : Result :=
  .next (s.vec g 4 vd [va, vb] (fun _ => .ok) fun ty rs s =>
    blend (laneMask (tyWidth ty) (tyLanes ty) (s.me.pred ps.toNat)) (rs.getD 1 0#1024) (rs.getD 0 0#1024))

/-- VMOV (R192). -/
def execVmov (g : BitVec 4) (vd va : BitVec 10) (s : State) : Result :=
  .next (s.vec g 4 vd [va] (fun _ => .ok) fun _ rs _ => rs.getD 0 0#1024)

/-- VPERM: lane i of va, or lane i − L of vb, with i := vi's lane mod 2L (R192). -/
def execVperm (g : BitVec 4) (vd va vi vb : BitVec 10) (s : State) : Result :=
  .next (s.vec g 6 vd [va, vi, vb] (fun _ => .ok) fun ty rs _ =>
    let all := codesOf ty (rs.getD 0 0#1024) ++ codesOf ty (rs.getD 2 0#1024)
    ofCodes ty ((codesOf ty (rs.getD 1 0#1024)).map fun i => all.getD (i % (2 * tyLanes ty)) 0))

/-! ### Conversions (R193 to R195) -/

/-- VECTOR-TYPE unless a condition holds. -/
def typed (p : Bool) : Chk := Chk.need p 0x0D

/-- A value rounded to an integral value of the same floating type; a zero keeps the sign (R193, R86). -/
def roundIntegral (ty rm c : Nat) : Nat :=
  match laneVal ty c with
  | .fin d =>
    let i := d.roundInt rm
    if i = 0 then (tyFmt ty).signed d.neg 0 else (tyFmt ty).enc 0 (Val.ofInt i)
  | v => (tyFmt ty).enc 0 v

/-- One lane of VCVT from type st to type ty (R193). -/
def cvtLane (st ty rm c : Nat) : Nat :=
  if st = ty then if isFloat ty then roundIntegral ty rm c else c else toLane ty rm (laneVal st c)

/-- VCVT (R193). -/
def execVcvt (g : BitVec 4) (vd va : BitVec 10) (rnd : BitVec 4) (s : State) : Result :=
  let st := s.me.rowType (s.vrow va)
  .next (s.vec g 4 vd [va] (fun s => typed (tyLanes st == tyLanes (s.me.rowType (s.vrow vd)))) fun ty rs _ =>
    ofCodes ty ((codesOf st (rs.getD 0 0#1024)).map (cvtLane st ty rnd.toNat)))

/-- A value converted to a narrow byte: 1 F8E4, 2 F8E5, 3 N8, 4 I8 (R87, R194). -/
def toByte (tg rm : Nat) (v : Val) : Byte :=
  match tg with
  | 1 => BitVec.ofNat 8 (f8e4.encSat rm v)
  | 2 => BitVec.ofNat 8 (f8e5.encSat rm v)
  | 3 => BitVec.ofInt 8 (v.toIntSat rm 0 255)
  | _ => BitVec.ofInt 8 (v.toIntSat rm (-128) 127)

/-- The value of a narrow byte (R76, R77, R194). -/
def ofByte (tg : Nat) (b : Byte) : Val :=
  match tg with
  | 1 => f8e4.dec b.toNat
  | 2 => f8e5.dec b.toNat
  | 3 => Val.ofInt b.toNat
  | _ => Val.ofInt b.toInt

/-- VPACK (R194). -/
def execVpack (g : BitVec 4) (vd va vb : BitVec 10) (tg rnd : BitVec 4) (s : State) : Result :=
  let sa := s.me.rowType (s.vrow va)
  let sb := s.me.rowType (s.vrow vb)
  .next (s.vec g 4 vd [va, vb]
    (fun s => typed (tyLanes sa == tyLanes sb && (tg != 0#4 || (sa < 2 && sb < 2 && 2 ≤ s.me.rowType (s.vrow vd)))))
    fun ty rs _ =>
      let vs := (codesOf sa (rs.getD 0 0#1024)).map (laneVal sa) ++ (codesOf sb (rs.getD 1 0#1024)).map (laneVal sb)
      if tg = 0#4 then ofCodes ty (vs.map (toLane ty rnd.toNat)) else rowOf (vs.map (toByte tg.toNat rnd.toNat)))

/-- VUNPK (R194): to F32 exactly; to I32, integers exactly and floating elements rounded and saturated. -/
def execVunpk (g : BitVec 4) (vd va : BitVec 10) (pt : BitVec 2) (tg rnd : BitVec 4) (s : State) : Result :=
  let sa := s.me.rowType (s.vrow va)
  .next (s.vec g 4 vd [va] (fun s => typed (s.me.rowType (s.vrow vd) < 2 && (tg != 0#4 || 2 ≤ sa))) fun ty rs _ =>
    let r := rs.getD 0 0#1024
    let vs := if tg = 0#4 then (((codesOf sa r).drop (32 * pt.toNat)).take 32).map (laneVal sa)
      else (((rowBytes r).drop (32 * pt.toNat)).take 32).map (ofByte tg.toNat)
    ofCodes ty (vs.map (toLane ty rnd.toNat)))

/-- VQBX (R81, R195). -/
def execVqbx (g : BitVec 4) (vd va : BitVec 10) (bf rnd : BitVec 4) (s : State) : Result :=
  let sa := s.me.rowType (s.vrow va)
  .next (s.vec g 8 vd [va] (fun _ => typed (isFloat sa)) fun _ rs _ =>
    let vs := (codesOf sa (rs.getD 0 0#1024)).map (laneVal sa)
    rowOf (bxQuant rnd.toNat bf.toNat (vs.take 32) ++ (if sa = 2 then bxQuant rnd.toNat bf.toNat (vs.drop 32) else [])))

/-- VDQBX (R80, R195). -/
def execVdqbx (g : BitVec 4) (vd va : BitVec 10) (bf : BitVec 4) (s : State) : Result :=
  .next (s.vec g 6 vd [va] (fun s => typed (isFloat (s.me.rowType (s.vrow vd)))) fun ty rs _ =>
    let b := (rs.getD 0 0#1024).toNat
    let n := bxBytes bf.toNat
    ofCodes ty ((List.range (tyLanes ty)).map fun k =>
      bxDequant (tyFmt ty) bf.toNat (b / 2 ^ (8 * n * (k / 32)) % 2 ^ (8 * n)) (k % 32)))

/-! ### Reduction (R88, R196) -/

/-- The pairwise tree of rounded FP32 additions (R88). -/
def treeF32 (rm : Nat) (vs : List Val) : Val :=
  (treeFold (fun a b => f32.dec (f32.enc rm (Val.add rm a b))) 6 vs).headD (Val.ofInt 0)

/-- The result of VRED over the lane codes: op 0 sum, 1 max, 2 min (R196). -/
def reduce (ty rm op : Nat) (cs : List Nat) : Nat :=
  let w := tyWidth ty
  if op = 0 then
    if isFloat ty then (tyFmt ty).enc rm (treeF32 rm (cs.map (laneVal ty)))
    else intCode w (clampI (sMin w) (sMax w) ((cs.map (sInt w)).foldl (· + ·) 0))
  else orNan ty cs (cs.tail.foldl (pick ty (op == 2)) (cs.headD 0))

/-- VRED: all lanes whatever the guard; lane 0 the result and the others zero (R196). -/
def execVred (g : BitVec 4) (vd va : BitVec 10) (op : BitVec 2) (rnd : BitVec 4) (s : State) : Result :=
  .next (s.vec g 10 vd [va] (fun _ => .ok) fun ty rs _ =>
    ofCodes ty [reduce ty rnd.toNat op.toNat (codesOf ty (rs.getD 0 0#1024))])

/-! ### Flags and sends (R197, R199, R200) -/

/-- VFLAG: over the 64 bits of a predicate under the guard as a mask; the form that writes a count checks its frame whatever the mask (R149, R197).
DEDUCED, log entry 100. -/
def execVflag (g : BitVec 4) (dst : BitVec 5) (ps : BitVec 4) (kd : BitVec 2) (s : State) : Result :=
  let m := s.guardV g
  let v := s.me.pred ps.toNat &&& m
  let f := match kd.toNat with | 0 => v != 0#64 | 1 => v == m | _ => v == 0#64
  .next (if kd = 3#2 then
    s.gate (s.regsOk [dst]) fun s => s.fly (s.op 2 5 (s.me.divisor 1) [s.xLand dst (BitVec.ofNat 64 (popcount v))])
  else
    let c := dst.toNat % 8
    s.fly (s.op 2 5 (s.me.divisor 1) [.creg c f, .creg (c + 1) (!f)]))

/-- The core a VSEND of a direction reaches, when it is a core of the group (R199). -/
def State.meshPeer (s : State) (dir : Nat) : Option Nat :=
  let n := s.ctx.core
  let d := coreDie n
  let x := coreX n
  let y := coreY n
  let r : Option Nat := match dir with
    | 0 => if x + 1 < 12 then some (coreAt d (x + 1) y) else none
    | 1 => if 0 < x then some (coreAt d (x - 1) y) else none
    | 2 => if y + 1 < 8 then some (coreAt d x (y + 1)) else none
    | 3 => if 0 < y then some (coreAt d x (y - 1)) else none
    | _ => some (coreAt (1 - d) x y)
  match s.grpAt n, r with
  | some g, some c => if g.cores.contains c then some c else none
  | _, _ => none

/-- Reservations of a q7 stand in the order of arrival ticks, then of senders (R200). -/
def sentBefore (present sender : Nat) (h : Entry) : Bool :=
  h.old || h.present < present || (h.present == present && decide ((h.src.getD (0, 0)).1 ≤ sender))

/-- Put a reserved q7 entry in its place. -/
def insertSent (e : Entry) : List Entry → List Entry
  | [] => [e]
  | h :: t => if sentBefore e.present (e.src.getD (0, 0)).1 h then h :: insertSent e t else e :: h :: t

/-- Entries of a q7 that are reserved at a sender's issue instant: those reserved before it, those of them that are popped after it among them, in global
time (R200).
Both clocks are given `hops` by hop counts, a core h hops away running 3·h ticks behind. DEDUCED, log entry 8. -/
def Core.sentHeld (c : Core) (hops present sender senderHops senderTick : Nat) : Nat :=
  ((c.queue 7).es.filter (sentBefore present sender)).length + 
    (c.freed7.filter fun p => decide (senderTick + 3 * senderHops < p.1 + 3 * hops) && sentBefore present sender p.2).length

/-- Reserve an entry of q7 for a row that arrives at a local tick (R199, R200); a row that came across the dies before its sender's tick has
its entry already. DEDUCED, log entry 7. DEDUCED, log entry 8. -/
def Core.reserveSent (c : Core) (sender iseq present : Nat) : Core :=
  let u := c.queue 7
  if c.early.contains (sender, iseq) then { c with early := c.early.erase (sender, iseq) }
  else c.setQueue 7 { u with es := insertSent { filled := false, present := present, val := 0#1024, src := some (sender, iseq) } u.es }

/-- Note that a row is here before its sender's tick. DEDUCED, log entry 7. -/
def Core.keepEarly (c : Core) (sender iseq : Nat) : Core := { c with early := (sender, iseq) :: c.early }

/-- VSEND (R199): the row lands in the receiver's q7 three ticks after issue on the sender's clock. Its receiver is looked for first, as R199's
pseudocode has it, also when its guard selects no lane and it then does nothing. DEDUCED, log entry 11. -/
def execVsend (g : BitVec 4) (va : BitVec 10) (dir : BitVec 3) (s : State) : Result :=
  let n := s.ctx.core
  let r := s.vrow va
  let ty := s.me.rowType r
  let m := s.lanesOn g ty
  .next (match s.meshPeer dir.toNat, s.grpAt n with
    | some peer, some grp =>
      if m = 0#64 then s
      else
        let present := s.ctx.tick + 3 + 3 * grp.hops n - 3 * grp.hops peer
        let held := (s.core peer).sentHeld (grp.hops peer) present n (grp.hops n) s.ctx.tick
        s.gate (((Chk.need (s.ctx.room || decide (held < 16)) 0x09).seq (s.heldOk [r])).seq (s.rowsGood [r])) fun s =>
        let row := s.me.row r &&& laneMask (tyWidth ty) (tyLanes ty) m
        let s := s.modCore peer fun c => c.reserveSent n s.ctx.iseq present
        s.fly { s.op 2 3 1 [.mesh peer row] with wide := true }
    | _, _ => s.raise { cause := 0x14 })

end Sys2Proof.Machine
end

