-- ==== Sys2Proof/Machine/Dispatch.lean ====
section
/-! DEFINITION. The meaning of every instruction and machine event, one arm per constructor. -/

namespace Sys2Proof.Machine

def exec (i : Instr) (s : State) : Host.Outcome State Fault Refusal :=
  match i with
  | .add g rd rs1 rs2 => Sys2Proof.Machine.execAdd g rd rs1 rs2 s
  | .sub g rd rs1 rs2 => Sys2Proof.Machine.execSub g rd rs1 rs2 s
  | .mul g rd rs1 rs2 => Sys2Proof.Machine.execMul g rd rs1 rs2 s
  | .mulh g rd rs1 rs2 => Sys2Proof.Machine.execMulh g rd rs1 rs2 s
  | .mulhn g rd rs1 rs2 => Sys2Proof.Machine.execMulhn g rd rs1 rs2 s
  | .div g rd rs1 rs2 => Sys2Proof.Machine.execDiv g rd rs1 rs2 s
  | .divn g rd rs1 rs2 => Sys2Proof.Machine.execDivn g rd rs1 rs2 s
  | .rem g rd rs1 rs2 => Sys2Proof.Machine.execRem g rd rs1 rs2 s
  | .remn g rd rs1 rs2 => Sys2Proof.Machine.execRemn g rd rs1 rs2 s
  | .and g rd rs1 rs2 => Sys2Proof.Machine.execAnd g rd rs1 rs2 s
  | .or g rd rs1 rs2 => Sys2Proof.Machine.execOr g rd rs1 rs2 s
  | .xor g rd rs1 rs2 => Sys2Proof.Machine.execXor g rd rs1 rs2 s
  | .andn g rd rs1 rs2 => Sys2Proof.Machine.execAndn g rd rs1 rs2 s
  | .shl g rd rs1 rs2 => Sys2Proof.Machine.execShl g rd rs1 rs2 s
  | .shr g rd rs1 rs2 => Sys2Proof.Machine.execShr g rd rs1 rs2 s
  | .sar g rd rs1 rs2 => Sys2Proof.Machine.execSar g rd rs1 rs2 s
  | .rotr g rd rs1 rs2 => Sys2Proof.Machine.execRotr g rd rs1 rs2 s
  | .min g rd rs1 rs2 => Sys2Proof.Machine.execMin g rd rs1 rs2 s
  | .max g rd rs1 rs2 => Sys2Proof.Machine.execMax g rd rs1 rs2 s
  | .minn g rd rs1 rs2 => Sys2Proof.Machine.execMinn g rd rs1 rs2 s
  | .maxn g rd rs1 rs2 => Sys2Proof.Machine.execMaxn g rd rs1 rs2 s
  | .clz g rd rs1 => Sys2Proof.Machine.execClz g rd rs1 s
  | .ctz g rd rs1 => Sys2Proof.Machine.execCtz g rd rs1 s
  | .popc g rd rs1 => Sys2Proof.Machine.execPopc g rd rs1 s
  | .mov g rd rs1 => Sys2Proof.Machine.execMov g rd rs1 s
  | .sext g rd rs1 len => Sys2Proof.Machine.execSext g rd rs1 len s
  | .zext g rd rs1 len => Sys2Proof.Machine.execZext g rd rs1 len s
  | .bfx g rd rs1 pos len => Sys2Proof.Machine.execBfx g rd rs1 pos len s
  | .bfi g rd rs1 rs2 pos len => Sys2Proof.Machine.execBfi g rd rs1 rs2 pos len s
  | .sel g rd rs1 rs2 cc => Sys2Proof.Machine.execSel g rd rs1 rs2 cc s
  | .addi g rd rs1 imm => Sys2Proof.Machine.execAddi g rd rs1 imm s
  | .andi g rd rs1 imm => Sys2Proof.Machine.execAndi g rd rs1 imm s
  | .ori g rd rs1 imm => Sys2Proof.Machine.execOri g rd rs1 imm s
  | .xori g rd rs1 imm => Sys2Proof.Machine.execXori g rd rs1 imm s
  | .shli g rd rs1 n => Sys2Proof.Machine.execShli g rd rs1 n s
  | .shri g rd rs1 n => Sys2Proof.Machine.execShri g rd rs1 n s
  | .sari g rd rs1 n => Sys2Proof.Machine.execSari g rd rs1 n s
  | .li g rd imm => Sys2Proof.Machine.execLi g rd imm s
  | .lih g rd imm => Sys2Proof.Machine.execLih g rd imm s
  | .addpc g rd imm => Sys2Proof.Machine.execAddpc g rd imm s
  | .cmp g cd rs1 rs2 cond => Sys2Proof.Machine.execCmp g cd rs1 rs2 cond s
  | .cmpi g cd rs1 cond imm => Sys2Proof.Machine.execCmpi g cd rs1 cond imm s
  | .twin a b => Sys2Proof.Machine.execTwin a b s
  | .nop g => Sys2Proof.Machine.execNop g s
  | .pbr g bd off => Sys2Proof.Machine.execPbr g bd off s
  | .pbrx g bd rs => Sys2Proof.Machine.execPbrx g bd rs s
  | .br g bd => Sys2Proof.Machine.execBr g bd s
  | .call g bd fr => Sys2Proof.Machine.execCall g bd fr s
  | .ret g => Sys2Proof.Machine.execRet g s
  | .loop g lv stop trip => Sys2Proof.Machine.execLoop g lv stop trip s
  | .loopx g lv stop rs => Sys2Proof.Machine.execLoopx g lv stop rs s
  | .loopR g lv stop stg vb sm trip => Sys2Proof.Machine.execLoopR g lv stop stg vb sm trip s
  | .loopxR g lv stop stg vb sm rs => Sys2Proof.Machine.execLoopxR g lv stop stg vb sm rs s
  | .lexit g lv => Sys2Proof.Machine.execLexit g lv s
  | .align g => Sys2Proof.Machine.execAlign g s
  | .contour g id => Sys2Proof.Machine.execContour g id s
  | .wait g n => Sys2Proof.Machine.execWait g n s
  | .clkdiv g rs => Sys2Proof.Machine.execClkdiv g rs s
  | .mfs g rd sys => Sys2Proof.Machine.execMfs g rd sys s
  | .mts g rs sys => Sys2Proof.Machine.execMts g rs sys s
  | .exit g => Sys2Proof.Machine.execExit g s
  | .trap g code => Sys2Proof.Machine.execTrap g code s
  | .bkpt g code => Sys2Proof.Machine.execBkpt g code s
  | .trmark g tag => Sys2Proof.Machine.execTrmark g tag s
  | .fix g => Sys2Proof.Machine.execFix g s
  | .resume g rs1 => Sys2Proof.Machine.execResume g rs1 s
  | .svchk g rd rs1 => Sys2Proof.Machine.execSvchk g rd rs1 s
  | .vadd g vd va vb rnd => Sys2Proof.Machine.execVadd g vd va vb rnd s
  | .vsub g vd va vb rnd => Sys2Proof.Machine.execVsub g vd va vb rnd s
  | .vmul g vd va vb rnd => Sys2Proof.Machine.execVmul g vd va vb rnd s
  | .vfma g vd va vb vc rnd => Sys2Proof.Machine.execVfma g vd va vb vc rnd s
  | .vfms g vd va vb vc rnd => Sys2Proof.Machine.execVfms g vd va vb vc rnd s
  | .vmin g vd va vb => Sys2Proof.Machine.execVmin g vd va vb s
  | .vmax g vd va vb => Sys2Proof.Machine.execVmax g vd va vb s
  | .vabs g vd va => Sys2Proof.Machine.execVabs g vd va s
  | .vneg g vd va => Sys2Proof.Machine.execVneg g vd va s
  | .vadds g vd va vb rnd => Sys2Proof.Machine.execVadds g vd va vb rnd s
  | .vsubs g vd va vb rnd => Sys2Proof.Machine.execVsubs g vd va vb rnd s
  | .vmullo g vd va vb => Sys2Proof.Machine.execVmullo g vd va vb s
  | .vmulh g vd va vb u => Sys2Proof.Machine.execVmulh g vd va vb u s
  | .vrshr g vd va n => Sys2Proof.Machine.execVrshr g vd va n s
  | .vshl g vd va n => Sys2Proof.Machine.execVshl g vd va n s
  | .vshr g vd va n => Sys2Proof.Machine.execVshr g vd va n s
  | .vsar g vd va n => Sys2Proof.Machine.execVsar g vd va n s
  | .vand g vd va vb => Sys2Proof.Machine.execVand g vd va vb s
  | .vor g vd va vb => Sys2Proof.Machine.execVor g vd va vb s
  | .vxor g vd va vb => Sys2Proof.Machine.execVxor g vd va vb s
  | .vnot g vd va => Sys2Proof.Machine.execVnot g vd va s
  | .vcmp g pd va vb cond => Sys2Proof.Machine.execVcmp g pd va vb cond s
  | .vsel g vd va vb ps => Sys2Proof.Machine.execVsel g vd va vb ps s
  | .vmov g vd va => Sys2Proof.Machine.execVmov g vd va s
  | .vmovi g vd imm => Sys2Proof.Machine.execVmovi g vd imm s
  | .vbc g vd rs => Sys2Proof.Machine.execVbc g vd rs s
  | .viota g vd imm => Sys2Proof.Machine.execViota g vd imm s
  | .vperm g vd va vi vb => Sys2Proof.Machine.execVperm g vd va vi vb s
  | .vrotl g vd va n => Sys2Proof.Machine.execVrotl g vd va n s
  | .vcvt g vd va rnd => Sys2Proof.Machine.execVcvt g vd va rnd s
  | .vpack g vd va vb tg rnd => Sys2Proof.Machine.execVpack g vd va vb tg rnd s
  | .vunpk g vd va pt tg rnd => Sys2Proof.Machine.execVunpk g vd va pt tg rnd s
  | .vqbx g vd va bf rnd => Sys2Proof.Machine.execVqbx g vd va bf rnd s
  | .vdqbx g vd va bf => Sys2Proof.Machine.execVdqbx g vd va bf s
  | .vred g vd va op rnd => Sys2Proof.Machine.execVred g vd va op rnd s
  | .vflag g dst ps kd => Sys2Proof.Machine.execVflag g dst ps kd s
  | .vclamp g vd va vb vc => Sys2Proof.Machine.execVclamp g vd va vb vc s
  | .vsend g va dir => Sys2Proof.Machine.execVsend g va dir s
  | .fmt g rs => Sys2Proof.Machine.execFmt g rs s
  | .fmti g t => Sys2Proof.Machine.execFmti g t s
  | .acq g n ty z => Sys2Proof.Machine.execAcq g n ty z s
  | .arel g n => Sys2Proof.Machine.execArel g n s
  | .oclaim g n => Sys2Proof.Machine.execOclaim g n s
  | .orel g n => Sys2Proof.Machine.execOrel g n s
  | .owr g o row vs => Sys2Proof.Machine.execOwr g o row vs s
  | .lgb g w dl l sk src tkop tkch => Sys2Proof.Machine.execLgb g w dl l sk src tkop tkch s
  | .lgbc g w dl l sk src tkop tkch => Sys2Proof.Machine.execLgbc g w dl l sk src tkop tkch s
  | .lginv g l n => Sys2Proof.Machine.execLginv g l n s
  | .lgsave g l n o pos => Sys2Proof.Machine.execLgsave g l n o pos s
  | .lgload g l n o pos => Sys2Proof.Machine.execLgload g l n o pos s
  | .lgsum g l n vd => Sys2Proof.Machine.execLgsum g l n vd s
  | .mlu g w dl a l o seg tkop tkch => Sys2Proof.Machine.execMlu g w dl a l o seg tkop tkch s
  | .mluc g w dl a l o seg tkop tkch => Sys2Proof.Machine.execMluc g w dl a l o seg tkop tkch s
  | .mzero g w dl a tkop tkch => Sys2Proof.Machine.execMzero g w dl a tkop tkch s
  | .mdrain g w dl a vb tkop tkch => Sys2Proof.Machine.execMdrain g w dl a vb tkop tkch s
  | .mdrainSt g w dl a k tkop tkch => Sys2Proof.Machine.execMdrainSt g w dl a k tkop tkch s
  | .vpop g vr q md pk cf tkop tkch => Sys2Proof.Machine.execVpop g vr q md pk cf tkop tkch s
  | .vpush g vr q md tkop tkch => Sys2Proof.Machine.execVpush g vr q md tkop tkch s
  | .spop g sg q md pk cf tkop tkch => Sys2Proof.Machine.execSpop g sg q md pk cf tkop tkch s
  | .ypop g vr md pk cf tkop tkch => Sys2Proof.Machine.execYpop g vr md pk cf tkop tkch s
  | .cpop g sg md pk cf tkop tkch => Sys2Proof.Machine.execCpop g sg md pk cf tkop tkch s
  | .apush g sg q md tkop tkch => Sys2Proof.Machine.execApush g sg q md tkop tkch s
  | .ipsel g fn tkop tkch => Sys2Proof.Machine.execIpsel g fn tkop tkch s
  | .ipld g fn o tkop tkch => Sys2Proof.Machine.execIpld g fn o tkop tkch s
  | .ipf g vs tkop tkch => Sys2Proof.Machine.execIpf g vs tkop tkch s
  | .ld g rd b imm sz sx ord scp => Sys2Proof.Machine.execLd g rd b imm sz sx ord scp s
  | .ldx g rd b ix sh sz sx ord scp => Sys2Proof.Machine.execLdx g rd b ix sh sz sx ord scp s
  | .st g rd b imm sz ord scp => Sys2Proof.Machine.execSt g rd b imm sz ord scp s
  | .stx g rd b ix sh sz ord scp => Sys2Proof.Machine.execStx g rd b ix sh sz ord scp s
  | .pref g b imm => Sys2Proof.Machine.execPref g b imm s
  | .ldq g q b imm md => Sys2Proof.Machine.execLdq g q b imm md s
  | .stq g q b imm md => Sys2Proof.Machine.execStq g q b imm md s
  | .sqpush g q b md => Sys2Proof.Machine.execSqpush g q b md s
  | .ldq2 g q a len aux => Sys2Proof.Machine.execLdq2 g q a len aux s
  | .copy g dst src len aux dh shd tkop tkch => Sys2Proof.Machine.execCopy g dst src len aux dh shd tkop tkch s
  | .gather g dst src len aux dh shd => Sys2Proof.Machine.execGather g dst src len aux dh shd s
  | .scatter g dst src len aux dh shd => Sys2Proof.Machine.execScatter g dst src len aux dh shd s
  | .cwait g rd s1 => Sys2Proof.Machine.execCwait g rd s1 s
  | .fence g ord scp => Sys2Proof.Machine.execFence g ord scp s
  | .tfence g scp => Sys2Proof.Machine.execTfence g scp s
  | .bara g n => Sys2Proof.Machine.execBara g n s
  | .barw g n => Sys2Proof.Machine.execBarw g n s
  | .tkpush g n => Sys2Proof.Machine.execTkpush g n s
  | .tkwait g n => Sys2Proof.Machine.execTkwait g n s
  | .spalloc g rd s1 => Sys2Proof.Machine.execSpalloc g rd s1 s
  | .spfree g s1 => Sys2Proof.Machine.execSpfree g s1 s
  | .launchB g rd s1 q => Sys2Proof.Machine.execLaunchB g rd s1 q s
  | .launchN g rd s1 q => Sys2Proof.Machine.execLaunchN g rd s1 q s
  | .hld g h s1 => Sys2Proof.Machine.execHld g h s1 s
  | .hnew g h s1 => Sys2Proof.Machine.execHnew g h s1 s
  | .publish g h scp => Sys2Proof.Machine.execPublish g h scp s
  | .hfree g h => Sys2Proof.Machine.execHfree g h s
  | .aadd g rd b s2 sz ord scp => Sys2Proof.Machine.execAadd g rd b s2 sz ord scp s
  | .amin g rd b s2 sz ord scp => Sys2Proof.Machine.execAmin g rd b s2 sz ord scp s
  | .amax g rd b s2 sz ord scp => Sys2Proof.Machine.execAmax g rd b s2 sz ord scp s
  | .aand g rd b s2 sz ord scp => Sys2Proof.Machine.execAand g rd b s2 sz ord scp s
  | .aor g rd b s2 sz ord scp => Sys2Proof.Machine.execAor g rd b s2 sz ord scp s
  | .axor g rd b s2 sz ord scp => Sys2Proof.Machine.execAxor g rd b s2 sz ord scp s
  | .axchg g rd b s2 sz ord scp => Sys2Proof.Machine.execAxchg g rd b s2 sz ord scp s
  | .acas g rd b s2 s3 sz ord scp => Sys2Proof.Machine.execAcas g rd b s2 s3 sz ord scp s
  | .await g rd b s2 cond sz ord scp => Sys2Proof.Machine.execAwait g rd b s2 cond sz ord scp s
  | .resultLanding core => Sys2Proof.Machine.execResultLanding core s
  | .mxStart core => Sys2Proof.Machine.execMxStart core s
  | .aClassResult core iseq => Sys2Proof.Machine.execAClassResult core iseq s
  | .queueFill core iseq => Sys2Proof.Machine.execQueueFill core iseq s
  | .vsendArrival core => Sys2Proof.Machine.execVsendArrival core s
  | .targetFetch core stream bd => Sys2Proof.Machine.execTargetFetch core stream bd s
  | .slipEnd ctx => Sys2Proof.Machine.execSlipEnd ctx s
  | .windowSpillFill core => Sys2Proof.Machine.execWindowSpillFill core s
  | .meridianPulse ctx => Sys2Proof.Machine.execMeridianPulse ctx s
  | .barrierPhaseComplete core => Sys2Proof.Machine.execBarrierPhaseComplete core s
  | .awaitSatisfied core => Sys2Proof.Machine.execAwaitSatisfied core s
  | .publishSwap core => Sys2Proof.Machine.execPublishSwap core s
  | .tfenceComplete core => Sys2Proof.Machine.execTfenceComplete core s
  | .translationWalkEnd core iseq => Sys2Proof.Machine.execTranslationWalkEnd core iseq s
  | .commandRetire core => Sys2Proof.Machine.execCommandRetire core s
  | .watchCopyFreeze core skid => Sys2Proof.Machine.execWatchCopyFreeze core skid s
  | .peerWatchReport part => Sys2Proof.Machine.execPeerWatchReport part s
  | .bankWakeComplete core bank => Sys2Proof.Machine.execBankWakeComplete core bank s
  | .bankIdleWarm core bank => Sys2Proof.Machine.execBankIdleWarm core bank s
  | .accBankIdleWarm core bank => Sys2Proof.Machine.execAccBankIdleWarm core bank s
  | .bankScrubComplete core bank => Sys2Proof.Machine.execBankScrubComplete core bank s
  | .qseqAdvance => Sys2Proof.Machine.execQseqAdvance s
  | .lqtailWrite part q value => Sys2Proof.Machine.execLqtailWrite part q value s
  | .queueRecordRead part q => Sys2Proof.Machine.execQueueRecordRead part q s
  | .lqcfgErrClear part q => Sys2Proof.Machine.execLqcfgErrClear part q s
  | .firmwareLaunch part record => Sys2Proof.Machine.execFirmwareLaunch part record s
  | .dispatchPassTimer part => Sys2Proof.Machine.execDispatchPassTimer part s
  | .priorityAging part => Sys2Proof.Machine.execPriorityAging part s
  | .launchWaitTimeout core => Sys2Proof.Machine.execLaunchWaitTimeout core s
  | .stopDelivery ctx => Sys2Proof.Machine.execStopDelivery ctx s
  | .saveImageComplete ctx => Sys2Proof.Machine.execSaveImageComplete ctx s
  | .supervisorStop ctx => Sys2Proof.Machine.execSupervisorStop ctx s
  | .supervisorPlace ctx edits => Sys2Proof.Machine.execSupervisorPlace ctx edits s
  | .aStreamExitComplete core => Sys2Proof.Machine.execAStreamExitComplete core s
  | .xExitCheck core => Sys2Proof.Machine.execXExitCheck core s
  | .deferredUnmap part obj => Sys2Proof.Machine.execDeferredUnmap part obj s
  | .crtailWrite part value => Sys2Proof.Machine.execCrtailWrite part value s
  | .teardownContext ctx => Sys2Proof.Machine.execTeardownContext ctx s
  | .teardownPartition part => Sys2Proof.Machine.execTeardownPartition part s
  | .load part place => Sys2Proof.Machine.execLoad part place s
  | .unload part => Sys2Proof.Machine.execUnload part s
  | .unloadF part => Sys2Proof.Machine.execUnloadF part s
  | .patch part => Sys2Proof.Machine.execPatch part s
  | .cstailWrite part value => Sys2Proof.Machine.execCstailWrite part value s
  | .qpushWrite part value => Sys2Proof.Machine.execQpushWrite part value s
  | .qpopRead part => Sys2Proof.Machine.execQpopRead part s
  | .watchpointArm part n ctl => Sys2Proof.Machine.execWatchpointArm part n ctl s
  | .fixCommand => Sys2Proof.Machine.execFixCommand s
  | .fixinEdge => Sys2Proof.Machine.execFixinEdge s
  | .peerAccessArrival access => Sys2Proof.Machine.execPeerAccessArrival access s
  | .routeLossTimeout node => Sys2Proof.Machine.execRouteLossTimeout node s
  | .rdmaWrite part window addr data => Sys2Proof.Machine.execRdmaWrite part window addr data s
  | .rdmaRead part window addr len => Sys2Proof.Machine.execRdmaRead part window addr len s
  | .rdmaInvalidOperation part => Sys2Proof.Machine.execRdmaInvalidOperation part s
  | .refsetWrite value => Sys2Proof.Machine.execRefsetWrite value s
  | .referenceFrequencyChange => Sys2Proof.Machine.execReferenceFrequencyChange s
  | .currentExcess => Sys2Proof.Machine.execCurrentExcess s
  | .currentExcessEnd => Sys2Proof.Machine.execCurrentExcessEnd s
  | .stretchTimeout => Sys2Proof.Machine.execStretchTimeout s
  | .thermalTrip die => Sys2Proof.Machine.execThermalTrip die s
  | .thermalRecovery => Sys2Proof.Machine.execThermalRecovery s
  | .pchbWrite value => Sys2Proof.Machine.execPchbWrite value s
  | .pwstatUpdateWrite value => Sys2Proof.Machine.execPwstatUpdateWrite value s
  | .heartbeatTimeout => Sys2Proof.Machine.execHeartbeatTimeout s
  | .vvoteWrite part value => Sys2Proof.Machine.execVvoteWrite part value s
  | .railFallStart rail => Sys2Proof.Machine.execRailFallStart rail s
  | .railAtTarget rail => Sys2Proof.Machine.execRailAtTarget rail s
  | .qreqReq cluster value => Sys2Proof.Machine.execQreqReq cluster value s
  | .qreqEvict cluster => Sys2Proof.Machine.execQreqEvict cluster s
  | .retsaveSave cluster value => Sys2Proof.Machine.execRetsaveSave cluster value s
  | .retsaveRestore cluster value => Sys2Proof.Machine.execRetsaveRestore cluster value s
  | .retsaveDone cluster => Sys2Proof.Machine.execRetsaveDone cluster s
  | .clkgateSet cluster => Sys2Proof.Machine.execClkgateSet cluster s
  | .clkgateClear cluster => Sys2Proof.Machine.execClkgateClear cluster s
  | .clockGateComplete cluster => Sys2Proof.Machine.execClockGateComplete cluster s
  | .railgateOff cluster => Sys2Proof.Machine.execRailgateOff cluster s
  | .railgateOn cluster => Sys2Proof.Machine.execRailgateOn cluster s
  | .railSwitchComplete cluster => Sys2Proof.Machine.execRailSwitchComplete cluster s
  | .wakeSet cluster client => Sys2Proof.Machine.execWakeSet cluster client s
  | .wakeackAck cluster => Sys2Proof.Machine.execWakeackAck cluster s
  | .packageReset image => Sys2Proof.Machine.execPackageReset image s
  | .stageLoad image => Sys2Proof.Machine.execStageLoad image s
  | .attgoWrite part value => Sys2Proof.Machine.execAttgoWrite part value s
  | .mcctlRestart writer value => Sys2Proof.Machine.execMcctlRestart writer value s
  | .channelRetire channel => Sys2Proof.Machine.execChannelRetire channel s
  | .channelCopyComplete channel => Sys2Proof.Machine.execChannelCopyComplete channel s
  | .coreRetire core => Sys2Proof.Machine.execCoreRetire core s
  | .registerWrite target value => Sys2Proof.Machine.execRegisterWrite target value s
  | .accessPerformed core iseq => Sys2Proof.Machine.execAccessPerformed core iseq s
  | .partitionConfiguration part config => Sys2Proof.Machine.execPartitionConfiguration part config s

end Sys2Proof.Machine
end

