-- ==== Sys2Proof/Machine/Issue.lean ====
section
/-! DEFINITION. Issue (R37, R51, R52, R142 to R148, R165 to R172, R311, R313, R343, R389): fetching and decoding a bundle, its checks, the
issue of its syllables as one, what it does when it ends, one tick of a group's chart, and one turn of an access core or a
management core. The functions take the meaning of a syllable as an argument, which the step supplies. -/

namespace Sys2Proof.Machine

/-! ### Legality on a stream (R34, R37, R47, R51, R181, R323, R389) -/

/-- Whether an instruction with its word may stand on the issuing stream. -/
def State.legalOn (s : State) (i : Instr) (v : Word) : Bool :=
  let cls := classOf v
  let ok := match s.ctx.who with | .x => decide (cls ≤ 5) | _ => cls == 0 || cls == 1 || cls == 2 || cls == 6
  ok &&
  match i with
  | .mfs _ _ n => s.sysLegal false n.toNat
  | .mts _ _ n => s.ctx.who != .mgmt && s.sysLegal true n.toNat
  | .loopR _ _ _ _ vb sm _ => s.rotLegal vb sm
  | .loopxR _ _ _ _ vb sm _ => s.rotLegal vb sm
  | .align _ => s.ctx.who == .x
  | .contour .. => s.ctx.who == .x
  | .clkdiv .. => s.ctx.who == .x
  | .resume .. => s.inHandler
  | .svchk .. => s.inHandler
  | .exit _ => !s.inHandler
  | _ => cls != 6 || s.ctx.who != .mgmt || mgmtA i
where
  /-- The A class of a management core. -/
  mgmtA (i : Instr) : Bool :=
    match i with
    | .ld .. => true
    | .ldx .. => true
    | .st .. => true
    | .stx .. => true
    | .pref .. => true
    | .aadd .. => true
    | .amin .. => true
    | .amax .. => true
    | .aand .. => true
    | .aor .. => true
    | .axor .. => true
    | .axchg .. => true
    | .acas .. => true
    | .await .. => true
    | .fence .. => true
    | _ => false

/-- Whether a bundle has a slot left for a class, given the classes before it (R37). -/
def slotLeft (w : Who) (before : List Nat) (cls : Nat) : Bool :=
  match w with
  | .x => if cls < 2 then decide ((before.filter (· < 2)).length < 2) else !before.contains cls
  | _ => if cls < 2 then !before.any (· < 2) else !before.any (2 ≤ ·)

/-- A decoded syllable of a bundle. -/
structure Syl where
  addr : Word
  word : Word
  instr : Instr
deriving DecidableEq, Repr

/-- Decode the syllables of a bundle; the address of the first that is illegal where one is (R51, R52). -/
def State.decodeAll (s : State) : List Nat → List (Word × Word) → Except Word (List Syl)
  | _, [] => .ok []
  | before, (a, v) :: t =>
    match decode v with
    | .error _ => .error a
    | .ok i =>
      if slotLeft s.ctx.who before (classOf v) && s.legalOn i v then
        match s.decodeAll (classOf v :: before) t with
        | .ok l => .ok ({ addr := a, word := v, instr := i } :: l)
        | .error e => .error e
      else .error a

/-! ### The checks of a bundle -/

/-- The sequence number after one: 24 bits, 0 never used (R316, R319). -/
def nextIseq (q : Nat) : Nat := q % (2 ^ 24 - 1) + 1

/-- k numbers on. -/
def iseqPlus (q : Nat) : Nat → Nat
  | 0 => q
  | k + 1 => iseqPlus (nextIseq q) k

/-- The guard of a syllable, as breakpoints read it (R36, R342). -/
def State.guardTrue (s : State) (y : Syl) : Bool :=
  let g := guardOf y.word
  match classOf y.word with
  | 1 => true
  | 2 => s.guardB g
  | 3 => s.guardV g != 0#64
  | 4 => s.guardM g
  | 5 => s.guardM g
  | _ => s.guardC g

/-- What the checks of a bundle find. -/
inductive Verdict where
  | go
  | waits (why : Slip) (t : State)
  | fault (k : Cause)
deriving DecidableEq, Repr

/-- A wait before a fault, the alignment before other waits, and of two faults the lower code (R145, R322). DEDUCED, log entry 9. DEDUCED, log entry 10. DEDUCED, log entry 16. -/
def Verdict.join (a b : Verdict) : Verdict :=
  match a, b with
  | .go, b => b
  | .waits .align t, _ => .waits .align t
  | a, .waits .align t => match a with | .waits .align u => .waits .align u | _ => .waits .align t
  | .waits w t, _ => .waits w t
  | .fault _, .waits w t => .waits w t
  | .fault x, .fault y => .fault (if y.cause < x.cause then y else x)
  | .fault x, .go => .fault x

/-- A fault of the bundle as a whole comes before its waits. DEDUCED, log entry 9. -/
def Verdict.first (bundle v : Verdict) : Verdict :=
  match bundle, v with
  | .fault x, .fault y => .fault (if y.cause < x.cause then y else x)
  | .fault x, _ => .fault x
  | _, v => v

/-- The cause that the issuing stream's syllable has just raised. -/
def State.raisedCause (s : State) : Cause :=
  match s.ctx.who with
  | .mgmt => { cause := s.balore.mcstat.toNat / 256 ^ s.ctx.core % 256, addr := s.ctx.pc }
  | _ =>
    let c := s.me
    { cause := c.cause, code := c.code, engine := c.causeEngine, iseq := c.causeIseq, addr := c.detailAddr, detail := c.detail, legend := c.detailLegend }

/-- The context of syllable k of a bundle. -/
def Syl.ctx (y : Syl) (base : Ctx) (k : Nat) : Ctx := { base with pc := y.addr, word := y.word, iseq := iseqPlus base.first k }

/-- What one syllable finds on the state at the start of the bundle. -/
def State.verdict (ex : Instr → State → Result) (s : State) (y : Syl) (c : Ctx) : Verdict :=
  let t := stateOf s (ex y.instr { s with ctx := c })
  match t.ctx.out with
  | .running => .go
  | .waits w => .waits w t
  | .stopped => .fault t.raisedCause

/-- The faults of a bundle as a whole (R109, R171): it runs across the end of the innermost level, or it has no ALIGN before the clock
has ever started. DEDUCED, log entry 9. -/
def State.bundleFault (s : State) (syls : List Syl) (past : Word) : Verdict :=
  let pc := s.ctx.pc
  let across := match s.ctrl.loops with | l :: _ => decide (pc.toNat < l.stop.toNat) && decide (l.stop.toNat < past.toNat) | [] => false
  let clock := match s.ctx.who with | .x => (match s.grpAt s.ctx.core with | some g => g.clock | none => true) | _ => true
  let aligns := syls.any fun y => match y.instr with | .align _ => true | _ => false
  let e := if s.ctx.who = .a then 1 else 0
  if across then .fault { cause := 0x06, addr := pc, engine := e }
  else if !clock && !aligns then .fault { cause := 0x07, addr := pc, engine := e }
  else .go

/-- Everything that the syllables of a bundle find together. DEDUCED, log entry 9. -/
def State.verdicts (ex : Instr → State → Result) (s : State) (base : Ctx) : List Syl → Nat → Verdict
  | [], _ => .go
  | y :: t, k => (s.verdict ex y (y.ctx base k)).join (s.verdicts ex base t (k + 1))

/-- The syllables of a bundle take effect, an A-class one last, since an S-class one of its bundle reads before it (R37). -/
def State.issueAll (ex : Instr → State → Result) (s : State) (base : Ctx) (syls : List Syl) : State :=
  let ks := syls.zipIdx
  let order := (ks.filter fun y => classOf y.1.word != 6) ++ ks.filter fun y => classOf y.1.word == 6
  order.foldl (fun s y => stateOf s (ex y.1.instr { s with ctx := { y.1.ctx base y.2 with ctl := s.ctx.ctl, writes := s.ctx.writes } })) { s with ctx := base }

/-! ### The end of a bundle -/

/-- Change the control state of the issuing stream. -/
def State.modCtrl (s : State) (f : Ctrl → Ctrl) : State :=
  match s.ctx.who with
  | .x => s.modMe fun c => { c with x := { c.x with k := f c.x.k } }
  | .a => s.modMe fun c => { c with a := { c.a with k := f c.a.k } }
  | .mgmt =>
    let m := s.mcore s.ctx.core
    s.setMcore s.ctx.core { m with a := { m.a with k := f m.a.k } }

/-- Change the issuing A-stream or management core. -/
def State.modAstr (s : State) (f : AStream → AStream) : State :=
  match s.ctx.who with
  | .mgmt =>
    let m := s.mcore s.ctx.core
    s.setMcore s.ctx.core { m with a := f m.a }
  | _ => s.modMe fun c => { c with a := f c.a }

/-- An instant before which a register that the issuing bundle has written may not be used (R156, R162). -/
def AStream.owes (a : AStream) (r at_ : Nat) : AStream := { a with due := sset 0 r at_ a.due }

/-- A register write of an A-stream or management-core bundle: a result above one cycle is owed until it lands, a c register is owed to B-class guards for
two cycles, and a b register's target is ready 7 cycles after issue (R46, R156, R162, R166). -/
def State.applyWrite (s : State) (w : AWrite) : State :=
  match w with
  | .x n v lat => s.modAstr fun a => { (if lat ≤ 1 then a else a.owes n (s.cycleAt lat)) with x := sset 0#64 n v a.x }
  | .c n v => s.modAstr fun a => { a.owes (32 + n) (s.cycleAt 2) with k := { a.k with c := sset [] n [(0, v)] a.k.c } }
  | .b n v => s.modCtrl fun k => { k with b := sset {} n { val := v, ready := s.cycleAt 7, fetched := false } k.b }
  | .sys n v => s.modMe fun c => c.sysWrite n v none

/-- The latency of a register write (R46, R47). -/
def AWrite.lat : AWrite → Nat
  | .x _ _ n => n
  | _ => 1

/-- Insertion before the writes that land later. -/
def insertWrite (w : AWrite) : List AWrite → List AWrite
  | [] => [w]
  | h :: t => if w.lat ≤ h.lat then w :: h :: t else h :: insertWrite w t

/-- The writes of a bundle in the order in which they land: of two to one register the later stands (R45). -/
def landOrder (ws : List AWrite) : List AWrite := ws.foldr insertWrite []

/-- The back edge of a level (R169, R172). -/
def Ctrl.backEdge (k : Ctrl) (l : Level) : Ctrl :=
  let r := k.rot
  { k with pc := l.start, rot := if r.on && r.lv == l.lv then { r with i := r.i + 1, rho := (r.rho + r.sm) % (r.sm + 1) } else r }

/-- Deactivate the levels from lv up (R169, R170). -/
def Ctrl.deactivate (k : Ctrl) (lv : Nat) : Ctrl :=
  { k with loops := k.loops.filter fun l => decide (l.lv < lv), rot := if lv ≤ k.rot.lv then { k.rot with on := false } else k.rot }

/-- The end check at e (R169), innermost level first: the stream, the levels that exit, and whether a back edge is taken. -/
def endCheck (e : Word) : List Level → Ctrl → Ctrl × List Level × Bool
  | [], k => (k, [], false)
  | l :: rest, k =>
    if l.stop ≠ e then (k, [], false)
    else
      let v := sget 0#64 l.lv k.lc - 1#64
      let k := { k with lc := sset 0#64 l.lv v k.lc }
      if v ≠ 0#64 then (k.backEdge l, [], true)
      else
        let r := endCheck e rest (k.deactivate l.lv)
        (r.1, l :: r.2.1, r.2.2)

/-- What the end of a bundle makes of a stream's control state: the state, the levels that exit, and whether a rotating level begins a
kernel iteration. `x` says whether the loop counter is left to its landing. The b7 that CALL writes waits for no fetch (DESIGN CHOICE, log entry 124).
DEDUCED, log entry 36. -/
def Ctrl.finish (k : Ctrl) (ctl : Ctl) (past : Word) (x : Bool) : Ctrl × List Level × Bool :=
  let fall (k : Ctrl) (e : Word) (out : List Level) : Ctrl × List Level × Bool :=
    let r := endCheck e k.loops { k with pc := e }
    (r.1, out ++ r.2.1, r.2.2 && r.1.rot.on && (match r.1.loops with | l :: _ => l.lv == r.1.rot.lv | [] => false))
  match ctl with
  | .goto t _ => ({ k with pc := t }, [], false)
  | .call t _ _ => ({ k with pc := t, b := sset {} 7 { val := past, ready := 0, fetched := true } k.b }, [], false)
  | .ret t => ({ k with pc := t }, [], false)
  | .lexit lv =>
    (match k.loops.find? fun l => l.lv == lv with
      | some l => ({ (k.deactivate lv) with pc := l.stop, lc := if x then k.lc else sset 0#64 lv 0#64 k.lc }, [l], false)
      | none => ({ k with pc := past }, [], false))
  | .loop lv n stop rot =>
    let k := k.deactivate lv
    let k := if x then k else { k with lc := sset 0#64 lv (BitVec.ofNat 64 n) k.lc }
    if n = 0 then fall k stop [{ lv := lv, start := past, stop := stop }]
    else ({ k with pc := past, loops := { lv := lv, start := past, stop := stop } :: k.loops, rot := rot.getD k.rot }, [], rot.isSome)
  | _ => fall k past []

/-- The cycles after a bundle that its control effect adds (R179). -/
def Ctl.extra : Ctl → Nat
  | .wait n => n
  | _ => 0

/-- The instant at which the bundle that an access core or a management core goes on with is fetched: 7 cycles after the PBR of a branch, 3 after a
RET (R166). -/
def State.fetchedAt (s : State) : Ctl → Nat
  | .goto _ (some b) => b.ready
  | .call _ b _ => b.ready
  | .ret _ => s.cycleAt 3
  | _ => 0

/-- An access core or a management core issues nothing for a number of cycles after a bundle, nor before the target of its branch is fetched (R35, R166,
R179). DEDUCED, log entry 93. -/
def State.rest (s : State) (cycles : Nat) (ctl : Ctl) : State :=
  let t := max (s.cycleAt (1 + cycles)) (s.fetchedAt ctl)
  s.modAstr fun a => { a with idle := cycles, ready := t }

/-- What the end of a bundle does to the X-stream beyond its control state (R110, R142, R151, R166, R172). -/
def XStream.finish (x : XStream) (ctl : Ctl) (past : Word) (next : Nat) (rotates : Bool) (free : Nat) : XStream :=
  let x := { x with next := next, rotPend := rotates, await := match ctl with | .goto _ b => b | .call _ b _ => some b | _ => none }
  match ctl with
  | .call _ _ f => x.pushFrame f (past ||| BitVec.ofNat 64 (x.frame * 2 ^ 56)) free
  | .ret _ => x.popFrame free
  | .align => { x with align := none, aligned := false }
  | _ => x

/-- The return point of the current frame of an X-stream, when its link is in the file (R151, R166). -/
def XStream.returnPoint (x : XStream) : Option Word :=
  if x.base = 0 ∨ x.base < x.low then none else some (linkAddr (sget 0#64 x.base x.links))

/-- After a CALL or RET the control core keeps the return point of the current frame fetched (R166). -/
def State.keepReturn (s : State) (n : Nat) (c : Ctl) : State :=
  let moved := match c with | .call .. => true | .ret _ => true | _ => false
  match (if moved then (s.core n).x.returnPoint else none) with
  | none => s
  | some a => s.modCore n fun k => { k with x := { k.x with k := k.x.k.hold (s.fetch .x n a 4).1 } }

/-- The end of a bundle that has issued. -/
def State.endBundle (s : State) (past : Word) (idle last : Nat) : State :=
  let c := s.ctx
  let d := s.me.divisor 0
  let s := (landOrder c.writes).foldl State.applyWrite s
  let r := s.ctrl.finish c.ctl past (c.who == .x)
  let pc := s.ctrl.pc
  let s := s.modCtrl fun _ => { r.1.unhold pc past with exempt := false, exiting := r.1.exiting || c.ctl == .exit }
  let s := if c.who = .mgmt then s else r.2.1.foldl (fun (s : State) l => s.loopExit c.core (c.who == .a) l.lv l.stop) s
  match c.who with
  | .x =>
    let s := { s.modMe (fun k => { k with
        iseq := if k.x.align.isSome then k.iseq else last
        x := k.x.finish c.ctl past (c.tick + (1 + idle + c.ctl.extra) * d) r.2.2 s.free }) with free := s.free + 256 }.keepReturn c.core c.ctl
    (match c.ctl with | .contour id => s.contourAt c.core c.tick id | _ => s)
  | .a =>
    let s := (s.modMe fun k => { k with iseq := last, a := { k.a with took := false, taken := none } }).rest (idle + c.ctl.extra) c.ctl
    (match c.ctl with
      | .resume n => s.modMe fun k => if k.unperformed then { k with a := { k.a with resuming := some n } } else k.reissue (k.survey (min n 96))
      | .stop cause code addr => s.stop c.core { cause := cause, code := code, engine := 1, addr := addr }
      | _ => s)
  | .mgmt =>
    let s := s.rest (idle + c.ctl.extra) c.ctl
    match c.ctl with
    | .exit =>
      let m := s.balore.mcstat.toNat
      let s := s.setMcore c.core { s.mcore c.core with halted := true }
      { s with balore := { s.balore with
          health := s.balore.health ||| (1#64 <<< (52 + c.core)), mcstat := BitVec.ofNat 64 (m - m / 256 ^ c.core % 256 * 256 ^ c.core) } }
    | .stop cause _ _ => s.raise { cause := cause }
    | _ => s

/-! ### Issue of one bundle -/

/-- How the issue of a bundle comes out. -/
inductive Issued where
  | issued (s : State)
  | waits (s : State) (why : Slip)
  /-- with the breakpoint controls as the bundle's matches leave them -/
  | raised (k : Cause) (bps : List Word)
  | lost (a : Word)
deriving DecidableEq, Repr

/-- The breakpoint controls of a core's partition. -/
def State.bpWords (s : State) (n : Nat) : List Word :=
  match (s.core n).part with
  | some p => (List.range 8).map fun k => (s.part p).reg (0x508 + 16 * k)
  | none => []

/-- Put the breakpoint controls of a core's partition. DEDUCED, log entry 57. -/
def State.putBps (s : State) (n : Nat) (ws : List Word) : State :=
  match (s.core n).part with
  | some p => s.modPart p fun q => ws.zipIdx.foldl (fun q w => q.setReg (0x508 + 16 * w.2) w.1) q
  | none => s

/-- The breakpoints of a core's stream over a bundle (R343): the partition with its counts, and the one that stops. DEDUCED, log entry 57. -/
def State.breaks (s : State) (syls : List Syl) : State × Option Nat :=
  match s.ctx.who, s.me.part with
  | .mgmt, _ => (s, none)
  | _, none => (s, none)
  | w, some pn =>
    if s.ctrl.exempt then (s, none)
    else
      let r := (s.part pn).breakpoints (w == .a) s.me.owner (syls.map fun y => (y.addr, y.word, s.guardTrue y))
      (s.setPart pn r.1, r.2)

/-- An X-stream bundle whose operations do not fit among the 96 of a core waits for the access core and the copy engine, or is a fault when
nothing of theirs is counted (R313). -/
def State.overfull (s : State) (base : Ctx) (k : Nat) : Issued :=
  if s.me.aops.isEmpty && s.me.heldA.isEmpty && s.me.cmds.isEmpty && s.me.heldC.isEmpty then .raised { cause := 0x0A, addr := base.pc } (s.bpWords base.core)
  else .waits s (.full k)

/-- A bundle that passed its checks issues, unless it would hold more than 96 operations (R313). -/
def State.issueGo (ex : Instr → State → Result) (s : State) (base : Ctx) (syls : List Syl) (past : Word) : Issued :=
  let t := s.issueAll ex base syls
  let c := t.me
  let k := c.held - (if c.x.aligned && c.x.align.isSome then 1 else 0)
  let fits := base.who == .mgmt || decide (k ≤ 96)
  if fits then .issued (t.endBundle past (idleOf ((syls.getLast?.map (·.word)).getD 0#64)) (iseqPlus base.first (syls.length - 1)))
  else if base.who != .x then .waits s .ops
  else s.overfull base (k - s.me.held)

/-- A bundle that waits: at ALIGN its numbers are taken, at a window move the move begins; a command at its enqueue has captured its pages, taken its token
or woken banks; anything else changes nothing (R110, R118, R151, R256, R268). DEDUCED, log entry 82. -/
def State.issueWait (s t : State) (why : Slip) (first n : Nat) : State :=
  match why, s.ctx.who with
  | .align, _ => { t with ctx := s.ctx }.modMe fun c => if s.me.x.align.isSome then c else { c with iseq := iseqPlus first (n - 1) }
  | .window, _ => { t with ctx := s.ctx }
  | _, .a => { t with ctx := s.ctx }
  | _, _ => s

/-- The bundle at the pc of a stream at a tick (R142, R343, R145). DESIGN CHOICE, log entry 4. DEDUCED, log entry 56. DEDUCED, log entry 58. -/
def State.issueBundle (ex : Instr → State → Result) (s : State) (w : Who) (n tick : Nat) (room : Bool := false) : Issued :=
  let s := { s with ctx := { who := w, core := n, tick := tick, room := room } }
  let pc := s.ctrl.pc
  let first := match w, s.me.x.align with | .x, some (f, _) => f | _, _ => nextIseq s.me.iseq
  let s := { s with ctx := { s.ctx with pc := pc, first := first } }
  let e := if w = .a then 1 else 0
  let f := s.fetch w n pc (if w = .x then 4 else 2)
  match s.decodeAll [] f.1, f.2 with
  | .error a, _ => .raised { cause := 0x01, addr := a, engine := e } []
  | .ok _, .long a => .raised { cause := 0x01, addr := a, engine := e } []
  | .ok _, .bad a => .raised { cause := 0x20, addr := a, engine := e } []
  | .ok _, .outside a => .lost a
  | .ok syls, .whole past =>
    let b := s.breaks syls
    match b.2 with
    | some k => .raised { cause := 0x41, code := 0xFF00 + k, addr := pc, engine := e } (b.1.bpWords n)
    | none =>
      let base := { s.ctx with past := past }
      let s := b.1.modCtrl fun k => { (if w = .mgmt then k else k.hold f.1) with exempt := true }
      match ({ s with ctx := base }.bundleFault syls past).first (s.verdicts ex base syls 0) with
      | .waits .align t => if s.me.x.align.isNone && decide (96 < t.me.held) then s.overfull base 1 else .waits (s.issueWait t .align first syls.length) .align
      | .waits .window t => if s.me.x.window.isNone && decide (96 < t.me.held) then s.overfull base 1 else .waits (s.issueWait t .window first syls.length) .window
      | .waits why t => .waits (s.issueWait t why first syls.length) why
      | .fault k => .raised k (s.bpWords n)
      | .go => s.issueGo ex base syls past

/-! ### One tick of a group's chart (R142 to R147, R311) -/

/-- The group of a core while it runs. -/
def State.running (s : State) (num : Nat) : Bool := match s.grp? num with | some g => g.status == .running | none => false

/-- The stage predicates of a kernel iteration whose first bundle issues at this tick (R172). -/
def Core.stagePreds (c : Core) : Core :=
  if c.x.rotPend && c.x.next ≤ c.tick then
    let r := c.x.k.rot
    let p := (List.range r.stages).foldl (fun st j => sset 0#64 (6 + j) (if j ≤ r.i ∧ r.i - j < r.trip then BitVec.allOnes 64 else 0#64) st) c.x.p
    { c with x := { c.x with p := p, rotPend := false } }
  else c

/-- Why a core stops its group at a tick. -/
inductive Fail where
  /-- at a landing -/
  | landing
  /-- at a start, with the core as it then stood -/
  | start (c : Core) (k : Cause)
  /-- at the issue of a bundle, with the breakpoint controls -/
  | issue (k : Cause) (bps : List Word)
  /-- at a start in the tick of its issue, with the core before the issue and after it, what the bundle does at its end, the breakpoint controls, and the
  rows it sent: receiver, ISEQ, arrival tick -/
  | begun (mid post : Core) (c : Ctx) (bps : List Word) (sends : List (Nat × Nat × Nat)) (k : Cause)
  /-- at the exit check (R364) -/
  | exit (k : Cause)
deriving DecidableEq, Repr

/-- The format words that the starts of a tick had taken stay taken when the tick is undone (R232). DEDUCED, log entry 14. -/
def Core.keepWords (c now : Core) : Core :=
  let q := c.queue 20
  let k := ((now.queue 20).pops + 65536 - q.pops) % 65536
  { c.setQueue 20 { es := q.es.drop k, pops := (now.queue 20).pops } with
    ops := c.ops.map fun o =>
      if o.kind == .start && (match o.mx with | some (.mzero ..) => false | _ => true) then
        match now.ops.find? fun p => p.iseq == o.iseq && p.engine == 3 with
        | some p => { o with fw := p.fw }
        | none => o
      else o }

/-- A store in which what changed from `mid` to `post` has changed, and nothing else. -/
def storeSince {α : Type} [DecidableEq α] (d : α) (pre mid post : Store α) : Store α :=
  ((mid ++ post).map (·.1)).foldl (fun st k => if sget d k post = sget d k mid then st else sset d k (sget d k post) st) pre

/-- A queue of which a tick's landings and starts have not taken place, and the pops and reservations of that tick's bundle have; with it, how many entries
of started drains are gone again. -/
def Queue.issuedOnly (pre post : Queue) : Queue × Nat :=
  let d := (post.pops + 65536 - pre.pops) % 65536
  let new := post.es.drop (pre.es.length - d)
  ({ es := pre.es.drop d ++ new.filter fun e => e.buf.isNone && e.src.isNone, pops := post.pops }, (new.filter fun e => e.buf.isSome).length)

/-- The core before a tick, of which only the bundle has issued: `mid` is the core before the issue and `post` after it (R84, R312). DEDUCED, log entry 13. -/
def Core.issuedOnly (pre mid post : Core) : Core :=
  let c := pre.keepWords post
  let u := post.x
  let shift (l : Land) : Land := match l with
    | .entries q es b => .entries q (es.map fun e => ((e.1 + 65536 - ((pre.queue q).issuedOnly (post.queue q)).2) % 65536, e.2)) b
    | l => l
  let new := post.ops.filter fun o => !mid.ops.any fun p => p.iseq == o.iseq && p.engine == o.engine && p.half == o.half
  let c := (List.range 21).foldl (fun c q => c.setQueue q ((pre.queue q).issuedOnly (post.queue q)).1) c
  { c with
    x := { u with
      g := storeSince 0#64 pre.x.g mid.x.g u.g, win := storeSince 0#64 pre.x.win mid.x.win u.win, p := storeSince 0#64 pre.x.p mid.x.p u.p
      k := { u.k with c := storeSince [] pre.x.k.c mid.x.k.c u.k.c, b := storeSince {} pre.x.k.b mid.x.k.b u.k.b
                      lc := storeSince 0#64 pre.x.k.lc mid.x.k.lc u.k.lc } }
    e := { c.e with ipfEnd := post.e.ipfEnd }
    freed7 := post.freed7, seen := post.seen, iseq := post.iseq
    ops := c.ops ++ new.map fun o => { o with lands := o.lands.map shift } }

/-- The state before a tick at which a core's bundle has issued and the start of one of its syllables fails (R84, R231, R312). DEDUCED, log entry 13. -/
def State.begun (s : State) (n : Nat) (mid post : Core) (c : Ctx) (bps : List Word) (sends : List (Nat × Nat × Nat)) : State :=
  let s := (s.putBps n bps).modCore n fun k => k.issuedOnly mid post
  let s := sends.foldl (fun s e => s.modCore e.1 fun k => k.reserveSent n e.2.1 e.2.2) s
  let s := (mid.x.k.finish c.ctl c.past true).2.1.foldl (fun s l => s.loopExit n false l.lv l.stop) s
  match c.ctl with
  | .contour id => s.contourAt n c.tick id
  | _ => s

/-- The stop of a failing core, on the state before the tick (R311). -/
def State.applyFail (ex : Instr → State → Result) (s : State) (n : Nat) : Fail → State
  | .landing => stateOf s (ex (.resultLanding n) s)
  | .start c k => (s.modCore n fun b => b.keepWords c).stop n k
  | .issue k w => (s.putBps n w).stop n k
  | .begun mid post c w sends k =>
    let s := (s.begun n mid post c w sends).stop n k
    (match c.ctl with
      | .stop cause code addr => s.stop n { cause := cause, code := code, addr := addr }
      | _ => s)
  | .exit k => s.stop n k

/-- How a tick stands as it is worked through. -/
structure Tick where
  s : State
  slip : Option (Nat × Slip) := none
  fails : List (Nat × Fail) := []
  traps : List (Nat × Cause) := []
  lost : Option Word := none
deriving DecidableEq, Repr

/-- A failure joins those of its tick. -/
def Tick.fail (t : Tick) (n : Nat) (f : Fail) : Tick := { t with fails := t.fails ++ [(n, f)] }

/-- The cause that a core has just raised. -/
def State.causeOf (s : State) (n : Nat) : Cause := { s with ctx := { who := .x, core := n } }.raisedCause

/-- The exit check of a core whose X-stream has nothing left in flight (R364). -/
def Tick.exitCheck (ex : Instr → State → Result) (num n : Nat) (t : Tick) : Tick :=
  let c := t.s.core n
  if c.x.k.exiting && !c.x.k.exited && c.ops.isEmpty then
    let u := stateOf t.s (ex (.xExitCheck n) t.s)
    match u.grp? num with
    | some g => if g.status == .running then { t with s := u } else t.fail n (.exit (u.causeOf n))
    | none => { t with s := u }
  else t

/-- The rows that operations of a core have sent: receiver, ISEQ and arrival tick. -/
def State.sendsOf (s : State) (n : Nat) (before : Core) : List (Nat × Nat × Nat) :=
  ((s.core n).ops.filter fun o => !before.ops.any fun p => p.iseq == o.iseq).flatMap fun o => o.lands.filterMap fun l =>
    match l with
    | .mesh peer _ => (((s.core peer).queue 7).es.find? fun e => e.src == some (n, o.iseq)).map fun e => (peer, o.iseq, e.present)
    | _ => none

/-- The starts that an issued bundle makes at its own tick (R222, R234): when a check fails the bundle has issued, and the syllable stands with the word
it took (R84, R312). DEDUCED, log entry 13. -/
def Tick.sameTick (ex : Instr → State → Result) (num n : Nat) (before : State) (c : Ctx) (t : Tick) : Tick :=
  if (t.s.core n).dueStarts.isEmpty then t
  else
    let u := stateOf t.s (ex (.mxStart n) t.s)
    if !u.running num then t.fail n (.begun (before.core n) (u.core n) c (u.bpWords n) (t.s.sendsOf n (before.core n)) (u.causeOf n))
    else match u.ctx.out with
      | .waits w => { t with s := { u with ctx := {} }, slip := some (n, w) }
      | _ => { t with s := { u with ctx := {} } }

/-- The most ticks by which cores nearer the origin are ahead in what reaches the neighbours of a core n (R111). -/
def Grp.aheadOf (g : Grp) (n : Nat) : Nat := min 15 (3 * g.hops n)

/-- The arrival at core r of a row that core n sends at a tick (R199). -/
def Grp.arrival7 (g : Grp) (n tick r : Nat) : Nat := tick + 3 + 3 * g.hops n - 3 * g.hops r

/-- Whether core n has sent a row to core r at a tick: it stands in r's q7 or has been popped. -/
def State.hasSent (s : State) (g : Grp) (n tick r : Nat) : Bool :=
  let mine (e : Entry) : Bool := !e.old && (e.src.getD (0, 0)).1 == n && e.present == g.arrival7 n tick r
  ((s.core r).queue 7).es.any mine || (s.core r).freed7.any fun p => mine p.2

/-- The entries of r's q7 at the instant at which core n sends at a tick, its own among them (R200). -/
def State.heldAt (s : State) (g : Grp) (n tick r : Nat) : Nat := (s.core r).sentHeld (g.hops r) (g.arrival7 n tick r) n (g.hops n) tick

/-- Whether a core has just sent a row into a q7 that may be fuller than it seems, because cores nearer the origin are ahead and each may send a row at
every tick (R200). -/
def State.sentTight (s : State) (g : Grp) (n : Nat) : Bool :=
  g.cores.any fun r => s.hasSent g n (s.core n).tick r &&
    decide (16 < s.heldAt g n (s.core n).tick r + g.aheadOf n * (g.cores.filter fun m => g.hops m < g.hops n).length)

/-- The X-stream bundle of a core, where `look` says whether what its VSEND sends finds room in global time (R200). DEDUCED, log entry 8. -/
def State.issueX (ex : Instr → State → Result) (look : Nat → Bool) (s : State) (g : Grp) (n : Nat) : Issued :=
  match s.issueBundle ex .x n (s.core n).tick with
  | .raised k w => if k.cause = 0x09 && look n then s.issueBundle ex .x n (s.core n).tick true else .raised k w
  | .issued t => if t.sentTight g n && !look n then .raised { cause := 0x09, engine := 2, addr := (s.core n).x.k.pc } (s.bpWords n) else .issued t
  | r => r

/-- The X-stream bundle of a core at this tick. Only a target of BR or CALL is waited for (DESIGN CHOICE, log entry 122). -/
def Tick.issue (ex : Instr → State → Result) (look : Nat → Bool) (g : Grp) (n : Nat) (t : Tick) : Tick :=
  let s := t.s
  let c := s.core n
  if c.x.k.exiting || c.x.k.exited || c.tick < c.x.next || (c.x.align.isSome && !c.x.aligned) then t
  else if (match c.x.await with | some b => !b.fetched && decide (c.tick < b.ready) | none => false) then { t with slip := some (n, .fetch) }
  else match s.issueX ex look g n with
    | .issued u =>
      let t := match u.ctx.ctl with | .stop cause code addr => { t with traps := t.traps ++ [(n, ({ cause := cause, code := code, addr := addr } : Cause))] } | _ => t
      Tick.sameTick ex g.num n s u.ctx { t with s := { u with ctx := {} } }
    | .waits u .align => { t with s := { u with ctx := {} } }
    | .waits u w => { t with s := { u with ctx := {} }, slip := some (n, w) }
    | .raised k w => t.fail n (.issue k w)
    | .lost a => { t with lost := some a }

/-- The pending starts of a core (R234). -/
def Tick.starts (ex : Instr → State → Result) (num n : Nat) (t : Tick) : Tick :=
  if (t.s.core n).dueStarts.isEmpty then t
  else
    let u := stateOf t.s (ex (.mxStart n) t.s)
    if !u.running num then t.fail n (.start (u.core n) (u.causeOf n))
    else match u.ctx.out with
      | .waits w => { t with s := { u with ctx := {} }, slip := some (n, w) }
      | _ => { t with s := { u with ctx := {} } }

/-- Whether a tick goes on for a core: nothing waits, and a core that failed before it lies as many hops away. -/
def Tick.goesOn (t : Tick) (g : Grp) (n : Nat) : Bool :=
  t.slip.isNone && t.lost.isNone && t.s.running g.num && !t.fails.any fun f => f.1 == n || g.hops f.1 < g.hops n

/-- One core's tick after the landings: rows that arrive, which a core fewer hops away may have sent at this tick (R199), then starts,
bundle and exit check. So a start takes the last token before the bundle (DESIGN CHOICE, log entry 123), gives FQ room to it (DESIGN CHOICE, log entry 125)
and reserves its entries before it, a start in the tick of its issue after it (DESIGN CHOICE, log entry 126). -/
def Tick.core (ex : Instr → State → Result) (look : Nat → Bool) (g : Grp) (t : Tick) (n : Nat) : Tick :=
  let t := if t.goesOn g n then { t with s := stateOf t.s (ex (.vsendArrival n) t.s) } else t
  let t := if t.goesOn g n then Tick.starts ex g.num n t else t
  let t := if t.goesOn g n then Tick.issue ex look g n t else t
  if t.goesOn g n then Tick.exitCheck ex g.num n t else t

/-- Run an event for each core of a list. -/
def State.each (ex : Instr → State → Result) (s : State) (i : Nat → Instr) (ns : List Nat) : State := ns.foldl (fun s n => stateOf s (ex (i n) s)) s

/-- The first stage of a tick: stage predicates and landings; a core whose landing fails has none (R132, R141). DEDUCED, log entry 15. -/
def State.landTick (ex : Instr → State → Result) (s : State) (g : Grp) (ns : List Nat) : Tick :=
  let bad := ns.filter fun n => !(stateOf s (ex (.resultLanding n) s)).running g.num
  let good := ns.filter fun n => !bad.contains n
  let s := good.foldl (fun s n => s.modCore n Core.stagePreds) s
  { s := s.each ex .resultLanding good, fails := bad.map fun n => (n, .landing) }

/-- The fewest hops at which a core of a tick fails. -/
def Tick.failHops (t : Tick) (g : Grp) : Nat := t.fails.foldl (fun m f => min m (g.hops f.1)) 64

/-- The end of a tick: a stop on the state before it, a slip, or the next tick, with the stops that TRAP and BKPT ask for (R183, R311). Of a
wait and a failure the one with fewer hops comes first in time. DESIGN CHOICE, log entry 4. DEDUCED, log entry 15. DEDUCED, log entry 32. -/
def Tick.done (ex : Instr → State → Result) (pre : State) (g : Grp) (key : Nat) (t : Tick) : Result :=
  match t.lost with
  | some a => .fault (.fetchOutside a)
  | none =>
    match t.slip with
    | some (n, w) =>
      if g.hops n < t.failHops g then
        -- a TRAP or BKPT of a bundle that has issued at this tick stops the group as it slips (R148, R183)
        .next (t.traps.foldl (fun s p => s.stop p.1 p.2) (t.s.modGrp g.num fun h => { h with slip := some w, slipCore := n, slipSince := t.s.wall }))
      else .next (stops t)
    | none =>
      if t.fails.isEmpty then .next (t.traps.foldl (fun s p => s.stop p.1 p.2) (t.s.modGrp g.num fun h => { h with key := key }))
      else .next (stops t)
where
  stops (t : Tick) : State := (t.fails.filter fun f => g.hops f.1 == t.failHops g).foldl (fun s f => s.applyFail ex f.1 f.2) pre

/-- The state at the start of a tick. -/
def State.tickPre (s : State) (g : Grp) : State :=
  (g.cores.filter fun n => !(s.core n).atAlign).foldl (fun s n => s.modCore n fun c => { c with tick := g.key, cycle := c.cycle + 1 }) s

/-- What the cores of a group do at a tick. -/
def State.tickOf (ex : Instr → State → Result) (look : Nat → Bool) (pre : State) (g : Grp) : Tick :=
  let ns := g.cores.filter fun n => !(pre.core n).atAlign
  ns.foldl (Tick.core ex look g) (pre.landTick ex g ns)

/-- One tick of a group whose clocks run: every core that is not at an alignment works at the same chart tick, since what cores 3·h ticks
apart in global time do is compared only in VSEND (R111, R146, R199). DEDUCED, log entry 7. -/
def State.chartTickWith (ex : Instr → State → Result) (look : Nat → Bool) (s : State) (g : Grp) : Result :=
  let pre := s.tickPre g
  (pre.tickOf ex look g).done ex pre g (g.key + 1)

/-- Ticks of a group on trial, over some of its cores: every VSEND finds room. It goes no further than a stop or a slip. DEDUCED, log entry 8. -/
def State.trial (ex : Instr → State → Result) (num : Nat) (part : Nat → Bool) (s : State) : Nat → State
  | 0 => s
  | k + 1 =>
    match s.grp? num with
    | some g =>
      if g.status == .running && g.slip.isNone then
        State.trial ex num part (stateOf s (s.chartTickWith ex (fun _ => true) { g with cores := g.cores.filter part })) k
      else s
    | none => s

/-- The next tick of a group on trial with what each core that does not fail does at it, and k more ticks when none fails. -/
def State.ranAhead (ex : Instr → State → Result) (s : State) (g : Grp) (k : Nat) : State :=
  let pre := s.tickPre g
  let t := pre.tickOf ex (fun _ => true) g
  if t.fails.isEmpty && t.lost.isNone then State.trial ex g.num (fun _ => true) (stateOf t.s (t.done ex pre g (g.key + 1))) k else t.s

/-- Whether the row that a core sends at the next tick finds a free entry in its receiver, where everything that happens before or at its
issue instant in global time counts (R200): the cores nearer the origin are tried on for as many ticks as they are ahead, and pops after that instant are
taken back. DEDUCED, log entry 8. -/
def State.roomAhead (ex : Instr → State → Result) (s : State) (g : Grp) (n : Nat) : Bool :=
  let b := s.ranAhead ex g (g.aheadOf n)
  g.cores.all fun r => !b.hasSent g n g.key r || decide (b.heldAt g n g.key r ≤ 16)

/-- Rows that a tick sends to the second die: q7 entries of its cores that are not yet in their receiver. -/
def State.crossing (s t : State) (g : Grp) : List (Nat × Entry) :=
  (g.cores.filter fun r => coreDie r != g.d0).flatMap fun r =>
    (((t.core r).queue 7).es.filter fun e =>
      match e.src with
      | some (m, q) => coreDie m == g.d0 && !(s.core r).early.contains (m, q) && !((s.core r).queue 7).es.any fun f => f.src == some (m, q)
      | none => false).map fun e => (r, e)

/-- A row sent across the dies arrives at a tick 9 before the one at which it is sent (R199): the first die is tried on for the ticks that it
is ahead, and what it sends stands in the receivers before their tick. DEDUCED, log entry 7. -/
def State.earlySends (ex : Instr → State → Result) (s : State) (g : Grp) : State :=
  if g.dies < 2 then s
  else
    let t := s.trial ex g.num (fun n => coreDie n == g.d0) 10
    (s.crossing t g).foldl (fun s e =>
      match e.2.src with
      | some (m, q) =>
        match (t.core m).ops.findSome? fun o => if o.iseq = q then o.lands.findSome? (fun l => match l with | .mesh _ row => some row | _ => none) else none with
        | some row => s.modCore e.1 fun c => if c.full 7 then c else ((c.reserveSent m q e.2.present).fillSent m q row).keepEarly m q
        | none => s
      | none => s) s

/-- One tick of a group whose clocks run. -/
def State.chartTick (ex : Instr → State → Result) (s : State) (g : Grp) : Result :=
  let s := s.earlySends ex g
  s.chartTickWith ex (s.roomAhead ex g) g

/-- The X-streams of a group whose clocks have not started: each reaches its ALIGN (R109, R110). -/
def State.chartStill (ex : Instr → State → Result) (s : State) (g : Grp) : Result :=
  let ns := g.cores.filter fun n => (s.core n).x.align.isNone && !(s.core n).x.k.exiting && !(s.core n).x.k.exited
  (ns.foldl (Tick.core ex (fun _ => false) g) { s := s }).done ex s g g.key

/-- A turn of a group's chart: held during a slip and while the thermal trip stops the reference clock (R146, R380). DEDUCED, log entry 66. -/
def State.chartTurn (ex : Instr → State → Result) (s : State) (num : Nat) : Result :=
  match s.grp? num with
  | none => .next s
  | some g =>
    if g.status != .running || g.slip.isSome || s.power.therm then .next s
    else if g.clock then s.chartTick ex g
    else s.chartStill ex g

/-! ### One turn of an access core or a management core -/

/-- RESUME has succeeded on a core; when it has on every core that ran a handler, the resume begins, or a context whose code is gone ends
(R329, R331). -/
def State.handlersDone (s : State) (n : Nat) : State :=
  match s.grpAt n with
  | none => s
  | some g =>
    if g.status == .handling && !g.cores.any fun m => (s.core m).saved.isSome then
      if g.unresumable then (s.complete g 11 0 0x22).pass g.part else s.beginResume g
    else s

/-- Whether the next bundle of a stream holds a B-class syllable whose guard reads a c register too soon (R162). -/
def State.guardOwed (s : State) (w : Who) (n : Nat) : Bool :=
  let s := { s with ctx := { who := w, core := n } }
  (s.fetch w n s.ctrl.pc 2).1.any fun e => classOf e.2 == 2 && guardOf e.2 != 15#4 && s.owed (32 + (guardOf e.2).toNat)

/-- Whether the cycles of an A-stream's last bundle and of its Idle value have gone by (R35), and its next bundle may read its guards (R162).
DEDUCED, log entry 93. -/
def State.rested (s : State) (n : Nat) : Bool := decide ((s.core n).a.ready ≤ (s.core n).cycle) && !s.guardOwed .a n

/-- The access core's clock goes on by a tick in a turn of its own, unless the chart clock runs and drives it (R146, R166). DEDUCED, log entry 93. -/
def State.ownTick (s : State) (n : Nat) (g : Grp) : State :=
  if s.counts n g then s else s.modCore n fun c => { c with cycle := c.cycle + 1 }

/-- The same for a management core, whose cycles are nanoseconds (R389). -/
def State.mgmtRested (s : State) (n : Nat) : Bool := decide ((s.mcore n).a.ready ≤ s.wall) && !s.guardOwed .mgmt n

/-- A RESUME that waits for its own bundle's accesses goes on once they have been performed (R329). -/
def State.resumeTurn (s : State) (core n : Nat) : State :=
  if (s.core core).unperformed then s
  else match s.resumeChk core n with
    | some k => (s.modCore core fun c => { c with a := { c.a with resuming := none } }).stop core { k with engine := 1 }
    | none => (s.modCore core fun c => c.reissue (c.survey (min n 96))).handlersDone core

/-- A turn of an access core. DESIGN CHOICE, log entry 29. DEDUCED, log entry 66. -/
def State.accessTurn (ex : Instr → State → Result) (s : State) (n : Nat) : Result :=
  match s.grpAt n with
  | none => .next s
  | some g =>
    if s.power.therm then .next s
    else if g.status == .resuming then .next (s.insertedTurn n)
    else if !s.accessRuns n then .next s
    else
      let s := (s.ownTick n g).syncAll n
      let c := s.core n
      if !s.accessRuns n || c.blocked || c.a.k.exiting || c.a.k.exited || !s.rested n then .next s
      else if c.a.resuming.isSome then .next (s.resumeTurn n (c.a.resuming.getD 0))
      else match s.issueBundle ex .a n 0 with
        | .issued t => .next ({ t with ctx := {} }.handlersDone n)
        | .waits t _ => .next { t with ctx := {} }
        | .raised k w => .next ((s.putBps n w).stop n k)
        | .lost a => .fault (.fetchOutside a)

/-- A turn of a management core. -/
def State.mgmtTurn (ex : Instr → State → Result) (s : State) (n : Nat) : Result :=
  if 4 ≤ n || (s.mcore n).halted || !s.mgmtRested n then .next s
  else match s.issueBundle ex .mgmt n 0 with
    | .issued t => .next { t with ctx := {} }
    | .waits t _ => .next { t with ctx := {} }
    | .raised k _ => .next { (({ s with ctx := { who := .mgmt, core := n } } : State).raise k) with ctx := {} }
    | .lost a => .fault (.fetchOutside a)

/-- A turn of a copy engine. DEDUCED, log entry 66. -/
def State.engineTurn (s : State) (n : Nat) : State :=
  match s.grpAt n with
  | none => s
  | some g => if s.power.therm then s else if g.status == .resuming then (s.insertedTurn n).copyTurn n else s.copyTurn n

/-- The events of a chart tick happen in its turn only. DEDUCED, log entry 79. -/
def inTick : Instr → Bool
  | .resultLanding _ => true
  | .vsendArrival _ => true
  | .mxStart _ => true
  | .xExitCheck _ => true
  | _ => false

/-- Events that the reference clock drives: none happens while the thermal trip stops it (R121, R380). DEDUCED, log entry 66. -/
def onReference : Instr → Bool
  | .aClassResult .. => true
  | .queueFill .. => true
  | .targetFetch .. => true
  | .slipEnd _ => true
  | .windowSpillFill _ => true
  | .meridianPulse _ => true
  | .barrierPhaseComplete _ => true
  | .awaitSatisfied _ => true
  | .publishSwap _ => true
  | .tfenceComplete _ => true
  | .translationWalkEnd .. => true
  | .accessPerformed .. => true
  | .commandRetire _ => true
  | .watchCopyFreeze .. => true
  | .bankWakeComplete .. => true
  | .bankIdleWarm .. => true
  | .accBankIdleWarm .. => true
  | .bankScrubComplete .. => true
  | .saveImageComplete _ => true
  | .aStreamExitComplete _ => true
  | _ => false

/-- Time passes: the wall counter in nanoseconds, and what the reference clock counts, in thousandths of a tick: nothing while the thermal trip holds it,
less while the current limiter stretches it (R378, R380). DESIGN CHOICE, log entry 37. -/
def State.elapse (s : State) (adv : Nat) : State :=
  let full := adv * s.power.refcur
  let counted := if s.power.therm then 0 else if s.power.stretch then full - Config.stretched s.wall adv % (full / 2 + 1) else full
  { s with wall := s.wall + adv, power := { s.power with ref := s.power.ref + counted } }

/-- What one turn does. DESIGN CHOICE, log entry 1. DEDUCED, log entry 66. DEDUCED, log entry 79. -/
def State.act (ex : Instr → State → Result) (s : State) : Act → Result
  | .chart num => s.chartTurn ex num
  | .astream n => s.accessTurn ex n
  | .mgmt n => s.mgmtTurn ex n
  | .copy n => .next (s.engineTurn n)
  | .corrected => .next s.countCorrected
  | .upset k c n => .next (if s.bad.contains (k, c, n) then s else { s with bad := (k, c, n) :: s.bad })
  | .outside node off d =>
    .next (if node = Config.nodeId.toNat ∨ 2 ^ 50 < off + d.length then s else s.writeOutside (.peer node off) d)
  | .hide ms => .next { s with order := { s.order with hide := ms } }
  | .spread id ms => .next (s.spread id ms)
  | .early n q => .next (if s.power.therm || !s.opRuns n q then s else s.eased (s.early n q) n)
  | .under n q => .next (if s.power.therm || !s.opRuns n q then s else s.eased (s.under n q) n)
  | .event i => if (encode i).isSome || inTick i || (s.power.therm && onReference i) then .next s else ex i s

end Sys2Proof.Machine
end

