-- ==== Sys2Proof/Machine/Step.lean ====
section
/-! DEFINITION. The step: the next turn of the device's agents in the order that `State.turns` gives, wall time first. What issues,
lands, moves or happens in a turn is said by `State.act`, with `exec` as the meaning of every instruction and event. -/

namespace Sys2Proof.Machine

/-- One step: with no turn left nothing happens. DESIGN CHOICE, log entry 1. -/
def step (s : State) : Host.Outcome State Fault Refusal :=
  match s.turns with
  | [] => .next s
  | t :: rest => ({ s with turns := rest } : State).elapse t.adv |>.act exec t.act

/-! ### A word placed where the next step fetches -/

/-- A syllable with no effect and S = 1, which ends the bundle of a word with S = 0: ADD under a false guard. -/
def filler : Word := 0x8000000000000000#64

/-- The object of `withFetchWord`: a page of X-stream text and one of A-stream text at addresses 0x10000 and 0x20000. -/
def placedObj : Obj :=
  { id := 1, base := 0x10000#64, pa := 0x10000, size := 0x20000, secs := [(1, 0, 0x10000), (2, 0x10000, 0x10000)], syms := [], slots := [],
    templates := [], links := [] }

/-- The group of `withFetchWord`: core 0, its chart clock running at tick 0. -/
def placedGrp (num : Nat) (status : Status) : Grp :=
  { num := num, part := 0, obj := 1, tag := 0#64, x0 := 0, y0 := 0, d0 := 0, w := 1, hgt := 1, dies := 1, cores := [0], depth := 1, prio := 0,
    arrival := 1, parents := [], handler := none, mask := 0#256, status := status, clock := true }

/-- A stream's control state at the placed word: nothing keeps its bundle from issuing. -/
def Ctrl.startAt (k : Ctrl) (pc : Word) : Ctrl := { k with pc := pc, loops := [], exempt := true, fetched := [], exiting := false, exited := false }

/-- The core of `withFetchWord`. ALIGN finds the clock started; RESUME and SVCHK find a handler. -/
def Core.fetching (c : Core) (num : Nat) (align handler : Bool) : Core :=
  { c with
    owner := num, part := some 0, tick := 0
    saved := if handler then some {} else none
    x := { c.x with k := c.x.k.startAt 0x10000#64, next := 0, await := none, align := if align then some (1, 1) else none, aligned := align }
    a := { c.a with k := c.a.k.startAt 0x20000#64, ready := 0, due := [], taken := none } }

/-- A state with an instruction word where the next step fetches: its text is placed in an object of partition 0 on core 0, A-class words,
RESUME and SVCHK on the A-stream and every other word on the X-stream, and the next turn is that stream's. DESIGN CHOICE, log entry 1. -/
def State.withFetchWord (s : State) (nbits w : Nat) : State :=
  let v : Word := BitVec.ofNat 64 (w % 2 ^ nbits)
  let b := classOf v == 2
  let handler := b && (opcodeOf v == 22 || opcodeOf v == 23)
  let onA := classOf v == 6 || handler
  let text := wordBytes v ++ if sBit v then [] else wordBytes filler
  { s with
    cores := sset {} 0 ((s.core 0).fetching s.nextCtx (b && opcodeOf v == 11) handler) s.cores
    groups := placedGrp s.nextCtx (if handler then .handling else .running) :: s.groups.filter fun g => !g.cores.contains 0
    nextCtx := s.nextCtx + 1
    parts := sset {} 0 { s.part 0 with objs := [placedObj] } s.parts
    hbm := Memory.store s.hbm (if onA then 0x20000 else 0x10000) text
    power := { s.power with therm := false }
    turns := [{ adv := 0, act := if onA then .astream 0 else .chart s.nextCtx }] }

end Sys2Proof.Machine
end

