-- ==== Sys2Proof/Safety.lean ====
section
/-! DEFINITION. The terms of the statements: the rules' own formulas for whole families of syllables, written as tables beside the model's
meanings, what a syllable or an event may change, and the shapes of small machines that the statements speak of. -/

namespace Sys2Proof.Machine

/-! ### Scalar syllables (R156 to R161) -/

/-- A scalar syllable as its rule describes it: guard, registers named, latency in control cycles, destination, value from the sources. -/
structure ScalarRow where
  guard : BitVec 4
  regs : List (BitVec 5)
  lat : Nat
  rd : BitVec 5
  value : State → Word

/-- A row of two source registers. -/
def row3 (g : BitVec 4) (rd rs1 rs2 : BitVec 5) (lat : Nat) (f : Word → Word → Word) : Option ScalarRow :=
  some { guard := g, regs := [rd, rs1, rs2], lat := lat, rd := rd, value := fun s => f (s.reg rs1) (s.reg rs2) }

/-- A row of one source register. -/
def row2 (g : BitVec 4) (rd rs1 : BitVec 5) (f : Word → Word) : Option ScalarRow :=
  some { guard := g, regs := [rd, rs1], lat := 1, rd := rd, value := fun s => f (s.reg rs1) }

/-- The smallest signed word. -/
def minWord : Word := 0x8000000000000000#64
/-- The word of all ones, -1. -/
def ones : Word := 0xFFFFFFFFFFFFFFFF#64

/-- The effects of R157 to R161; none for what is no scalar syllable with a destination register. -/
def scalarRow : Instr → Option ScalarRow
  | .add g rd a b => row3 g rd a b 1 fun x y => x + y
  | .sub g rd a b => row3 g rd a b 1 fun x y => x - y
  | .and g rd a b => row3 g rd a b 1 fun x y => x &&& y
  | .or g rd a b => row3 g rd a b 1 fun x y => x ||| y
  | .xor g rd a b => row3 g rd a b 1 fun x y => x ^^^ y
  | .andn g rd a b => row3 g rd a b 1 fun x y => x &&& ~~~y
  | .shl g rd a b => row3 g rd a b 1 fun x y => x <<< (y.toNat % 64)
  | .shr g rd a b => row3 g rd a b 1 fun x y => x >>> (y.toNat % 64)
  | .sar g rd a b => row3 g rd a b 1 fun x y => x.sshiftRight (y.toNat % 64)
  | .rotr g rd a b => row3 g rd a b 1 fun x y => x.rotateRight (y.toNat % 64)
  | .min g rd a b => row3 g rd a b 1 fun x y => if x.toInt < y.toInt then x else y
  | .max g rd a b => row3 g rd a b 1 fun x y => if x.toInt < y.toInt then y else x
  | .minn g rd a b => row3 g rd a b 1 fun x y => if x.toNat < y.toNat then x else y
  | .maxn g rd a b => row3 g rd a b 1 fun x y => if x.toNat < y.toNat then y else x
  | .mul g rd a b => row3 g rd a b 3 fun x y => BitVec.ofNat 64 (x.toNat * y.toNat)
  | .mulh g rd a b => row3 g rd a b 3 fun x y => BitVec.ofInt 64 (x.toInt * y.toInt / 2 ^ 64)
  | .mulhn g rd a b => row3 g rd a b 3 fun x y => BitVec.ofNat 64 (x.toNat * y.toNat / 2 ^ 64)
  | .div g rd a b => row3 g rd a b 18 fun x y => if y = 0#64 then ones else if x = minWord ∧ y = ones then minWord else BitVec.ofInt 64 (x.toInt.tdiv y.toInt)
  | .rem g rd a b => row3 g rd a b 18 fun x y => if y = 0#64 then x else if x = minWord ∧ y = ones then 0#64 else BitVec.ofInt 64 (x.toInt.tmod y.toInt)
  | .divn g rd a b => row3 g rd a b 18 fun x y => if y = 0#64 then ones else BitVec.ofNat 64 (x.toNat / y.toNat)
  | .remn g rd a b => row3 g rd a b 18 fun x y => if y = 0#64 then x else BitVec.ofNat 64 (x.toNat % y.toNat)
  | .clz g rd a => row2 g rd a fun x => BitVec.ofNat 64 (((List.range 64).find? fun k => x.getLsbD (63 - k)).getD 64)
  | .ctz g rd a => row2 g rd a fun x => BitVec.ofNat 64 (((List.range 64).find? fun k => x.getLsbD k).getD 64)
  | .popc g rd a => row2 g rd a fun x => BitVec.ofNat 64 ((List.range 64).filter fun k => x.getLsbD k).length
  | .mov g rd a => row2 g rd a fun x => x
  | .sext g rd a len => row2 g rd a fun x => (x.setWidth (len.toNat + 1)).signExtend 64
  | .zext g rd a len => row2 g rd a fun x => (x.setWidth (len.toNat + 1)).setWidth 64
  | .bfx g rd a pos len => row2 g rd a fun x => (x.extractLsb' pos.toNat (len.toNat + 1)).setWidth 64
  | .bfi g rd a b pos len => row3 g rd a b 1 fun x y =>
      BitVec.ofFnLE fun (k : Fin 64) => if pos.toNat ≤ k.val ∧ k.val ≤ pos.toNat + len.toNat then y.getLsbD (k.val - pos.toNat) else x.getLsbD k.val
  | .sel g rd a b cc => some { guard := g, regs := [rd, a, b], lat := 1, rd := rd, value := fun s => if s.ctrl.cNow cc.toNat then s.reg a else s.reg b }
  | .addi g rd a imm => row2 g rd a fun x => x + imm.signExtend 64
  | .andi g rd a imm => row2 g rd a fun x => x &&& imm.signExtend 64
  | .ori g rd a imm => row2 g rd a fun x => x ||| imm.signExtend 64
  | .xori g rd a imm => row2 g rd a fun x => x ^^^ imm.signExtend 64
  | .shli g rd a n => row2 g rd a fun x => x <<< n.toNat
  | .shri g rd a n => row2 g rd a fun x => x >>> n.toNat
  | .sari g rd a n => row2 g rd a fun x => x.sshiftRight n.toNat
  | .li g rd imm => some { guard := g, regs := [rd], lat := 1, rd := rd, value := fun _ => imm.signExtend 64 }
  | .lih g rd imm => some { guard := g, regs := [rd], lat := 1, rd := rd, value := fun s => imm ++ (s.reg rd).extractLsb' 0 32 }
  | .addpc g rd imm => some { guard := g, regs := [rd], lat := 1, rd := rd, value := fun s => s.ctx.pc + imm.signExtend 64 }
  | _ => none

/-- The relation of a condition code: eq, ne, signed lt, le, gt, ge, unsigned ltn, len, gtn, gen (R40, R162). -/
def compares (cond : BitVec 4) (x y : Word) : Bool :=
  match cond.toNat with
  | 0 => decide (x = y)
  | 1 => decide (x ≠ y)
  | 2 => decide (x.toInt < y.toInt)
  | 3 => decide (x.toInt ≤ y.toInt)
  | 4 => decide (y.toInt < x.toInt)
  | 5 => decide (y.toInt ≤ x.toInt)
  | 6 => decide (x.toNat < y.toNat)
  | 7 => decide (x.toNat ≤ y.toNat)
  | 8 => decide (y.toNat < x.toNat)
  | _ => decide (y.toNat ≤ x.toNat)

/-- The S-class equivalent of a twin half that is not empty, with its two source registers; MOV has one (R42). -/
def halfForm (op : Nat) (rd a b : BitVec 5) : Instr :=
  match op with
  | 1 => .add 15#4 rd a b
  | 2 => .sub 15#4 rd a b
  | 3 => .mul 15#4 rd a b
  | 4 => .and 15#4 rd a b
  | 5 => .or 15#4 rd a b
  | 6 => .xor 15#4 rd a b
  | 7 => .andn 15#4 rd a b
  | 8 => .shl 15#4 rd a b
  | 9 => .shr 15#4 rd a b
  | 10 => .sar 15#4 rd a b
  | 11 => .rotr 15#4 rd a b
  | 12 => .min 15#4 rd a b
  | 13 => .max 15#4 rd a b
  | 14 => .minn 15#4 rd a b
  | 15 => .maxn 15#4 rd a b
  | _ => .mov 15#4 rd a

/-- The effect of a form with sext(imm) in place of rs2 (R42). -/
def halfImm (op : Nat) (x y : Word) : Word :=
  match op with
  | 1 => x + y
  | 2 => x - y
  | 3 => BitVec.ofNat 64 (x.toNat * y.toNat)
  | 4 => x &&& y
  | 5 => x ||| y
  | 6 => x ^^^ y
  | 7 => x &&& ~~~y
  | 8 => x <<< y.toNat
  | 9 => x >>> y.toNat
  | 10 => x.sshiftRight y.toNat
  | 11 => x.rotateRight y.toNat
  | 12 => if x.toInt < y.toInt then x else y
  | 13 => if x.toInt < y.toInt then y else x
  | 14 => if x.toNat < y.toNat then x else y
  | 15 => if x.toNat < y.toNat then y else x
  | _ => y

/-- A twin half as its rule describes it: nothing when op is 0, the row of its S-class equivalent, or that with an immediate (R42). -/
def halfRow (h : TwinHalf) : Option ScalarRow :=
  let op := h.op.toNat
  if op = 0 then none
  else if h.i = 0#1 then scalarRow (halfForm op h.rd h.rs1 (h.low.extractLsb' 7 5))
  else some { guard := 15#4, regs := if op = 16 then [h.rd] else [h.rd, h.rs1], lat := if op = 3 then 3 else 1, rd := h.rd
              value := fun s => halfImm op (s.reg h.rs1) (h.low.signExtend 64) }

/-- A scalar result off the X-stream: a write at the end of the bundle, which x0 discards, with the latency until which nothing reads or writes the
register (R45, R46, R156). -/
def State.written (s : State) (lat : Nat) (r : BitVec 5) (v : Word) : State :=
  if r = 0#5 then s
  else { s with ctx := { s.ctx with writes := s.ctx.writes ++ [.x r.toNat v lat] } }

/-- What a twin half leaves, its value read from the state at issue: on the X-stream an operation that says which half it is, elsewhere a write at the end
of the bundle, which x0 discards (R42, R45, R156). -/
def State.halfDone (s : State) (r : Option ScalarRow) (second : Bool) (at0 : State) : State :=
  match r with
  | none => s
  | some r =>
    if s.ctx.who = .x then
      s.fly { iseq := s.ctx.iseq, bundle := s.ctx.first, word := s.ctx.word, engine := 0, kind := .land, due := s.ctx.tick + r.lat * s.me.divisor 0
              half := second
              lands := [if r.rd.toNat < 8 then .greg r.rd.toNat (r.value at0) else .wreg (s.me.x.base + (r.rd.toNat - 8)) (r.value at0)] }
    else s.written r.lat r.rd (r.value at0)

/-- The guard and the registers that a scalar form, a compare or a twin names (R156, R162, R42). -/
def namedRegs : Instr → Option (BitVec 4 × List (BitVec 5))
  | .cmp g _ a b _ => some (g, [a, b])
  | .cmpi g _ a _ _ => some (g, [a])
  | .twin a b => some (15#4, ((halfRow a).map (·.regs)).getD [] ++ ((halfRow b).map (·.regs)).getD [])
  | i => (scalarRow i).map fun r => (r.guard, r.regs)

/-! ### Turns -/

/-- The state on which a turn acts: without the turn, its wall time passed. -/
def State.turned (s : State) (adv : Nat) (rest : List Turn) : State := ({ s with turns := rest } : State).elapse adv

/-! ### Vector syllables that write a row (R187 to R196) -/

/-- A vector syllable as its rule describes it: guard, latency in vector cycles, destination, sources, a further condition at issue, and the row
from the destination's type and the source rows. -/
structure VectorRow where
  guard : BitVec 4
  lat : Nat
  vd : BitVec 10
  srcs : List (BitVec 10)
  more : State → Chk
  value : Nat → List Row → State → Row

/-- A lane-by-lane row; `f` sees the type and the codes of up to three source lanes. -/
def vecBy (g : BitVec 4) (lat : Nat) (vd : BitVec 10) (vs : List (BitVec 10)) (f : Nat → Nat → Nat → Nat → Nat) : Option VectorRow :=
  some { guard := g, lat := lat, vd := vd, srcs := vs, more := fun _ => .ok, value := fun ty rs _ => laneMap f ty rs }

/-- A row given as a whole. -/
def vecRowBy (g : BitVec 4) (lat : Nat) (vd : BitVec 10) (vs : List (BitVec 10)) (more : State → Chk) (f : Nat → List Row → State → Row) :
    Option VectorRow :=
  some { guard := g, lat := lat, vd := vd, srcs := vs, more := more, value := f }

/-- Exact on values and rounded once, or exact on integers and wrapped or saturated (R187, R188). -/
def exactly (rm : Nat) (sat : Bool) (ff : Val → Val → Val → Val) (fi : Int → Int → Int → Int) : Nat → Nat → Nat → Nat → Nat :=
  arith rm sat ff fi

/-- The effects of R188 to R196. -/
def vectorRow : Instr → Option VectorRow
  | .vadd g vd a b r => vecBy g 4 vd [a, b] (exactly r.toNat false (fun x y _ => Val.add r.toNat x y) fun x y _ => x + y)
  | .vsub g vd a b r => vecBy g 4 vd [a, b] (exactly r.toNat false (fun x y _ => Val.add r.toNat x y.neg) fun x y _ => x - y)
  | .vmul g vd a b r => vecBy g 6 vd [a, b] (exactly r.toNat true (fun x y _ => Val.mul x y) fun x y _ => x * y)
  | .vfma g vd a b c r => vecBy g 6 vd [a, b, c] (exactly r.toNat true (fun x y z => Val.add r.toNat (Val.mul x y) z) fun x y z => x * y + z)
  | .vfms g vd a b c r => vecBy g 6 vd [a, b, c] (exactly r.toNat true (fun x y z => Val.add r.toNat (Val.mul x y) z.neg) fun x y z => x * y - z)
  | .vadds g vd a b r => vecBy g 4 vd [a, b] (addSat r.toNat false)
  | .vsubs g vd a b r => vecBy g 4 vd [a, b] (addSat r.toNat true)
  | .vmin g vd a b => vecBy g 4 vd [a, b] fun ty x y _ => orNan ty [x, y] (pick ty true x y)
  | .vmax g vd a b => vecBy g 4 vd [a, b] fun ty x y _ => orNan ty [x, y] (pick ty false x y)
  | .vclamp g vd a b c => vecBy g 4 vd [a, b, c] fun ty x y z => orNan ty [x, y, z] (pick ty true (pick ty false x y) z)
  | .vabs g vd a => vecBy g 4 vd [a] fun ty x _ _ =>
      if isFloat ty then orNan ty [x] (x % 2 ^ (tyWidth ty - 1)) else intCode (tyWidth ty) (min (sMax (tyWidth ty)) (sInt (tyWidth ty) x).natAbs)
  | .vneg g vd a => vecBy g 4 vd [a] fun ty x _ _ =>
      if isFloat ty then orNan ty [x] ((x + 2 ^ (tyWidth ty - 1)) % 2 ^ tyWidth ty) else intCode (tyWidth ty) (min (sMax (tyWidth ty)) (-(sInt (tyWidth ty) x)))
  | .vmullo g vd a b => vecBy g 6 vd [a, b] fun ty x y _ => x * y % 2 ^ tyWidth ty
  | .vmulh g vd a b u => vecBy g 6 vd [a, b] fun ty x y _ =>
      if u = 0#4 then intCode (tyWidth ty) (sInt (tyWidth ty) x * sInt (tyWidth ty) y / (2 ^ tyWidth ty : Nat)) else x * y / 2 ^ tyWidth ty
  | .vand g vd a b => vecBy g 4 vd [a, b] fun _ x y _ => x &&& y
  | .vor g vd a b => vecBy g 4 vd [a, b] fun _ x y _ => x ||| y
  | .vxor g vd a b => vecBy g 4 vd [a, b] fun _ x y _ => x ^^^ y
  | .vnot g vd a => vecBy g 4 vd [a] fun ty x _ _ => 2 ^ tyWidth ty - 1 - x
  | .vrshr g vd a n => vecBy g 4 vd [a] fun ty x _ _ =>
      if n = 0#6 then x else intCode (tyWidth ty) ((sInt (tyWidth ty) x + (2 ^ (n.toNat - 1) : Nat)) / (2 ^ n.toNat : Nat))
  | .vshl g vd a n => vecBy g 4 vd [a] fun ty x _ _ => x * 2 ^ n.toNat % 2 ^ tyWidth ty
  | .vshr g vd a n => vecBy g 4 vd [a] fun _ x _ _ => x / 2 ^ n.toNat
  | .vsar g vd a n => vecBy g 4 vd [a] fun ty x _ _ => intCode (tyWidth ty) (sInt (tyWidth ty) x / (2 ^ n.toNat : Nat))
  | .vrotl g vd a n => vecRowBy g 4 vd [a] (fun _ => .ok) fun ty rs _ =>
      ofCodes ty ((List.range (tyLanes ty)).map fun k => (codesOf ty (rs.getD 0 0#1024)).getD ((k + n.toNat) % tyLanes ty) 0)
  | .vmovi g vd imm => vecRowBy g 4 vd [] (fun _ => .ok) fun ty _ _ =>
      splat ty (match ty with
        | 0 => imm.toNat * 256
        | 1 => intCode 32 imm.toInt
        | 2 => imm.toNat % 65536
        | _ => intCode 16 (clampI (sMin 16) (sMax 16) imm.toInt))
  | .vbc g vd rs => vecRowBy g 4 vd [] (fun s => if s.lanesOn g (s.me.rowType (s.vrow vd)) = 0#64 then .ok else s.regsOk [rs]) fun ty _ s => splat ty ((s.reg rs).toNat % 2 ^ tyWidth ty)
  | .viota g vd imm => vecRowBy g 4 vd [] (fun _ => .ok) fun ty _ _ =>
      ofCodes ty ((List.range (tyLanes ty)).map fun (k : Nat) =>
        if isFloat ty then (tyFmt ty).enc 0 (Val.ofInt (imm.toInt + k)) else intCode (tyWidth ty) (imm.toInt + k))
  | .vsel g vd a b p => vecRowBy g 4 vd [a, b] (fun _ => .ok) fun ty rs s =>
      blend (laneMask (tyWidth ty) (tyLanes ty) (s.me.pred p.toNat)) (rs.getD 1 0#1024) (rs.getD 0 0#1024)
  | .vmov g vd a => vecRowBy g 4 vd [a] (fun _ => .ok) fun _ rs _ => rs.getD 0 0#1024
  | .vperm g vd a i b => vecRowBy g 6 vd [a, i, b] (fun _ => .ok) fun ty rs _ =>
      ofCodes ty ((codesOf ty (rs.getD 1 0#1024)).map fun k =>
        (codesOf ty (rs.getD 0 0#1024) ++ codesOf ty (rs.getD 2 0#1024)).getD (k % (2 * tyLanes ty)) 0)
  | _ => none

/-- The conversions and the reduction of R193 to R196, on a state whose source types are those given. -/
def convertRow (s : State) : Instr → Option VectorRow
  | .vcvt g vd a r => vecRowBy g 4 vd [a] (fun s => typed (tyLanes (s.me.rowType (s.vrow a)) == tyLanes (s.me.rowType (s.vrow vd)))) fun ty rs _ =>
      ofCodes ty ((codesOf (s.me.rowType (s.vrow a)) (rs.getD 0 0#1024)).map (cvtLane (s.me.rowType (s.vrow a)) ty r.toNat))
  | .vpack g vd a b tg r =>
      let sa := s.me.rowType (s.vrow a)
      let sb := s.me.rowType (s.vrow b)
      vecRowBy g 4 vd [a, b] (fun s => typed (tyLanes sa == tyLanes sb && (tg != 0#4 || (sa < 2 && sb < 2 && 2 ≤ s.me.rowType (s.vrow vd))))) fun ty rs _ =>
        let vs := (codesOf sa (rs.getD 0 0#1024)).map (laneVal sa) ++ (codesOf sb (rs.getD 1 0#1024)).map (laneVal sb)
        if tg = 0#4 then ofCodes ty (vs.map (toLane ty r.toNat)) else rowOf (vs.map (toByte tg.toNat r.toNat))
  | .vunpk g vd a pt tg r =>
      let sa := s.me.rowType (s.vrow a)
      vecRowBy g 4 vd [a] (fun s => typed (s.me.rowType (s.vrow vd) < 2 && (tg != 0#4 || 2 ≤ sa))) fun ty rs _ =>
        let x := rs.getD 0 0#1024
        ofCodes ty ((if tg = 0#4 then (((codesOf sa x).drop (32 * pt.toNat)).take 32).map (laneVal sa)
          else (((rowBytes x).drop (32 * pt.toNat)).take 32).map (ofByte tg.toNat)).map (toLane ty r.toNat))
  | .vqbx g vd a bf r =>
      let sa := s.me.rowType (s.vrow a)
      vecRowBy g 8 vd [a] (fun _ => typed (isFloat sa)) fun _ rs _ =>
        let vs := (codesOf sa (rs.getD 0 0#1024)).map (laneVal sa)
        rowOf (bxQuant r.toNat bf.toNat (vs.take 32) ++ (if sa = 2 then bxQuant r.toNat bf.toNat (vs.drop 32) else []))
  | .vdqbx g vd a bf => vecRowBy g 6 vd [a] (fun s => typed (isFloat (s.me.rowType (s.vrow vd)))) fun ty rs _ =>
      let x := (rs.getD 0 0#1024).toNat
      let n := bxBytes bf.toNat
      ofCodes ty ((List.range (tyLanes ty)).map fun k => bxDequant (tyFmt ty) bf.toNat (x / 2 ^ (8 * n * (k / 32)) % 2 ^ (8 * n)) (k % 32))
  | .vred g vd a op r => vecRowBy g 10 vd [a] (fun _ => .ok) fun ty rs _ => ofCodes ty [reduce ty r.toNat op.toNat (codesOf ty (rs.getD 0 0#1024))]
  | _ => none

/-- What a vector syllable leaves in flight: the selected lanes of its destination row, due after its latency (R36, R142, R186). -/
def State.vectorDone (s : State) (r : VectorRow) : State :=
  let d := s.vrow r.vd
  let ty := s.me.rowType d
  s.fly { s.op 2 r.lat (s.me.divisor 1)
      [.rows [(d, laneMask (tyWidth ty) (tyLanes ty) (s.lanesOn r.guard ty), r.value ty ((r.srcs.map s.vrow).map s.me.row) s)]] with wide := true }

/-- What a vector syllable needs at issue whatever its guard: its rows held, its own condition, and no uncorrectable error (R132, R186, R90). -/
def State.vectorMay (s : State) (r : VectorRow) : Prop :=
  s.heldOk (s.vrow r.vd :: r.srcs.map s.vrow) = .ok ∧ r.more s = .ok ∧ s.rowsGood (r.srcs.map s.vrow) = .ok

/-- The same, with a lane selected (R36). -/
def State.vectorReady (s : State) (r : VectorRow) : Prop := s.lanesOn r.guard (s.me.rowType (s.vrow r.vd)) ≠ 0#64 ∧ s.vectorMay r

/-! ### Encodings of the two-source scalar forms (R41, R46, R157, R158) -/

/-- Opcode, rd, rs1 and rs2 of the forms of R157; a form of two registers has rs2 zero. -/
def aluCode : Instr → Option (BitVec 8 × BitVec 5 × BitVec 5 × BitVec 5)
  | .add _ rd a b => some (0x00#8, rd, a, b)
  | .sub _ rd a b => some (0x01#8, rd, a, b)
  | .and _ rd a b => some (0x09#8, rd, a, b)
  | .or _ rd a b => some (0x0A#8, rd, a, b)
  | .xor _ rd a b => some (0x0B#8, rd, a, b)
  | .andn _ rd a b => some (0x0C#8, rd, a, b)
  | .shl _ rd a b => some (0x0D#8, rd, a, b)
  | .shr _ rd a b => some (0x0E#8, rd, a, b)
  | .sar _ rd a b => some (0x0F#8, rd, a, b)
  | .rotr _ rd a b => some (0x10#8, rd, a, b)
  | .min _ rd a b => some (0x11#8, rd, a, b)
  | .max _ rd a b => some (0x12#8, rd, a, b)
  | .minn _ rd a b => some (0x13#8, rd, a, b)
  | .maxn _ rd a b => some (0x14#8, rd, a, b)
  | .clz _ rd a => some (0x15#8, rd, a, 0#5)
  | .ctz _ rd a => some (0x16#8, rd, a, 0#5)
  | .popc _ rd a => some (0x17#8, rd, a, 0#5)
  | .mov _ rd a => some (0x1D#8, rd, a, 0#5)
  | _ => none

/-- Opcode, rd, rs1 and rs2 of the forms of R158. -/
def mulCode : Instr → Option (BitVec 8 × BitVec 5 × BitVec 5 × BitVec 5)
  | .mul _ rd a b => some (0x02#8, rd, a, b)
  | .mulh _ rd a b => some (0x03#8, rd, a, b)
  | .mulhn _ rd a b => some (0x04#8, rd, a, b)
  | .div _ rd a b => some (0x05#8, rd, a, b)
  | .divn _ rd a b => some (0x06#8, rd, a, b)
  | .rem _ rd a b => some (0x07#8, rd, a, b)
  | .remn _ rd a b => some (0x08#8, rd, a, b)
  | _ => none

/-- The word of a scalar form SR with pos, len and cc zero (R33, R41). -/
def srWord (guard : BitVec 4) (c : BitVec 8 × BitVec 5 × BitVec 5 × BitVec 5) : Word :=
  0#1 ++ 0#3 ++ 0#4 ++ c.1 ++ guard ++ c.2.1 ++ c.2.2.1 ++ c.2.2.2 ++ 0#29

/-! ### Accesses (R264, R265, R292, R295) -/

/-- An access syllable as its rule describes it: guard, registers named, address, and the operands it takes at issue. -/
structure AccessRow where
  guard : BitVec 4
  regs : List (BitVec 5)
  addr : State → Word
  data : State → Word := fun _ => 0#64
  extra : State → Word := fun _ => 0#64
  /-- the register that takes the result -/
  rd : BitVec 5 := 0#5

/-- An atomic: the word at x[b], the operand x[s2], for ACAS the new value x[s3]; x0 reads as zero for the others. -/
def atomicRow (g : BitVec 4) (rs : List (BitVec 5)) (b s2 s3 : BitVec 5) : Option AccessRow :=
  some { guard := g, regs := rs, addr := fun s => s.reg b, data := fun s => s.reg s2, extra := fun s => s.reg s3, rd := rs.headD 0#5 }

/-- The accesses that stand unfinished from their issue on. -/
def accessRow : Instr → Option AccessRow
  | .ld g rd b imm .. => some { guard := g, regs := [rd, b], addr := fun s => s.reg b + imm.signExtend 64, rd := rd }
  | .ldx g rd b ix sh .. => some { guard := g, regs := [rd, b, ix], addr := fun s => s.reg b + s.reg ix <<< sh.toNat, rd := rd }
  | .st g rd b imm .. => some { guard := g, regs := [rd, b], addr := fun s => s.reg b + imm.signExtend 64, data := fun s => s.reg rd }
  | .stx g rd b ix sh .. => some { guard := g, regs := [rd, b, ix], addr := fun s => s.reg b + s.reg ix <<< sh.toNat, data := fun s => s.reg rd }
  | .stq g _ b imm _ => some { guard := g, regs := [b], addr := fun s => s.reg b + imm.signExtend 64 }
  | .aadd g rd b s2 .. => atomicRow g [rd, b, s2] b s2 0#5
  | .amin g rd b s2 .. => atomicRow g [rd, b, s2] b s2 0#5
  | .amax g rd b s2 .. => atomicRow g [rd, b, s2] b s2 0#5
  | .aand g rd b s2 .. => atomicRow g [rd, b, s2] b s2 0#5
  | .aor g rd b s2 .. => atomicRow g [rd, b, s2] b s2 0#5
  | .axor g rd b s2 .. => atomicRow g [rd, b, s2] b s2 0#5
  | .axchg g rd b s2 .. => atomicRow g [rd, b, s2] b s2 0#5
  | .acas g rd b s2 s3 .. => atomicRow g [rd, b, s2, s3] b s2 s3
  | .await g rd b s2 .. => some { guard := g, regs := [rd, b, s2], addr := fun s => s.reg b, data := fun s => s.reg s2, rd := rd }
  | _ => none

/-- Bytes of an access (R263, R265, R291). -/
def accessSize (i : Instr) : Nat := ((accOf i).map (·.size)).getD 1

/-- The bytes a store leaves: an STQ's row, or the low bytes of the register (R264, R265). -/
def AOp.stored (o : AOp) : Bytes :=
  match o.instr with
  | .stq .. => rowBytes o.row
  | i => leBytes (accessSize i) o.data.toNat

/-- The value a load gives rd from the bytes it finds (R264). -/
def loadedWord (i : Instr) (d : Bytes) : Option Word :=
  match i with
  | .ld _ _ _ _ sz sx _ _ => some (loadValue sz.toNat (sx == 1#1) d)
  | .ldx _ _ _ _ _ sz sx _ _ => some (loadValue sz.toNat (sx == 1#1) d)
  | _ => none

/-! ### Commands (R266 to R269) -/

/-- What enqueueing a COPY, GATHER or SCATTER leaves on its core: one more command with its operands and captured pieces, its sequence number and
its reserved cq0 entry, and the slots it will write not ready (R217, R256, R268). -/
def Core.enqueued (c d : Core) (i : Instr) (dst src len aux : Word) (k : Captured) : Prop :=
  (∃ m : Cmd, d.cmds = c.cmds ++ [m] ∧ m.instr = i ∧ m.dst = dst ∧ m.src = src ∧ m.len = len ∧ m.aux = aux ∧ m.reads = k.reads ∧
    m.writes = k.writes ∧ m.seq = c.copySeq ∧ m.progress = 0 ∧ m.entry = some (((c.queue 19).pops + (c.queue 19).es.length) % 65536)) ∧
  d.copySeq = (c.copySeq + 1) % 2 ^ 32 ∧ (d.queue 19).es = (c.queue 19).es ++ [emptyEntry] ∧ (∀ o, o ∈ slotsOf k.writes → (d.slot o).ready = false) ∧
  d.aops = c.aops ∧ d.x = c.x ∧ d.a.x = c.a.x ∧ d.a.k = c.a.k

/-! ### Synchronisation (R286, R297) -/

/-- The race state after a fence: acquire joins what was read, release publishes and raises the epoch (R287). -/
def Race.fenced (r : Race) (rank ord : Nat) : Race :=
  let a := if ord = 1 ∨ ord = 3 then { r with v := joinV r.v r.p, p := [0, 0, 0, 0, 0, 0, 0, 0] } else r
  if ord = 2 ∨ ord = 3 then { a with f := some (a.v.set rank a.e), e := min (a.e + 1) (2 ^ 40 - 1) } else a

/-- Two cores that differ at most in when the next bundle of the access stream may issue (R35). -/
def Core.sameButReady (c d : Core) : Prop := d = { c with a := { c.a with ready := d.a.ready } }

/-- An access core with nothing unfinished, free to issue (R50, R311). -/
def State.calm (s : State) : Prop :=
  s.ctx.who = .a ∧ s.accessRuns s.ctx.core = true ∧ s.me.part.isSome = true ∧ s.me.aops = [] ∧ s.me.cmds = [] ∧ s.me.inserted = []

/-! ### Queue moves (R138, R141, R203) -/

/-- The token that a syllable pops is there (R141). -/
def State.tokenThere (s : State) (tkop : BitVec 2) (ch : BitVec 4) : Prop := tkop = 2#2 → sget 0 ch.toNat s.me.tk ≠ 0

/-- Take the token that a syllable pops (R141). -/
def State.withToken (s : State) (tkop : BitVec 2) (ch : BitVec 4) : State :=
  if tkop = 2#2 then s.modMe fun c => { c with tk := sset 0 ch.toNat (sget 0 ch.toNat c.tk - 1) c.tk } else s

/-- What an operation of the I class leaves in flight: due after lat vector cycles, with the token it pushes at retirement. -/
def State.iOp (s : State) (lat : Nat) (wide : Bool) (tkop : BitVec 2) (ch : BitVec 4) (lands : List Land) : Op :=
  { iseq := s.ctx.iseq, bundle := s.ctx.first, word := s.ctx.word, engine := 4, kind := .land, wide := wide, due := s.ctx.tick + lat * s.me.divisor 1, lands := lands
    push := if tkop = 1#2 then some ch.toNat else none }

/-- A pop that goes on (R203): the head leaves unless it is peeked at or absent; the value, zero when absent, and the flag pair land after two
vector cycles. -/
def State.popDone (s : State) (q : Nat) (md : BitVec 2) (pk : BitVec 1) (cf : BitVec 3) (tkop : BitVec 2) (ch : BitVec 4) (wide : Bool)
    (dest : Row → Land) : State :=
  let h := s.me.head q s.ctx.tick
  let t := if h.isSome ∧ pk = 0#1 then s.modMe fun c => c.pop q else s
  let pair := if md = 2#2 then [Land.creg cf.toNat h.isNone, .creg (cf.toNat + 1) h.isSome] else []
  (t.withToken tkop ch).fly (s.iOp 2 wide tkop ch (dest ((h.map (·.val)).getD 0#1024) :: pair))

/-- A push that goes on (R139, R203): its entry is reserved last in the queue and filled after lat vector cycles. -/
def State.pushDone (s : State) (q lat : Nat) (tkop : BitVec 2) (ch : BitVec 4) (wide : Bool) (v : Row) : State :=
  let u := s.me.queue q
  let t := s.modMe fun c => c.setQueue q { u with es := u.es ++ [emptyEntry] }
  (t.withToken tkop ch).fly (s.iOp lat wide tkop ch [.entries q [((u.pops + u.es.length) % 65536, v)] none])

/-! ### Launches (R99, R104, R105) -/

/-- An unfinished LAUNCH holds its record, or reads it when it goes on: a pointer that R104 accepts, pages that are mapped, banks at full rate,
no earlier command that is still to read them, and no uncorrectable error. -/
def State.launchHolds (s : State) (n : Nat) (o : AOp) (g : Grp) (r : Bytes) : Prop :=
  (o.begun = true ∧ r = o.bytes) ∨
  (o.begun = false ∧ o.caps ≠ [] ∧ s.ways (s.core n).owner g.part o.caps = .clear ∧
    (∀ c ∈ o.caps, s.readOwed n g.part o.iseq (s.landsAt g.part c.2.1) c.2.2 true = false) ∧ s.badByte g.part o.caps = none ∧ r = s.readCaps n g.part o.caps)

/-- Since when a candidate ages: a launch since it became ready, a context since it halted (R98). -/
def State.waitsSince (s : State) (c : Cand) : Nat :=
  match c.launch with
  | some l => l.readySince.getD 0
  | none => ((s.grp? c.ctx).map (·.queuedSince)).getD 0

/-- The whole milliseconds of aging of a candidate have changed since the last pass, of which three count (R98). -/
def State.agedSince (s : State) (p : Nat) (c : Cand) : Bool :=
  min 3 ((s.wall - s.waitsSince c) / 1000000) != min 3 (((s.part p).lastPass - s.waitsSince c) / 1000000)

/-- The images of a saved context with the supervisor's edits (R332). -/
def Grp.editedImages (g : Grp) (edits : Edits) : List (Nat × Core) :=
  g.images.map fun im => match edits.find? fun e => e.core == im.1 with
    | some e => (im.1, im.2.supervised e)
    | none => im

/-! ### Registers of a partition window (R92, R258, R341, R342, R344, R367, R396, R403) -/

/-- The writable bits of a register that a write of the firmware changes only by those bits. -/
def plainMask (off : Nat) : Option Word :=
  if off % 8 ≠ 0 then none
  else if off < 0x400 then (if off % 0x40 < 0x10 then some ones else none)
  else if 0x500 ≤ off ∧ off < 0x580 then some (if off % 16 = 0 then ones else 0xF00000FFFFFFFFFF#64)
  else if 0x580 ≤ off ∧ off < 0x600 then (if off % 16 = 0 then some ones else none)
  else if 0x840 ≤ off ∧ off < 0x870 then some ones
  else match off with
    | 0x400 => some 0x7FFFFFF000#64
    | 0x410 => some ones
    | 0x418 => some 0xFFFF#64
    | 0x600 => some 0xFFFFFFFFFFFFF000#64
    | 0x610 => some 0xFFFFFFFF#64
    | 0x620 => some 0xFFFFFFFFFFFF0000#64
    | 0x638 => some 0xFFFFFFFF#64
    | 0x660 => some 0xFFFFFFFFFFFF0000#64
    | 0x668 => some 0xC00000000000003F#64
    | 0x700 => some ones
    | 0x900 => some ones
    | _ => none

/-- Offsets that no write changes: read-only registers and what the window reserves. -/
def noWrite (off : Nat) : Bool :=
  off % 8 != 0 || (decide (off < 0x400) && decide (0x20 ≤ off % 0x40)) || decide (0xA00 ≤ off) ||
  [0x428, 0x430, 0x608, 0x630, 0x640, 0x710, 0x808, 0x810, 0x878, 0x910].contains off

/-- The bytes that a peer's access covers (R254). -/
def peerSize : PeerOp → Nat
  | .read n => n
  | .write d => d.length
  | .atomic _ sz _ _ => 2 ^ sz
  | .await sz _ _ => 2 ^ sz

/-! ### Syllables that only leave results in flight -/

/-- X-stream syllables that change nothing at issue but the operations in flight and what they leave for the end of their bundle. -/
def onlyFlies : Instr → Bool
  | .cmp .. => true
  | .cmpi .. => true
  | .twin .. => true
  | .nop _ => true
  | .pbr .. => true
  | .pbrx .. => true
  | .br .. => true
  | .call .. => true
  | .ret _ => true
  | .loop .. => true
  | .loopx .. => true
  | .loopR .. => true
  | .loopxR .. => true
  | .lexit .. => true
  | .contour .. => true
  | .wait .. => true
  | .clkdiv .. => true
  | .mts .. => true
  | .exit _ => true
  | .trap .. => true
  | .bkpt .. => true
  | .vcmp .. => true
  | .vflag .. => true
  | .acq .. => true
  | .arel .. => true
  | .oclaim .. => true
  | .orel .. => true
  | .owr .. => true
  | .lginv .. => true
  | .lgsave .. => true
  | .lgload .. => true
  | .lgsum .. => true
  | .lgb .. => true
  | .lgbc .. => true
  | .mlu .. => true
  | .mluc .. => true
  | .mzero .. => true
  | .mdrain .. => true
  | .mdrainSt .. => true
  | .vcvt .. => true
  | .vpack .. => true
  | .vunpk .. => true
  | .vqbx .. => true
  | .vdqbx .. => true
  | .vred .. => true
  | i => (scalarRow i).isSome || (vectorRow i).isSome

/-- X-stream syllables that also move queue entries or tokens of their core. -/
def movesQueues : Instr → Bool
  | .vpop .. => true
  | .ypop .. => true
  | .spop .. => true
  | .cpop .. => true
  | .vpush .. => true
  | .apush .. => true
  | .fmt .. => true
  | .fmti .. => true
  | .ipsel .. => true
  | .ipld .. => true
  | .ipf .. => true
  | _ => false

/-- Every byte of every memory of two devices that is no scratchpad or slot reads the same. -/
def sameMemory (s t : State) : Prop := ∀ a, Memory.read t.hbm a = Memory.read s.hbm a ∧ Memory.read t.peer a = Memory.read s.peer a

/-- The MX syllables with their guard, start delay and the vector base their start uses (R221, R234 to R244). -/
def mxRow (s : State) : Instr → Option (BitVec 4 × BitVec 12 × Nat)
  | .lgb g _ dl _ sk src _ _ => some (g, dl, if sk = 0#1 then s.vrow src else 0)
  | .lgbc g _ dl _ sk src _ _ => some (g, dl, if sk = 0#1 then s.vrow src else 0)
  | .mlu g _ dl .. => some (g, dl, 0)
  | .mluc g _ dl .. => some (g, dl, 0)
  | .mzero g _ dl .. => some (g, dl, 0)
  | .mdrain g _ dl _ vb _ _ => some (g, dl, s.vrow vb)
  | .mdrainSt g _ dl .. => some (g, dl, 0)
  | _ => none

/-- A slot of a core that a start may read: claimed, ready and without an uncorrectable error (R90, R223, R234). -/
def State.slotGood (s : State) (n k : Nat) : Prop :=
  ((s.core n).slot k).claimed = true ∧ ((s.core n).slot k).ready = true ∧ s.bad.contains (2, n, k) = false

/-- A bank of a core that a start may read: held and without an uncorrectable error (R90, R223, R234). -/
def State.bankGood (s : State) (n a : Nat) : Prop := ((s.core n).bank a).held = true ∧ s.bad.contains (3, n, a) = false

/-- Legends of a core that a start may read (R219, R90). -/
def State.legendsMay (s : State) (n l m : Nat) : Prop :=
  ∀ i, i < m → (s.core n).legendFault (l + i) = none ∧ s.bad.contains (4, n, l + i) = false

/-- A token that a start pops is there (R141). -/
def State.tokenAt (s : State) (n : Nat) (tkop : BitVec 2) (ch : BitVec 4) : Prop := tkop = 2#2 → sget 0 ch.toNat (s.core n).tk ≠ 0

/-- The type that a bank needs under a format word: I32 when ACC is 1, else F32 (R234). -/
def State.bankTyped (s : State) (n a : Nat) (fw : Word) : Prop := ((s.core n).bank a).ty = if fwInt fw then 1 else 0

/-- The source of a build: rows of one held bank, or a slot (R222, R223). -/
def State.sourceMay (s : State) (n : Nat) (o : Op) (sk : BitVec 1) (src : BitVec 10) (r : Nat) : Prop :=
  if sk = 0#1 then o.vbase % 16 + r ≤ 16 ∧ s.bankGood n (o.vbase / 16) else s.slotGood n src.toNat

/-- The parameter slot of a drain, where its word asks for one (R234). -/
def State.paramMay (s : State) (n : Nat) (fw : Word) : Prop := fwZps fw ≠ 0 ∨ fwDms fw ≠ 0 → s.slotGood n (fwPslot fw)

/-- What an MX syllable needs of its core at its start tick, with its format word (R222, R223, R231, R234). -/
def State.mayStart (s : State) (n : Nat) (o : Op) (fw : Word) : Prop :=
  let c := s.core n
  let r := fwRows fw
  fwOk fw = true ∧
  match o.mx with
  | some (.lgb _ _ _ l sk src tkop ch) =>
    fwB fw ≤ 9 ∧ l.toNat + r ≤ 256 ∧ s.sourceMay n o sk src r ∧ c.e.builderEnd ≤ c.tick ∧ s.tokenAt n tkop ch
  | some (.lgbc _ _ _ l sk src tkop ch) =>
    10 ≤ fwB fw ∧ l.toNat + 8 * r ≤ 256 ∧ s.sourceMay n o sk src r ∧ s.slotGood n (fwCb fw) ∧ c.e.builderEnd ≤ c.tick ∧ s.tokenAt n tkop ch
  | some (.mlu _ _ _ a l k seg tkop ch) =>
    fwB fw ≤ 9 ∧ l.toNat + r ≤ 256 ∧ seg.toNat < segLimit (fwB fw) ∧ (c.bank a.toNat).held = true ∧ s.bankTyped n a.toNat fw ∧
    s.slotGood n k.toNat ∧ s.legendsMay n l.toNat r ∧ c.e.arrayEnd ≤ c.tick ∧ s.tokenAt n tkop ch
  | some (.mluc _ _ _ a l k seg tkop ch) =>
    10 ≤ fwB fw ∧ l.toNat + (if fwB fw = 10 then 8 else 16) * r ≤ 256 ∧ seg.toNat < segLimit (fwB fw) ∧ (c.bank a.toNat).held = true ∧
    s.bankTyped n a.toNat fw ∧ s.slotGood n k.toNat ∧ s.legendsMay n l.toNat ((if fwB fw = 10 then 8 else 16) * r) ∧ c.e.arrayEnd ≤ c.tick ∧
    s.tokenAt n tkop ch ∧ c.mlucRange fw l.toNat k.toNat seg.toNat = false
  | some (.mzero _ _ _ a tkop ch) => (c.bank a.toNat).held = true ∧ s.bankTyped n a.toNat fw ∧ s.tokenAt n tkop ch
  | some (.mdrain _ _ _ a _ tkop ch) =>
    o.vbase % 16 + r ≤ 16 ∧ s.bankGood n a.toNat ∧ (c.bank (o.vbase / 16)).held = true ∧ s.bankTyped n a.toNat fw ∧ s.paramMay n fw ∧
    c.e.drainEnd ≤ c.tick ∧ s.tokenAt n tkop ch
  | some (.mdrainSt _ _ _ a k tkop ch) =>
    s.bankGood n a.toNat ∧ s.bankTyped n a.toNat fw ∧ s.paramMay n fw ∧ c.e.drainEnd ≤ c.tick ∧ s.tokenAt n tkop ch ∧
    c.freeBuffer.isSome = true ∧ (c.queue (8 + k.toNat)).es.length + r ≤ 16
  | _ => False

/-- The pending start of a core takes another form. -/
def Core.holdWord (c : Core) (o p : Op) : Core :=
  { c with ops := c.ops.map fun q => if q.iseq = o.iseq && q.engine = 3 && q.kind == .start then p else q }

/-- Matrix cycles from the start tick of an MX syllable to its landing (R49). -/
def mxLatency (o : Op) (fw : Word) : Nat :=
  match o.mx with
  | some (.lgb ..) => 12
  | some (.lgbc ..) => 8 * fwRows fw + 4
  | some (.mlu ..) => 2 * fwPlanes fw + 6
  | some (.mluc ..) => if fwB fw = 10 then 7 else 8
  | some (.mzero ..) => 2
  | _ => fwRows fw + 4

end Sys2Proof.Machine
end

