-- ==== Sys2Proof/Certificates/Slice0/Obligations.lean ====
section
/-! DEFINITION. The statements for the provers. Each says which rules of the manual it rests on. -/

section Statements

open Sys2Proof Sys2Proof.Machine

/-- For every well-formed instruction that has a syllable, every S bit and every Idle count (which is 0 where S is 0), the syllable decodes
to exactly that instruction, and S and Idle are read back. (R33, R34, R35, R41, R42, R43, R44, R51). -/
def Obligations.EncodeThenDecode : Prop :=
  ∀ (i : Instr) (s : Bool) (idle : BitVec 4) (w : Word), i.wf = true → encodeWith s idle i = some w → (s = true ∨ idle = 0#4) →
    decode w = .ok i ∧ sBit w = s ∧ idleOf w = idle.toNat

/-- What the decoder accepts is well-formed, is not of class 7, has Idle 0 where S is 0, and its encoding is the word with S and Idle
cleared; two accepted words with the same instruction, S and Idle are the same word, so no bit is ignored. (R33, R34, R51). -/
def Obligations.DecodedWordsAreExact : Prop :=
  (∀ (w : Word) (i : Instr), decode w = .ok i →
    i.wf = true ∧ classOf w ≠ 7 ∧ (sBit w = false → idleOf w = 0) ∧ encode i = some (bare w)) ∧
  (∀ (v w : Word) (i : Instr), decode v = .ok i → decode w = .ok i → sBit v = sBit w → idleOf v = idleOf w → v = w)

/-- The example words of the manual for CMP, SEL, PBR, BR under c3, CALL, HLD and HFREE decode to those syllables with the operands the
manual gives. (R33, R41, R162, R164, R165, R273). -/
def Obligations.ManualWordsDecode : Prop :=
  decode 0x0028F42544000000#64 = .ok (.cmp 15#4 2#3 9#5 10#5 2#4) ∧
  decode 0x801CF6254000C000#64 = .ok (.sel 15#4 12#5 9#5 10#5 3#3) ∧
  decode 0xA001F4000000000C#64 = .ok (.pbr 15#4 2#3 12#32) ∧
  decode 0xA003340000000000#64 = .ok (.br 3#4 2#3) ∧
  decode 0xA004F30000000000#64 = .ok (.call 15#4 1#3 4#3) ∧
  decode 0xE00DF31000000000#64 = .ok (.hld 15#4 3#4 4#5) ∧
  decode 0xE010F30000000000#64 = .ok (.hfree 15#4 3#4)

/-- When the next turn is a machine event of the table, the step is the meaning of the event on the state without that turn and with its
time passed (R380: on the reference clock none while a thermal trip stops it). The turns are the model's own way to say which agent moves
next (log entry 1). An event of a chart tick as a turn of its own does nothing, since it happens inside a chart turn (log entry 79, the
model's choice); an event that the reference clock drives does nothing while the thermal trip holds that clock (log entry 66, the model's
reading of R380). With no turn the state stays. (R1, R142, R378, R380, 05_core_architecture.md). -/
def Obligations.StepRunsEvent : Prop :=
  (∀ (s : State) (adv : Nat) (i : Instr) (rest : List Turn), s.turns = { adv := adv, act := .event i } :: rest → encode i = none →
    let u := s.turned adv rest
    (inTick i = false → (u.power.therm = true → onReference i = false) → step s = exec i u) ∧
    (inTick i = true → step s = .next u) ∧
    (u.power.therm = true → onReference i = true → step s = .next u)) ∧
  (∀ (s : State) (adv : Nat) (rest : List Turn), (s.turned adv rest).wall = s.wall + adv ∧ (s.turned adv rest).cores = s.cores ∧
    (s.power.therm = true → (s.turned adv rest).power.ref = s.power.ref) ∧
    (s.power.therm = false → s.power.stretch = false → (s.turned adv rest).power.ref = s.power.ref + adv * s.power.refcur)) ∧
  (∀ s : State, s.turns = [] → step s = .next s)

/-- For each kind of stream: if the fetch at its pc gives one syllable with S = 1 that decodes to i, i may stand on the stream, no
breakpoint and no fault of the whole bundle stops it, and exec of i runs on the state that keeps the syllable as fetched, with the
syllable's address, word, sequence number and tick in the issue context, then the bundle issues with exactly that result, ended at the
address past the syllable with its Idle count. (R37, R51, R142, R313, R343). -/
def Obligations.BundleRunsTheDecodedSyllable : Prop :=
  ∀ (s : State) (w : Who) (n tick : Nat) (room : Bool) (v past : Word) (i : Instr) (s2 t : State),
    let s0 : State := { s with ctx := { who := w, core := n, tick := tick, room := room } }
    let pc := s0.ctrl.pc
    let first := match w, s0.me.x.align with | .x, some (f, _) => f | _, _ => nextIseq s0.me.iseq
    let s1 : State := { s0 with ctx := { s0.ctx with pc := pc, first := first } }
    let base : Ctx := { s1.ctx with past := past }
    let ready : State := s2.modCtrl fun k => { (if w = .mgmt then k else k.hold [(pc, v)]) with exempt := true }
    s1.fetch w n pc (if w = .x then 4 else 2) = ([(pc, v)], .whole past) →
    decode v = .ok i → s1.legalOn i v = true → s1.breaks [{ addr := pc, word := v, instr := i }] = (s2, none) →
    ({ ready with ctx := base } : State).bundleFault [{ addr := pc, word := v, instr := i }] past = .go →
    exec i { ready with ctx := { base with pc := pc, word := v, iseq := first } } = .next t → t.ctx.out = .running →
    (w = .mgmt ∨ t.me.held - (if t.me.x.aligned && t.me.x.align.isSome then 1 else 0) ≤ 96) →
    s.issueBundle exec w n tick room = .issued (t.endBundle past (idleOf v) first)

/-- When a running access core has nothing that blocks issue and the cycles of its last bundle have gone by, or a management core is not
halted and its cycles have gone by, the step of its turn is the issued bundle of `BundleRunsTheDecodedSyllable`, with the issue context
cleared. Turns are the model's own way to say which agent moves next (log entry 1); that the cycles of an access core are told by its chart
clock, and by its turns while that clock does not run, is log entry 93. (R37, R50, R142, R389). -/
def Obligations.StepIssuesOnStreams : Prop :=
  (∀ (s : State) (adv n : Nat) (rest : List Turn) (g : Grp) (t : State), s.turns = { adv := adv, act := .astream n } :: rest →
    let u := s.turned adv rest
    let v := (u.ownTick n g).syncAll n
    u.grpAt n = some g → u.power.therm = false → g.status ≠ .resuming → u.accessRuns n = true → v.accessRuns n = true → v.rested n = true →
    (v.core n).blocked = false → (v.core n).a.resuming = none → (v.core n).a.k.exiting = false → (v.core n).a.k.exited = false →
    v.issueBundle exec .a n 0 = .issued t → step s = .next (({ t with ctx := {} } : State).handlersDone n)) ∧
  (∀ (s : State) (adv n : Nat) (rest : List Turn) (t : State), s.turns = { adv := adv, act := .mgmt n } :: rest → n < 4 →
    let u := s.turned adv rest
    (u.mcore n).halted = false → u.mgmtRested n = true → u.issueBundle exec .mgmt n 0 = .issued t → step s = .next { t with ctx := {} })

/-- When a group runs, its clock is started, no slip holds it and no thermal trip stops the clock, the step of its chart turn is one tick of
the group; in a tick, a core that is to issue and whose bundle issues goes on with that bundle's state and the starts of the same tick, and
the bundle that issues is the one of `BundleRunsTheDecodedSyllable` unless a row it sent may have found q7 full (R200). While a slip or a
thermal trip holds the clock, a chart turn leaves the state as it is but for the turn and its time. Chart turns are the model's own (log
entry 1), and so is one common tick for the cores of a group, whose clocks R111 sets 3h ticks apart (log entry 7). (R111, R142, R146, R380).
-/
def Obligations.StepRunsChartTick : Prop :=
  (∀ (s : State) (adv num : Nat) (rest : List Turn) (g : Grp), s.turns = { adv := adv, act := .chart num } :: rest →
    let u := s.turned adv rest
    u.grp? num = some g →
    (g.status = .running → g.slip = none → u.power.therm = false → g.clock = true → step s = u.chartTick exec g) ∧
    (g.slip.isSome = true ∨ u.power.therm = true → step s = .next u)) ∧
  (∀ (look : Nat → Bool) (g : Grp) (n : Nat) (t : Tick) (u : State),
    let c := t.s.core n
    c.x.k.exiting = false → c.x.k.exited = false → c.x.next ≤ c.tick → (c.x.align.isSome && !c.x.aligned) = false →
    c.x.await = none → t.s.issueX exec look g n = .issued u → (∀ k code addr, u.ctx.ctl ≠ .stop k code addr) →
    Tick.issue exec look g n t = Tick.sameTick exec g.num n t.s u.ctx { t with s := { u with ctx := {} } }) ∧
  (∀ (look : Nat → Bool) (s u : State) (g : Grp) (n : Nat), s.issueBundle exec .x n (s.core n).tick = .issued u → u.sentTight g n = false →
    s.issueX exec look g n = .issued u)

/-- Right after package reset every engine divisor of every core is 2, the reference frequency request and limit hold their reset values,
the ceiling of every launch queue is 7, no context is placed and no core is owned, every management core is halted. Every memory lists
nothing and so is in canonical form: what a byte reads as that nothing has written is the model's choice (log entry 2). (R3, R93, R373,
R394). -/
def Obligations.ResetValues : Prop :=
  (∀ c k, k < 4 → (State.reset.core c).divisor k = 2) ∧
  State.reset.power.refset = 2400 ∧ State.reset.power.plimit = 1500 ∧
  (∀ p q, q < 16 → (State.reset.part p).ceil q = 7) ∧
  State.reset.groups = [] ∧ (∀ c, (State.reset.core c).owner = 0) ∧ (∀ n, (State.reset.mcore n).halted = true) ∧
  State.reset.hbm = [] ∧ State.reset.peer = [] ∧ (∀ c, (State.reset.core c).sp = [] ∧ (State.reset.core c).e.slotMem = []) ∧
  Memory.wf State.reset.hbm = true ∧ Memory.wf State.reset.peer = true ∧ (∀ c, Memory.wf (State.reset.core c).sp = true)

/-- Each of the 18 forms ADD to MOV of R157 is encoded as format SR with its opcode, rs2 zero in a form of two registers and pos, len and cc
zero, and, when its guard is true and it may name its registers, it completes by writing the value the rule gives, modulo 2^64, to rd after
one control cycle. (R157). -/
def Obligations.RegisterForms : Prop :=
  ∀ (i : Instr) (c : BitVec 8 × BitVec 5 × BitVec 5 × BitVec 5) (row : ScalarRow) (s : State), aluCode i = some c → scalarRow i = some row →
    encode i = some (srWord row.guard c) ∧ row.rd = c.2.1 ∧
    (s.guardC row.guard = true → s.regsOk row.regs = .ok → exec i s = .next (s.putReg 1 row.rd (row.value s)))

/-- MUL, MULH, MULHN, DIV, DIVN, REM and REMN are encoded as format SR with opcodes 0x02 to 0x08 and zero pos, len and cc, and complete with
the results of R158 for every operand pair, division by zero and -2^63 / -1 included. (R158). -/
def Obligations.MultiplyDivide : Prop :=
  ∀ (i : Instr) (c : BitVec 8 × BitVec 5 × BitVec 5 × BitVec 5) (row : ScalarRow) (s : State), mulCode i = some c → scalarRow i = some row →
    encode i = some (srWord row.guard c) ∧ row.rd = c.2.1 ∧
    (s.guardC row.guard = true → s.regsOk row.regs = .ok → exec i s = .next (s.putReg row.lat row.rd (row.value s)))

/-- SEXT, ZEXT, BFX, BFI, SEL, the immediate forms of R160 and LI, LIH, ADDPC complete, guard true and registers usable, by writing the
value their rule gives to rd after one control cycle. (R159, R160, R161, R46). -/
def Obligations.FieldAndImmediateForms : Prop :=
  ∀ (i : Instr) (row : ScalarRow) (s : State), scalarRow i = some row → aluCode i = none → mulCode i = none →
    s.guardC row.guard = true → s.regsOk row.regs = .ok → row.lat = 1 ∧ exec i s = .next (s.putReg 1 row.rd (row.value s))

/-- With a true guard and usable registers CMP and CMPI complete by writing the relation of their condition code, and its complement, to
c[cd] and c[cd + 1]. A well-formed twin whose registers are usable completes: each half that is not empty leaves the value of its S-class
equivalent by the table of R42, from the sources read at issue, in flight for the latency of that form on the X-stream and written at the
end of the bundle on the others, in the order in which the latencies end and of equal ones the second half last; an empty half leaves
nothing. (R40, R42, R46, R156, R162). -/
def Obligations.ComparesAndTwins : Prop :=
  (∀ (g : BitVec 4) (cd : BitVec 3) (a b : BitVec 5) (cond : BitVec 4) (s : State), (Instr.cmp g cd a b cond).wf = true → s.guardC g = true →
    s.regsOk [a, b] = .ok → exec (.cmp g cd a b cond) s = .next (s.putPair cd (compares cond (s.reg a) (s.reg b)))) ∧
  (∀ (g : BitVec 4) (cd : BitVec 3) (a : BitVec 5) (cond : BitVec 4) (imm : BitVec 30) (s : State), (Instr.cmpi g cd a cond imm).wf = true →
    s.guardC g = true → s.regsOk [a] = .ok → exec (.cmpi g cd a cond imm) s = .next (s.putPair cd (compares cond (s.reg a) (imm.signExtend 64)))) ∧
  (∀ (a b : TwinHalf) (s : State), (Instr.twin a b).wf = true → s.regsOk (((halfRow a).map (·.regs)).getD [] ++ ((halfRow b).map (·.regs)).getD []) = .ok →
    exec (.twin a b) s = .next ((s.halfDone (halfRow a) false s).halfDone (halfRow b) true s)) ∧
  (∀ (ra rb na nb : Nat) (va vb : Word), landOrder [.x ra va na, .x rb vb nb] = if na ≤ nb then [.x ra va na, .x rb vb nb] else [.x rb vb nb, .x ra va na])

/-- On the X-stream a scalar result is one more operation in flight, due its latency times the control divisor after the issue tick, for a
global register or for the absolute window position named at issue; a condition pair is due one control cycle after issue. On an access
stream or a management core it is written at the end of the bundle, and a write of x0 changes nothing; of the writes of one bundle those
with the longer latency come later; with a latency above one cycle the register is owed until that many cycles after the issue, and a c
register as a guard of the B class until two; a syllable that names an owed register waits, and one that names none owed and none awaited
does not. How the cycles of an access core are counted is the model's reading (log entry 93). No other core and no memory byte changes.
(R45, R46, R136, R142, R143, R156, R162). -/
def Obligations.ScalarResultsInFlight : Prop :=
  (∀ (s : State) (lat : Nat) (r : BitVec 5) (v : Word), s.ctx.who = .x →
    (s.putReg lat r v).me = { s.me with ops := s.me.ops ++
      [{ iseq := s.ctx.iseq, bundle := s.ctx.first, word := s.ctx.word, engine := 0, kind := .land, due := s.ctx.tick + lat * (s.me.divisor 0),
         lands := [if r.toNat < 8 then .greg r.toNat v else .wreg (s.me.x.base + (r.toNat - 8)) v] }] } ∧
    (∀ c, c ≠ s.ctx.core → (s.putReg lat r v).core c = s.core c) ∧ sameMemory s (s.putReg lat r v)) ∧
  (∀ (s : State) (lat : Nat) (r : BitVec 5) (v : Word), s.ctx.who ≠ .x → s.putReg lat r v = s.written lat r v) ∧
  (∀ (s : State) (cd : BitVec 3) (v : Bool), s.ctx.who ≠ .x →
    s.putPair cd v = { s with ctx := { s.ctx with writes := s.ctx.writes ++ [.c cd.toNat v, .c (cd.toNat + 1) (!v)] } }) ∧
  (∀ (s : State) (n : Nat) (v : Word) (lat : Nat), s.ctx.who = .a →
    (s.applyWrite (.x n v lat)).me.a = { s.me.a with
      x := sset 0#64 n v s.me.a.x, due := if lat ≤ 1 then s.me.a.due else sset 0 n (s.me.cycle + lat * s.me.divisor 0) s.me.a.due }) ∧
  (∀ (s : State) (n : Nat) (v : Bool), s.ctx.who = .a →
    (s.applyWrite (.c n v)).me.a = { s.me.a with
      due := sset 0 (32 + n) (s.me.cycle + 2 * s.me.divisor 0) s.me.a.due, k := { s.me.a.k with c := sset [] n [(0, v)] s.me.a.k.c } }) ∧
  (∀ (ws : List AWrite) (w : AWrite), (∀ u ∈ ws, u.lat ≤ w.lat) → landOrder (ws ++ [w]) = landOrder ws ++ [w]) ∧
  (∀ (s : State) (rs : List (BitVec 5)) (r : BitVec 5), s.ctx.who = .a → r ∈ rs → r ≠ 0#5 → s.me.cycle < sget 0 r.toNat s.me.a.due →
    s.regsOk rs = .waits .reg) ∧
  (∀ (s : State) (rs : List (BitVec 5)), s.ctx.who = .a → (∀ r ∈ rs, sget 0 r.toNat s.me.a.due ≤ s.me.cycle) → s.me.aops = [] → s.regsOk rs = .ok) ∧
  (∀ (s : State) (cd : BitVec 3) (v : Bool), s.ctx.who = .x →
    (s.putPair cd v).me = { s.me with ops := s.me.ops ++
      [{ iseq := s.ctx.iseq, bundle := s.ctx.first, word := s.ctx.word, engine := 0, kind := .land, due := s.ctx.tick + s.me.divisor 0,
         lands := [.creg cd.toNat v, .creg (cd.toNat + 1) (!v)] }] })

/-- A well-formed syllable of class S, B, M, I or A that may stand on its stream and whose guard is false leaves the whole state as it is.
(R36, R51). -/
def Obligations.FalseGuardDoesNothing : Prop :=
  ∀ (i : Instr) (w : Word) (s : State), i.wf = true → encode i = some w → classOf w ≠ 1 → classOf w ≠ 3 →
    s.legalOn i w = true → s.guardTrue { addr := s.ctx.pc, word := w, instr := i } = false → exec i s = .next s

/-- On the X-stream a scalar form, a compare or a twin with a true guard that names wn with n at or above F stops the group with FRAME-
RANGE; on an access stream one that names a register that an unfinished A-class syllable will write, or whose latency has not gone by, waits
for it, and on a management core one whose latency has not gone by. How the cycles of an access core and a management core are counted is
log entry 93. (R50, R149, R156). -/
def Obligations.RegistersOutOfReach : Prop :=
  ∀ (i : Instr) (g : BitVec 4) (rs : List (BitVec 5)) (s : State), i.wf = true → namedRegs i = some (g, rs) → s.guardC g = true →
    (s.ctx.who = .x → rs.any s.me.x.outside = true → exec i s = .next (s.raise { cause := 0x02 })) ∧
    (s.ctx.who = .a → (rs.any fun r => r.toNat != 0 && (s.owed r.toNat || s.me.aops.any fun o => o.dest == some r.toNat)) = true →
      exec i s = .next (s.waiting .reg)) ∧
    (s.ctx.who = .mgmt → (rs.any fun r => r.toNat != 0 && s.owed r.toNat) = true → exec i s = .next (s.waiting .reg))

/-- For every X-stream syllable that moves no queue entry (scalar, compare, twin, branch, loop, vector except VSEND, and matrix forms except
the format words): if it issues, every register, flag, predicate, queue, bank, slot, legend, scratchpad byte and special register of its
core keeps, only operations are added in flight, every other core keeps, every byte of memory reads as before, and nothing else of the
device changes. (R36, R37, R136, R142). -/
def Obligations.XStreamFrame : Prop :=
  ∀ (i : Instr) (s t : State), onlyFlies i = true → s.ctx.who = .x → s.ctx.out = .running → exec i s = .next t → t.ctx.out = .running →
    (∃ os, t.me = { s.me with ops := s.me.ops ++ os }) ∧ (∀ c, c ≠ s.ctx.core → t.core c = s.core c) ∧ sameMemory s t ∧
    { t with cores := s.cores, ctx := s.ctx } = s

/-- For every pop, push, format-word and interpolation syllable that issues: registers, predicates, rows, banks, slots, legends, scratchpad
bytes and special registers of its core keep, every other core keeps, and every byte of memory reads as before. (R138, R139, R141, R203). -/
def Obligations.QueueMovesFrame : Prop :=
  ∀ (i : Instr) (s t : State), movesQueues i = true → s.ctx.who = .x → s.ctx.out = .running → exec i s = .next t → t.ctx.out = .running →
    (∃ os q f k e n, t.me = { s.me with ops := s.me.ops ++ os, q := q, freed7 := f, seen := n, tk := k, e := { s.me.e with ipfEnd := e } }) ∧
    (∀ c, c ≠ s.ctx.core → t.core c = s.core c) ∧ sameMemory s t ∧ { t with cores := s.cores, ctx := s.ctx } = s

/-- With a true guard PBR and PBRX write their target to the b register; BR, CALL and RET with a target in text of the stream leave the
redirection for the bundle's end: BR and CALL to b[bd], RET to the link of the frame on the X-stream, where CALL needs the window to fit
(R151) with nothing to spill and RET nothing to fill, and to b7 on the other streams. (R164, R165, R166, R167, R151). -/
def Obligations.BranchesAndCalls : Prop :=
  (∀ (g : BitVec 4) (bd : BitVec 3) (off : BitVec 32) (s : State), s.guardB g = true →
    exec (.pbr g bd off) s = .next (s.putB bd (s.ctx.pc + (off.signExtend 64 <<< 3)))) ∧
  (∀ (g : BitVec 4) (bd : BitVec 3) (rs : BitVec 5) (s : State), s.guardB g = true → s.regsOk [rs] = .ok →
    exec (.pbrx g bd rs) s = .next (s.putB bd (s.reg rs))) ∧
  (∀ (g : BitVec 4) (bd : BitVec 3) (s : State), s.guardB g = true → s.branchOk (sget {} bd.toNat s.ctrl.b).val = true →
    exec (.br g bd) s = .next (s.leave (.goto (sget {} bd.toNat s.ctrl.b).val (some (sget {} bd.toNat s.ctrl.b))))) ∧
  (∀ (g : BitVec 4) (bd fr : BitVec 3) (s : State), s.guardB g = true → s.branchOk (sget {} bd.toNat s.ctrl.b).val = true →
    (s.ctx.who = .x → s.me.x.base + 16 + 4 * fr.toNat ≤ 6656 ∧ s.me.x.base + 16 + 4 * fr.toNat ≤ s.me.x.low + 256) →
    exec (.call g bd fr) s = .next (s.leave (.call (sget {} bd.toNat s.ctrl.b).val (sget {} bd.toNat s.ctrl.b) (4 * fr.toNat)))) ∧
  (∀ (g : BitVec 4) (s : State), s.guardB g = true → s.ctx.who = .x → s.me.x.base ≠ 0 → s.me.x.low ≤ s.me.x.base - 16 →
    s.branchOk (linkAddr (sget 0#64 s.me.x.base s.me.x.links)) = true →
    exec (.ret g) s = .next (s.leave (.ret (linkAddr (sget 0#64 s.me.x.base s.me.x.links))))) ∧
  (∀ (g : BitVec 4) (s : State), s.guardB g = true → s.ctx.who ≠ .x → s.branchOk (sget ({} : BReg) 7 s.ctrl.b).val = true →
    exec (.ret g) s = .next (s.leave (.ret (sget ({} : BReg) 7 s.ctrl.b).val)))

/-- On the X-stream, CALL whose frame would end above 6,656 raises 0x03 and RET at B = 0 raises 0x04, each where its target is good; BR with
a target outside the stream's text raises 0x05; CALL that would hold more than 256 positions waits for exactly the lines that must be
spilled. (R149, R151, R153, R167). -/
def Obligations.WindowFaultsAndMoves : Prop :=
  (∀ (g : BitVec 4) (bd fr : BitVec 3) (s : State), s.guardB g = true → s.ctx.who = .x → 6656 < s.me.x.base + 16 + 4 * fr.toNat →
    s.branchOk (sget {} bd.toNat s.ctrl.b).val = true → exec (.call g bd fr) s = .next (s.raise { cause := 0x03 })) ∧
  (∀ (g : BitVec 4) (s : State), s.guardB g = true → s.ctx.who = .x → s.me.x.base = 0 →
    s.branchOk (linkAddr (sget 0#64 0 s.me.x.links)) = true → exec (.ret g) s = .next (s.raise { cause := 0x04 })) ∧
  (∀ (g : BitVec 4) (bd : BitVec 3) (s : State), s.guardB g = true → s.branchOk (sget {} bd.toNat s.ctrl.b).val = false →
    exec (.br g bd) s = .next (s.raise { cause := 0x05 })) ∧
  (∀ (g : BitVec 4) (bd fr : BitVec 3) (s : State), s.guardB g = true → s.ctx.who = .x → s.me.x.base + 16 + 4 * fr.toNat ≤ 6656 →
    s.branchOk (sget {} bd.toNat s.ctrl.b).val = true → s.me.x.low + 256 < s.me.x.base + 16 + 4 * fr.toNat →
    exec (.call g bd fr) s = .next (s.needWindow ((s.me.x.base + 16 + 4 * fr.toNat - s.me.x.low - 256 + 7) / 8) false))

/-- For any window, frame and return address, the frame that CALL pushes carries the return address and the caller's frame size in its link,
starts 16 positions up, and the RET that pops it restores base and frame; every position below both extents and every link of another frame
reads as before. (R149, R151, R152, R165). -/
def Obligations.CallThenReturnRestoresWindow : Prop :=
  ∀ (x : XStream) (f n m : Nat) (past : Word), x.frame < 256 → past.toNat < 2 ^ 56 →
    let y := x.pushFrame f (past ||| BitVec.ofNat 64 (x.frame * 2 ^ 56)) n
    let z := y.popFrame m
    y.base = x.base + 16 ∧ y.frame = f ∧ linkAddr (sget 0#64 y.base y.links) = past ∧ z.base = x.base ∧ z.frame = x.frame ∧
    (∀ p, p < x.base + x.frame → p < x.base + 16 + f → sget 0#64 p z.win = sget 0#64 p x.win) ∧
    (∀ b, b ≠ x.base + 16 → sget 0#64 b z.links = sget 0#64 b x.links)

/-- With a true guard, a body that is not empty, and no active rotating level below lv, the loop syllables leave the start of level lv for
the bundle's end: end address 8·dist past the syllable, lc n (n + s − 1 for the rotating forms, whose register form needs that sum below
2^32), rotation set up unless the trip is 0. At the bundle's end the levels from lv up fall away; with n above 0 the level becomes the
innermost, its body starts past the bundle, and a rotating one has its first kernel iteration begin; with n = 0 the stream goes on as from a
bundle that ends at the end address. That lc is written in flight on the X-stream and with the level's start elsewhere is log entry 36, the
model's reading. (R168, R169, R171, R172, R174). -/
def Obligations.LoopsStart : Prop :=
  (∀ (k : Ctrl) (lv n : Nat) (past stop : Word) (rot : Option Rot) (x : Bool), n ≠ 0 →
    let r := k.finish (.loop lv n stop rot) past x
    r.1.pc = past ∧ r.1.loops = { lv := lv, start := past, stop := stop } :: (k.loops.filter fun l => decide (l.lv < lv)) ∧
    r.1.rot = rot.getD (k.deactivate lv).rot ∧ r.2.1 = [] ∧ r.2.2 = rot.isSome ∧ (x = true → r.1.lc = k.lc) ∧
    (x = false → sget 0#64 lv r.1.lc = BitVec.ofNat 64 n)) ∧
  (∀ (k : Ctrl) (lv : Nat) (past stop : Word) (rot : Option Rot) (x : Bool),
    let r := k.finish (.loop lv 0 stop rot) past x
    let e := ({ k.deactivate lv with lc := if x then k.lc else sset 0#64 lv 0#64 k.lc } : Ctrl).finish .none stop x
    r.1 = e.1 ∧ r.2.1 = { lv := lv, start := past, stop := stop } :: e.2.1 ∧ r.2.2 = e.2.2) ∧
  (∀ (g : BitVec 4) (lv : BitVec 3) (stop : BitVec 17) (trip : BitVec 24) (s : State), s.guardB g = true →
    s.loopChk lv (s.ctx.pc + BitVec.ofNat 64 (8 * stop.toNat)) = .ok →
    exec (.loop g lv stop trip) s = .next (s.startLoop lv (s.ctx.pc + BitVec.ofNat 64 (8 * stop.toNat)) trip.toNat none)) ∧
  (∀ (g : BitVec 4) (lv : BitVec 3) (stop : BitVec 17) (rs : BitVec 5) (s : State), s.guardB g = true → s.regsOk [rs] = .ok →
    s.loopChk lv (s.ctx.pc + BitVec.ofNat 64 (8 * stop.toNat)) = .ok →
    exec (.loopx g lv stop rs) s = .next (s.startLoop lv (s.ctx.pc + BitVec.ofNat 64 (8 * stop.toNat)) (s.reg rs).toNat none)) ∧
  (∀ (g : BitVec 4) (lv : BitVec 3) (stop : BitVec 12) (stg : BitVec 3) (vb : BitVec 10) (sm : BitVec 6) (trip : BitVec 10) (s : State),
    s.guardB g = true → s.rotLegal vb sm = true → s.loopChk lv (s.ctx.pc + BitVec.ofNat 64 (8 * stop.toNat)) = .ok → trip ≠ 0#10 →
    exec (.loopR g lv stop stg vb sm trip) s = .next (s.startLoop lv (s.ctx.pc + BitVec.ofNat 64 (8 * stop.toNat)) (trip.toNat + stg.toNat - 1)
      (some { on := true, lv := lv.toNat, i := 0, rho := 0, vb := vb.toNat, sm := sm.toNat, stages := stg.toNat, trip := trip.toNat }))) ∧
  (∀ (g : BitVec 4) (lv : BitVec 3) (stop : BitVec 12) (stg : BitVec 3) (vb : BitVec 10) (sm : BitVec 6) (s : State),
    s.guardB g = true → s.rotLegal vb sm = true → s.loopChk lv (s.ctx.pc + BitVec.ofNat 64 (8 * stop.toNat)) = .ok →
    exec (.loopR g lv stop stg vb sm 0#10) s = .next (s.startLoop lv (s.ctx.pc + BitVec.ofNat 64 (8 * stop.toNat)) 0 none)) ∧
  (∀ (g : BitVec 4) (lv : BitVec 3) (stop : BitVec 12) (stg : BitVec 3) (vb : BitVec 10) (sm : BitVec 6) (rs : BitVec 5) (s : State),
    s.guardB g = true → s.rotLegal vb sm = true → s.regsOk [rs] = .ok → s.loopChk lv (s.ctx.pc + BitVec.ofNat 64 (8 * stop.toNat)) = .ok →
    s.reg rs = 0#64 → exec (.loopxR g lv stop stg vb sm rs) s = .next (s.startLoop lv (s.ctx.pc + BitVec.ofNat 64 (8 * stop.toNat)) 0 none)) ∧
  (∀ (g : BitVec 4) (lv : BitVec 3) (stop : BitVec 12) (stg : BitVec 3) (vb : BitVec 10) (sm : BitVec 6) (rs : BitVec 5) (s : State),
    s.guardB g = true → s.rotLegal vb sm = true → s.regsOk [rs] = .ok → s.loopChk lv (s.ctx.pc + BitVec.ofNat 64 (8 * stop.toNat)) = .ok →
    (s.reg rs).toNat + stg.toNat - 1 < 2 ^ 32 → s.reg rs ≠ 0#64 →
    exec (.loopxR g lv stop stg vb sm rs) s = .next (s.startLoop lv (s.ctx.pc + BitVec.ofNat 64 (8 * stop.toNat)) ((s.reg rs).toNat + stg.toNat - 1)
      (some { on := true, lv := lv.toNat, i := 0, rho := 0, vb := vb.toNat, sm := sm.toNat, stages := stg.toNat, trip := (s.reg rs).toNat })))

/-- When a bundle ends at the end address of the innermost level and nothing redirects issue, lc of that level is decremented; while it
stays non-zero issue goes on at the level's start with the same levels; when it reaches 0 the level is deactivated, rotation is switched off
if it rotated that level or one within it, and the check goes on with the next level out: an enclosing level with the same end address is
decremented in its turn and may take its back edge; one with another end address, or none, lets the stream fall through to the address past
the bundle; a bundle that ends elsewhere just falls through. This is the same on every stream, and after a WAIT or a CONTOUR as after any
other bundle. A back edge of the rotating level counts its iteration, takes rho one row back modulo the section's length and marks a new
kernel iteration; at the issue tick of its first bundle the stage predicates p6 up are set, j all ones exactly when 0 <= i - j < n. (R168,
R169, R172). -/
def Obligations.LoopBodyEnds : Prop :=
  (∀ (k : Ctrl) (l : Level) (rest : List Level) (past : Word) (x : Bool), k.loops = l :: rest → l.stop = past → sget 0#64 l.lv k.lc ≠ 1#64 →
    (k.rot.on = true → k.rot.lv = l.lv → (k.finish .none past x).1.rot = { k.rot with i := k.rot.i + 1, rho := (k.rot.rho + k.rot.sm) % (k.rot.sm + 1) } ∧
      (k.finish .none past x).2.2 = true) ∧
    ((k.rot.on = false ∨ k.rot.lv ≠ l.lv) → (k.finish .none past x).1.rot = k.rot ∧ (k.finish .none past x).2.2 = false)) ∧
  (∀ (c : Core) (j : Nat), c.x.rotPend = true → c.x.next ≤ c.tick → j < c.x.k.rot.stages →
    c.stagePreds.pred (6 + j) = (if j ≤ c.x.k.rot.i ∧ c.x.k.rot.i - j < c.x.k.rot.trip then BitVec.allOnes 64 else 0#64)) ∧
  (∀ (c : Core) (j : Nat), j < 6 ∨ 6 + c.x.k.rot.stages ≤ j → c.stagePreds.pred j = c.pred j) ∧
  (∀ (c : Core), c.x.rotPend = false ∨ c.tick < c.x.next → c.stagePreds = c) ∧
  (∀ (k : Ctrl) (n : Nat) (past : Word) (x : Bool), k.finish (.wait n) past x = k.finish .none past x ∧ k.finish (.contour n) past x = k.finish .none past x) ∧
  (∀ (k : Ctrl) (l : Level) (rest : List Level) (past : Word) (x : Bool), k.loops = l :: rest → l.stop = past → sget 0#64 l.lv k.lc ≠ 1#64 →
    (k.finish .none past x).1.pc = l.start ∧ (k.finish .none past x).1.loops = k.loops ∧
    sget 0#64 l.lv (k.finish .none past x).1.lc = sget 0#64 l.lv k.lc - 1#64 ∧ (k.finish .none past x).2.1 = []) ∧
  (∀ (k : Ctrl) (l m : Level) (rest : List Level) (past : Word) (x : Bool), k.loops = l :: m :: rest → l.stop = past → m.stop ≠ past →
    sget 0#64 l.lv k.lc = 1#64 → (∀ j ∈ m :: rest, j.lv < l.lv) →
    (k.finish .none past x).1.pc = past ∧ (k.finish .none past x).1.loops = m :: rest ∧
    sget 0#64 l.lv (k.finish .none past x).1.lc = 0#64 ∧ (k.finish .none past x).2.1 = [l]) ∧
  (∀ (k : Ctrl) (l : Level) (past : Word) (x : Bool), k.loops = [l] → l.stop = past → sget 0#64 l.lv k.lc = 1#64 →
    (k.finish .none past x).1.pc = past ∧ (k.finish .none past x).1.loops = [] ∧ sget 0#64 l.lv (k.finish .none past x).1.lc = 0#64 ∧
    (k.finish .none past x).2.1 = [l] ∧ (k.finish .none past x).2.2 = false) ∧
  (∀ (k : Ctrl) (l m : Level) (rest : List Level) (past : Word) (x : Bool), k.loops = l :: m :: rest → l.stop = past → m.stop = past →
    sget 0#64 l.lv k.lc = 1#64 → sget 0#64 m.lv k.lc ≠ 1#64 → (∀ j ∈ m :: rest, j.lv < l.lv) →
    (k.finish .none past x).1.pc = m.start ∧ (k.finish .none past x).1.loops = m :: rest ∧ (k.finish .none past x).2.1 = [l] ∧
    sget 0#64 l.lv (k.finish .none past x).1.lc = 0#64 ∧ sget 0#64 m.lv (k.finish .none past x).1.lc = sget 0#64 m.lv k.lc - 1#64) ∧
  (∀ (k : Ctrl) (l : Level) (rest : List Level) (past : Word) (x : Bool), k.loops = l :: rest → l.stop = past → sget 0#64 l.lv k.lc = 1#64 →
    (∀ j ∈ rest, j.lv < l.lv) →
    let e := ({ k with loops := rest, lc := sset 0#64 l.lv 0#64 k.lc, rot := { k.rot with on := k.rot.on && decide (k.rot.lv < l.lv) } } : Ctrl).finish .none past x
    k.finish .none past x = (e.1, l :: e.2.1, e.2.2)) ∧
  (∀ (k : Ctrl) (l : Level) (rest : List Level) (past : Word) (x : Bool), k.loops = l :: rest → l.stop = past → sget 0#64 l.lv k.lc = 1#64 →
    l.lv ≤ k.rot.lv → (k.finish .none past x).1.rot.on = false ∧ (k.finish .none past x).2.2 = false) ∧
  (∀ (k : Ctrl) (past : Word) (x : Bool), (∀ l ∈ k.loops, l.stop ≠ past) → (k.finish .none past x).1 = { k with pc := past })

/-- With a true guard LEXIT of an inactive level leaves the state as it is. Of an active one it completes; after its bundle no level at or
above lv is active, issue goes on at the level's end address, lc[lv] is written 0, and the operations already in flight stay. That this
write is in flight on the X-stream and at once on the others is log entry 36, the model's reading of R47 and R142. (R47, R142, R170). -/
def Obligations.LoopExitSyllable : Prop :=
  (∀ (g : BitVec 4) (lv : BitVec 3) (s : State), s.guardB g = true → (∀ l ∈ s.ctrl.loops, l.lv ≠ lv.toNat) → exec (.lexit g lv) s = .next s) ∧
  (∀ (g : BitVec 4) (lv : BitVec 3) (s : State), s.guardB g = true → (∃ l ∈ s.ctrl.loops, l.lv = lv.toNat) →
    (s.ctx.who = .x → exec (.lexit g lv) s = .next ((s.fly (s.op 0 1 (s.me.divisor 0) [.lcnt lv.toNat 0#64])).leave (.lexit lv.toNat))) ∧
    (s.ctx.who ≠ .x → exec (.lexit g lv) s = .next (s.leave (.lexit lv.toNat)))) ∧
  (∀ (k : Ctrl) (lv : Nat) (l : Level) (past : Word) (x : Bool), k.loops.find? (fun l => l.lv == lv) = some l →
    (k.finish (.lexit lv) past x).1.pc = l.stop ∧ (∀ m ∈ (k.finish (.lexit lv) past x).1.loops, m.lv < lv) ∧
    (x = false → sget 0#64 lv (k.finish (.lexit lv) past x).1.lc = 0#64)) ∧
  (∀ (s : State) (o : Op), (s.fly o).me.ops = s.me.ops ++ [o])

/-- With a true guard and legal on their stream: NOP does nothing; TRMARK adds its trace record, with the issue tick on the X-stream, with
the core's tick and the access stream's source number on the access stream, and adds none on a management core, which has no trace source;
FIX raises a fix of the partition, on a management core one of the package (that the FIX syllable of a management core has that scope is log
entry 23); ALIGN of a started clock ends its wait; CONTOUR, WAIT, EXIT, TRAP and BKPT leave their effect for the bundle's end (with the
address of the syllable as detail address: log entry 32, the model's reading); CLKDIV has DIVP in flight; MFS reads a system register into
rd (popping aq0 or aq1 by their pop numbers) and MTS writes one; EXIT on an access stream waits while an access or command of an earlier
bundle is unretired; SVCHK gives the survey check's code and position, over records that cannot be read a free value in those two fields
(log entry 41, the model's choice); RESUME waits for what earlier bundles of the handler have left unperformed, then over a valid survey
leaves the resume and over another raises SURVEY-INVALID. (R110, R176, R177, R179, R180, R182, R183, R184, R185, R353, R328, R329). -/
def Obligations.ControlSyllablesComplete : Prop :=
  (∀ (g : BitVec 4) (s : State), exec (.nop g) s = .next s) ∧
  (∀ (g : BitVec 4) (tag : BitVec 32) (p : Nat) (s : State), s.guardB g = true → s.me.part = some p → s.ctx.who = .x →
    exec (.trmark g tag) s = .next (s.trace p (2 * s.ctx.core) 1 tag.toNat (BitVec.ofNat 64 s.ctx.tick))) ∧
  (∀ (g : BitVec 4) (tag : BitVec 32) (p : Nat) (s : State), s.guardB g = true → s.me.part = some p → s.ctx.who = .a →
    exec (.trmark g tag) s = .next (s.trace p (2 * s.ctx.core + 1) 1 tag.toNat (BitVec.ofNat 64 s.me.tick))) ∧
  (∀ (g : BitVec 4) (tag : BitVec 32) (s : State), s.ctx.who = .mgmt → exec (.trmark g tag) s = .next s) ∧
  (∀ (g : BitVec 4) (p : Nat) (s : State), s.guardB g = true → s.me.part = some p → s.ctx.who ≠ .mgmt → exec (.fix g) s = .next (s.raiseFix (some p))) ∧
  (∀ (g : BitVec 4) (s : State), s.guardB g = true → s.ctx.who = .mgmt → exec (.fix g) s = .next (s.raiseFix none)) ∧
  (∀ (g : BitVec 4) (s : State), s.me.x.aligned = true → exec (.align g) s = .next (s.leave .align)) ∧
  (∀ (g : BitVec 4) (id : BitVec 16) (s : State), s.guardB g = true → exec (.contour g id) s = .next (s.leave (.contour id.toNat))) ∧
  (∀ (g : BitVec 4) (n : BitVec 24) (s : State), s.guardB g = true → exec (.wait g n) s = .next (s.leave (.wait n.toNat))) ∧
  (∀ (g : BitVec 4) (rs : BitVec 5) (s : State), s.guardB g = true → s.regsOk [rs] = .ok →
    exec (.clkdiv g rs) s = .next (s.fly (s.op 0 1 (s.me.divisor 0) [.sys 0x1050 (s.reg rs)]))) ∧
  (∀ (g : BitVec 4) (rd : BitVec 5) (n : BitVec 12) (s : State), s.guardB g = true → s.sysLegal false n.toNat = true → s.regsOk [rd] = .ok →
    ¬(0x030 ≤ n.toNat ∧ n.toNat ≤ 0x033) → exec (.mfs g rd n) s = .next (s.putReg 1 rd (s.sysRead n.toNat))) ∧
  (∀ (g : BitVec 4) (rd : BitVec 5) (n : BitVec 12) (s : State), s.guardB g = true → s.sysLegal false n.toNat = true → s.regsOk [rd] = .ok →
    0x030 ≤ n.toNat ∧ n.toNat ≤ 0x033 → (s.me.head (16 + (n.toNat - 0x030) / 2) s.me.tick).isSome = true →
    exec (.mfs g rd n) s = .next ((s.modMe fun c => c.pop (16 + (n.toNat - 0x030) / 2)).putReg 1 rd (s.sysRead n.toNat))) ∧
  (∀ (g : BitVec 4) (rs : BitVec 5) (n : BitVec 12) (s : State), s.guardB g = true → s.sysLegal true n.toNat = true → s.regsOk [rs] = .ok →
    exec (.mts g rs n) s = .next (if s.ctx.who = .x then s.fly (s.op 0 1 (s.me.divisor 0) [.sys n.toNat (s.reg rs)]) else s.defer (.sys n.toNat (s.reg rs)))) ∧
  (∀ (g : BitVec 4) (s : State), s.guardB g = true → s.inHandler = false → (s.ctx.who = .a → s.unretired = false) → exec (.exit g) s = .next (s.leave .exit)) ∧
  (∀ (g : BitVec 4) (s : State), s.guardB g = true → s.inHandler = false → s.ctx.who = .a →
    ((∃ o ∈ s.me.aops, seqBefore o.iseq s.ctx.first = true) ∨ (∃ m ∈ s.me.cmds, seqBefore m.iseq s.ctx.first = true)) → exec (.exit g) s = .next (s.waiting .ops)) ∧
  (∀ (g : BitVec 4) (code : BitVec 16) (s : State), s.guardB g = true →
    exec (.trap g code) s = .next (s.leave (.stop 0x40 code.toNat s.ctx.pc)) ∧ exec (.bkpt g code) s = .next (s.leave (.stop 0x41 code.toNat s.ctx.pc))) ∧
  (∀ (g : BitVec 4) (rd rs1 : BitVec 5) (s : State), s.inHandler = true → s.guardB g = true → s.regsOk [rd, rs1] = .ok →
    ((s.surveyBad s.ctx.core (s.reg rs1).toNat).isSome = true →
      exec (.svchk g rd rs1) s = .next (({ s with free := s.free + 1 } : State).putReg 1 rd (Config.freeWord s.free &&& 0x7FFF#64))) ∧
    (s.surveyBad s.ctx.core (s.reg rs1).toNat = none → exec (.svchk g rd rs1) s = .next (s.putReg 1 rd (BitVec.ofNat 64 ((s.me.surveyCheck (s.reg rs1).toNat).1 + 256 * (s.me.surveyCheck (s.reg rs1).toNat).2))))) ∧
  (∀ (g : BitVec 4) (rs1 : BitVec 5) (s : State), s.inHandler = true → s.guardB g = true → s.regsOk [rs1] = .ok →
    ((∃ o ∈ s.me.aops, seqBefore o.iseq s.ctx.first = true ∧ o.phase ≠ .done) ∨ (∃ m ∈ s.me.cmds, seqBefore m.iseq s.ctx.first = true) →
      exec (.resume g rs1) s = .next (s.waiting .ops)) ∧
    ((∀ o ∈ s.me.aops, seqBefore o.iseq s.ctx.first = true → o.phase = .done) → (∀ m ∈ s.me.cmds, seqBefore m.iseq s.ctx.first = false) →
      s.surveyBad s.ctx.core (s.reg rs1).toNat = none →
      exec (.resume g rs1) s = .next (if (s.me.surveyCheck (s.reg rs1).toNat).1 = 0 then s.leave (.resume (s.reg rs1).toNat) else s.raise { cause := 0x21 })))

/-- RESUME and SVCHK raise ILLEGAL-ENCODING outside handler mode whatever their guard, EXIT raises it in handler mode, and so do MFS and MTS
of a number that the stream may not name; the handler's system registers HSURV, HCAUSE, HX, HC and HB are legal in handler mode only. (R51,
R181, R323, R324, R328). -/
def Obligations.HandlerOnlySyllables : Prop :=
  (∀ (g : BitVec 4) (rs1 : BitVec 5) (s : State), s.inHandler = false → exec (.resume g rs1) s = .next (s.raise { cause := 0x01 })) ∧
  (∀ (g : BitVec 4) (rd rs1 : BitVec 5) (s : State), s.inHandler = false → exec (.svchk g rd rs1) s = .next (s.raise { cause := 0x01 })) ∧
  (∀ (g : BitVec 4) (s : State), s.inHandler = true → exec (.exit g) s = .next (s.raise { cause := 0x01 })) ∧
  (∀ (g : BitVec 4) (r : BitVec 5) (n : BitVec 12) (s : State), s.sysLegal false n.toNat = false → exec (.mfs g r n) s = .next (s.raise { cause := 0x01 })) ∧
  (∀ (g : BitVec 4) (r : BitVec 5) (n : BitVec 12) (s : State), s.sysLegal true n.toNat = false → exec (.mts g r n) s = .next (s.raise { cause := 0x01 })) ∧
  (∀ (s : State) (w : Bool) (n : Nat), s.inHandler = false → 0x100 ≤ n → s.sysLegal w n = false)

/-- What the end of a bundle makes of the X-stream: the next issue tick given to it is kept, a WAIT of n adds exactly n cycles, so that it
lies (1 + Idle + n) control cycles after the bundle's own; after EXIT the stream is exiting, and a core whose X-stream is exiting issues no
bundle at any later tick; a taken BR or CALL makes the next bundle wait for its target's fetch, RET and CALL move the window, and the pc is
the target of a redirection or the address past the bundle. (R35, R142, R165, R179, R182). -/
def Obligations.BundleEndOnX : Prop :=
  (∀ (x : XStream) (ctl : Ctl) (past : Word) (next : Nat) (r : Bool) (free : Nat), (x.finish ctl past next r free).next = next) ∧
  (∀ n : Nat, Ctl.extra (.wait n) = n) ∧ Ctl.extra .none = 0 ∧
  (∀ (s : State) (past : Word) (idle last : Nat), s.ctx.who = .x →
    ((s.endBundle past idle last).core s.ctx.core).x.next = s.ctx.tick + (1 + idle + s.ctx.ctl.extra) * s.me.divisor 0 ∧
    (s.ctx.ctl = .exit → ((s.endBundle past idle last).core s.ctx.core).x.k.exiting = true)) ∧
  (∀ (look : Nat → Bool) (g : Grp) (n : Nat) (t : Tick), (t.s.core n).x.k.exiting = true → Tick.issue exec look g n t = t) ∧
  (∀ (k : Ctrl) (t past : Word) (b : Option BReg) (x : Bool), (k.finish (.goto t b) past x).1 = { k with pc := t }) ∧
  (∀ (k : Ctrl) (t past : Word) (x : Bool), (k.finish (.ret t) past x).1 = { k with pc := t }) ∧
  (∀ (k : Ctrl) (t past : Word) (b : BReg) (f : Nat) (x : Bool), (k.finish (.call t b f) past x).1.pc = t ∧
    (sget {} 7 (k.finish (.call t b f) past x).1.b).val = past) ∧
  (∀ (x : XStream) (t past : Word) (b : BReg) (f next : Nat) (r : Bool) (free : Nat),
    (x.finish (.call t b f) past next r free).base = x.base + 16 ∧ (x.finish (.call t b f) past next r free).frame = f ∧
    (x.finish (.call t b f) past next r free).await = some b)

/-- When BWPH and DIVP hold pending values that did not land at the contour's own tick, the contour makes them BWPA and DIVA, the divisors
raised to the floor, clears the pending bits and records its id; with nothing pending it keeps BWPA and DIVA; it changes no register, row,
queue or operation. (R124, R176, R177, R375). -/
def Obligations.ContourAppliesPending : Prop :=
  (∀ (c : Core) (t id : Nat) (floor : Word), c.sys.bwphLate = none → c.sys.divpLate = none → c.sys.bwph.getLsbD 63 = true → c.sys.divp.getLsbD 63 = true →
    (c.contour t id floor).sys.bwpa = c.sys.bwph &&& 0x7FFFFFFFFFFFFFFF#64 ∧ (c.contour t id floor).sys.bwph = c.sys.bwph &&& 0x7FFFFFFFFFFFFFFF#64 ∧
    (c.contour t id floor).sys.diva = raiseDiv (c.sys.divp &&& 0x7FFFFFFFFFFFFFFF#64) floor ∧
    (c.contour t id floor).sys.divp = c.sys.divp &&& 0x7FFFFFFFFFFFFFFF#64 ∧ (c.contour t id floor).sys.contid = BitVec.ofNat 64 id) ∧
  (∀ (c : Core) (t id : Nat) (floor : Word), c.sys.bwphLate = none → c.sys.divpLate = none → c.sys.bwph.getLsbD 63 = false → c.sys.divp.getLsbD 63 = false →
    (c.contour t id floor).sys.bwpa = c.sys.bwpa ∧ (c.contour t id floor).sys.diva = c.sys.diva ∧ (c.contour t id floor).banks = c.banks) ∧
  (∀ (c : Core) (t id : Nat) (floor : Word), ∃ y b, c.contour t id floor = { c with sys := y, banks := b })

/-- A V-class syllable of R187 to R192 whose guard selects a lane, whose rows stand in held banks and whose other conditions hold completes
with one wide operation in flight, due its latency in vector cycles after issue, that writes the selected lanes of its destination with the
value its rule gives from the rows read at issue; with no lane selected and the same conditions it does nothing. (R36, R132, R142, R186,
R187, R188, R189, R190, R191, R192). -/
def Obligations.VectorResults : Prop :=
  (∀ (i : Instr) (row : VectorRow) (s : State), vectorRow i = some row → s.vectorReady row → exec i s = .next (s.vectorDone row)) ∧
  (∀ (i : Instr) (row : VectorRow) (s : State), vectorRow i = some row → s.vectorMay row →
    s.lanesOn row.guard (s.me.rowType (s.vrow row.vd)) = 0#64 → exec i s = .next s)

/-- A conversion or reduction whose guard selects a lane, whose rows are held and whose bank types its rule allows completes with its result
row in flight after its latency; with no lane selected and the same conditions it does nothing. (R72, R81, R186, R193, R194, R195, R196). -/
def Obligations.VectorConversions : Prop :=
  (∀ (i : Instr) (s : State) (row : VectorRow), convertRow s i = some row → s.vectorReady row → exec i s = .next (s.vectorDone row)) ∧
  (∀ (i : Instr) (s : State) (row : VectorRow), convertRow s i = some row → s.vectorMay row →
    s.lanesOn row.guard (s.me.rowType (s.vrow row.vd)) = 0#64 → exec i s = .next s)

/-- The row that VADD, VSUB, VMULLO, VAND, VOR, VXOR, VNOT, VSHL, VSHR, VSAR and VRSHR give for I32 rows has in each of its 32 lanes the
sum, difference, low product, and, or, exclusive or, complement of the source lanes modulo 2^32, and the lane shifted left, right, right
with its sign, and right with its sign after half a unit is added; VROTL gives lane k the source lane (k + n) mod 32, and VMOV the source
row. A landing of selected lanes replaces exactly the bits of its mask. (R72, R186, R188, R189, R192). -/
def Obligations.IntegerLanesAreModular : Prop :=
  (∀ (g r : BitVec 4) (vd a b : BitVec 10) (x y : Row) (s : State) (k : Nat), k < 32 →
    (∀ row, vectorRow (.vadd g vd a b r) = some row → lane 32 k (row.value 1 [x, y] s) = lane 32 k x + lane 32 k y) ∧
    (∀ row, vectorRow (.vsub g vd a b r) = some row → lane 32 k (row.value 1 [x, y] s) = lane 32 k x - lane 32 k y) ∧
    (∀ row, vectorRow (.vmullo g vd a b) = some row → lane 32 k (row.value 1 [x, y] s) = lane 32 k x * lane 32 k y) ∧
    (∀ row, vectorRow (.vand g vd a b) = some row → lane 32 k (row.value 1 [x, y] s) = lane 32 k x &&& lane 32 k y) ∧
    (∀ row, vectorRow (.vor g vd a b) = some row → lane 32 k (row.value 1 [x, y] s) = lane 32 k x ||| lane 32 k y) ∧
    (∀ row, vectorRow (.vxor g vd a b) = some row → lane 32 k (row.value 1 [x, y] s) = lane 32 k x ^^^ lane 32 k y) ∧
    (∀ row, vectorRow (.vnot g vd a) = some row → lane 32 k (row.value 1 [x] s) = ~~~(lane 32 k x)) ∧
    (∀ row, vectorRow (.vmov g vd a) = some row → row.value 1 [x] s = x)) ∧
  (∀ (g : BitVec 4) (vd a : BitVec 10) (n : BitVec 6) (x : Row) (s : State) (k : Nat), k < 32 →
    (∀ row, vectorRow (.vshl g vd a n) = some row → lane 32 k (row.value 1 [x] s) = lane 32 k x <<< n.toNat) ∧
    (∀ row, vectorRow (.vshr g vd a n) = some row → lane 32 k (row.value 1 [x] s) = lane 32 k x >>> n.toNat) ∧
    (∀ row, vectorRow (.vsar g vd a n) = some row → lane 32 k (row.value 1 [x] s) = (lane 32 k x).sshiftRight n.toNat) ∧
    (∀ row, vectorRow (.vrshr g vd a n) = some row → n ≠ 0#6 →
      (lane 32 k (row.value 1 [x] s)).toInt = ((lane 32 k x).toInt + 2 ^ (n.toNat - 1)) / 2 ^ n.toNat) ∧
    (∀ row, vectorRow (.vrshr g vd a 0#6) = some row → lane 32 k (row.value 1 [x] s) = lane 32 k x) ∧
    (∀ row, vectorRow (.vrotl g vd a n) = some row → lane 32 k (row.value 1 [x] s) = lane 32 ((k + n.toNat) % 32) x)) ∧
  (∀ (m old new : Row) (k : Nat), (blend m old new).getLsbD k = if m.getLsbD k then new.getLsbD k else old.getLsbD k)

/-- VCMP writes the compare and its complement to a predicate pair on the guarded lanes and clears bits L to 63; VFLAG writes a condition
pair or the population count over the 64 guarded bits; VSEND to a core of the group, with an entry of its q7 free, reserves the entry and
has the row in flight for three ticks. VSEND of no lane does nothing. A vector syllable that writes a row and names a row of a bank that is
not held raises BANK-UNHELD, whatever its guard (log entry 11, the model's reading of R132). (R191, R197, R199, R200, R132). -/
def Obligations.VectorFlagsAndSends : Prop :=
  (∀ (g pd : BitVec 4) (va vb : BitVec 10) (cond : BitVec 4) (s : State),
    s.heldOk [s.vrow va, s.vrow vb] = .ok → s.rowsGood [s.vrow va, s.vrow vb] = .ok →
    let ty := s.me.rowType (s.vrow va)
    let m := s.lanesOn g ty
    let t := bitsWhere (tyLanes ty) fun k => laneCmp cond.toNat ty ((codesOf ty (s.me.row (s.vrow va))).getD k 0) ((codesOf ty (s.me.row (s.vrow vb))).getD k 0)
    let high := ~~~ BitVec.ofNat 64 (2 ^ tyLanes ty - 1)
    exec (.vcmp g pd va vb cond) s = .next (s.fly (s.op 2 4 (s.me.divisor 1)
      [.preg pd.toNat (m ||| high) (t &&& m), .preg (pd.toNat + 1) (m ||| high) (~~~t &&& m)]))) ∧
  (∀ (g : BitVec 4) (dst : BitVec 5) (ps : BitVec 4) (kd : BitVec 2) (s : State), kd ≠ 3#2 →
    let v := s.me.pred ps.toNat &&& s.guardV g
    let f := if kd = 0#2 then v != 0#64 else if kd = 1#2 then v == s.guardV g else v == 0#64
    exec (.vflag g dst ps kd) s = .next (s.fly (s.op 2 5 (s.me.divisor 1) [.creg (dst.toNat % 8) f, .creg (dst.toNat % 8 + 1) (!f)]))) ∧
  (∀ (g : BitVec 4) (dst : BitVec 5) (ps : BitVec 4) (s : State), s.regsOk [dst] = .ok →
    exec (.vflag g dst ps 3#2) s = .next (s.fly (s.op 2 5 (s.me.divisor 1) [s.xLand dst (BitVec.ofNat 64 (popcount (s.me.pred ps.toNat &&& s.guardV g)))]))) ∧
  (∀ (g : BitVec 4) (va : BitVec 10) (dir : BitVec 3) (peer : Nat) (grp : Grp) (s : State), s.meshPeer dir.toNat = some peer →
    s.grpAt s.ctx.core = some grp → s.lanesOn g (s.me.rowType (s.vrow va)) ≠ 0#64 → s.heldOk [s.vrow va] = .ok → s.rowsGood [s.vrow va] = .ok →
    let present := s.ctx.tick + 3 + 3 * grp.hops s.ctx.core - 3 * grp.hops peer
    (s.core peer).sentHeld (grp.hops peer) present s.ctx.core (grp.hops s.ctx.core) s.ctx.tick < 16 →
    let ty := s.me.rowType (s.vrow va)
    exec (.vsend g va dir) s = .next ((s.modCore peer fun c => c.reserveSent s.ctx.core s.ctx.iseq present).fly
      { (s.modCore peer fun c => c.reserveSent s.ctx.core s.ctx.iseq present).op 2 3 1
          [.mesh peer (s.me.row (s.vrow va) &&& laneMask (tyWidth ty) (tyLanes ty) (s.lanesOn g ty))] with wide := true })) ∧
  (∀ (i : Instr) (row : VectorRow) (s : State), vectorRow i = some row → row.more s = .ok →
    s.rowsGood (row.srcs.map s.vrow) = .ok → (s.vrow row.vd :: row.srcs.map s.vrow).all (fun r => (s.me.bank (r / 16)).held) = false →
    exec i s = .next (s.raise { cause := 0x0E })) ∧
  (∀ (g : BitVec 4) (va : BitVec 10) (dir : BitVec 3) (peer : Nat) (grp : Grp) (s : State), s.meshPeer dir.toNat = some peer →
    s.grpAt s.ctx.core = some grp → s.lanesOn g (s.me.rowType (s.vrow va)) = 0#64 → exec (.vsend g va dir) s = .next s)

/-- With a true guard and the conditions of its rule, each of these syllables has its effect in flight, due 1, 2, 2·count + 2 or 6 matrix
cycles after issue: the bank or slot change, the row's bytes for the slot, the cleared descriptors, the legends' entries for the slot, the
legends of the slot's positions, or the row of row sums. (R131, R132, R224, R225, R226, R227, R219). -/
def Obligations.BanksAndSlotsIssue : Prop :=
  (∀ (g : BitVec 4) (n : BitVec 6) (ty : BitVec 2) (z : BitVec 1) (s : State), s.guardM g = true →
    exec (.acq g n ty z) s = .next (s.mat 1 false [.acq n.toNat ty.toNat (z == 1#1)]) ∧ exec (.arel g n) s = .next (s.mat 1 false [.arel n.toNat]) ∧
    exec (.oclaim g n) s = .next (s.mat 1 false [.oclaim n.toNat]) ∧ exec (.orel g n) s = .next (s.mat 1 false [.orel n.toNat])) ∧
  (∀ (g : BitVec 4) (o r : BitVec 6) (vs : BitVec 10) (s : State), s.guardM g = true → s.heldOk [s.vrow vs] = .ok → s.rowsGood [s.vrow vs] = .ok →
    exec (.owr g o r vs) s = .next (s.mat 2 true [.slot o.toNat (128 * r.toNat) (rowBytes (s.me.row (s.vrow vs)))])) ∧
  (∀ (g : BitVec 4) (l n : BitVec 8) (s : State), s.guardM g = true → exec (.lginv g l n) s = .next (s.mat 1 false [.lginv l.toNat (n.toNat + 1)])) ∧
  (∀ (g : BitVec 4) (l n : BitVec 8) (o : BitVec 6) (pos : BitVec 3) (s : State), s.guardM g = true → s.legendChk l.toNat (n.toNat + 1) = .ok →
    (s.me.slot o.toNat).claimed = true → exec (.lgsave g l n o pos) s = .next (s.mat (2 * (n.toNat + 1) + 2) true
      [.slot o.toNat (1024 * pos.toNat) ((List.range (n.toNat + 1)).flatMap fun i => (List.range 256).flatMap fun e => leBytes 4 (s.me.entry (l.toNat + i) e).toNat)])) ∧
  (∀ (g : BitVec 4) (l n : BitVec 8) (o : BitVec 6) (pos : BitVec 3) (s : State), s.guardM g = true → (s.me.slot o.toNat).claimed = true →
    (s.me.slot o.toNat).ready = true → s.bad.contains (2, s.ctx.core, o.toNat) = false →
    exec (.lgload g l n o pos) s = .next (s.fly { s.op 3 (2 * (n.toNat + 1) + 2) (s.me.divisor 2)
      [.legends (s.me.loadLegends s.ctx.word l.toNat (n.toNat + 1) o.toNat pos.toNat (s.me.slot o.toNat).gen)] with
        kind := .fill, wide := true, gens := BitVec.ofNat 64 ((s.me.slot o.toNat).gen * 2 ^ 32) })) ∧
  (∀ (g : BitVec 4) (l n : BitVec 8) (vd : BitVec 10) (s : State), s.guardM g = true → s.heldOk [s.vrow vd] = .ok → s.me.rowType (s.vrow vd) < 2 →
    s.legendChk l.toNat (n.toNat + 1) = .ok → ((List.range (n.toNat + 1)).all fun i => (s.me.desc (l.toNat + i)).kind != 2) = true →
    exec (.lgsum g l n vd) s = .next (s.mat 6 true [wholeRow (s.vrow vd) (ofLanes 32 ((List.range (n.toNat + 1)).map fun k =>
      BitVec.ofNat 32 (s.me.rowSum (s.me.rowType (s.vrow vd)) (l.toNat + k))))]))

/-- Landing, ACQ makes the bank held with its type and, with .z, its 16 rows zero, without .z every row is kept; AREL makes it unheld and
keeps its contents; OCLAIM makes an unclaimed slot claimed and not ready and leaves a claimed one; OREL makes a claimed slot unclaimed and
not ready with its generation counted and leaves an unclaimed one. A result for a bank that is not held is a fault with cause BANK-UNHELD.
(R132, R217). -/
def Obligations.BanksAndSlotsLand : Prop :=
  (∀ (c old : Core) (t wall a ty : Nat) (z : Bool), ((c.land old t wall (.acq a ty z)).bank a).held = true ∧
    ((c.land old t wall (.acq a ty z)).bank a).ty = ty ∧
    (z = true → ∀ k, k < 16 → (c.land old t wall (.acq a ty z)).row (16 * a + k) = 0#1024) ∧
    (z = false → ∀ r, (c.land old t wall (.acq a ty z)).row r = c.row r) ∧
    (∀ r, (r < 16 * a ∨ 16 * a + 16 ≤ r) → (c.land old t wall (.acq a ty z)).row r = c.row r)) ∧
  (∀ (c old : Core) (t wall a : Nat), ((c.land old t wall (.arel a)).bank a).held = false ∧ ∀ r, (c.land old t wall (.arel a)).row r = c.row r) ∧
  (∀ (c old : Core) (t wall o : Nat), ((c.slot o).claimed = false → ((c.land old t wall (.oclaim o)).slot o).claimed = true ∧
      ((c.land old t wall (.oclaim o)).slot o).ready = false) ∧ ((c.slot o).claimed = true → c.land old t wall (.oclaim o) = c)) ∧
  (∀ (c old : Core) (t wall o : Nat), ((c.slot o).claimed = true → (c.land old t wall (.orel o)).slot o =
      { claimed := false, ready := false, gen := ((c.slot o).gen + 1) % 2 ^ 32 }) ∧ ((c.slot o).claimed = false → c.land old t wall (.orel o) = c)) ∧
  (∀ (c : Core) (bad : List (Nat × Nat)) (r : Nat) (m v : Row), m ≠ 0#1024 → (c.bank (r / 16)).held = false → c.landFault bad (.rows [(r, m, v)]) = some 0x0E)

/-- With a true guard and an entry of FQ free, FMT and FMTI reserve it and have the word in flight for one matrix cycle; each MX syllable
completes its issue with a pending start δ ticks after issue that carries the syllable, its vector base renamed at issue and the matrix
divisor in force at issue. (R221, R232, R233, R234, R237, R241, R243, R244). -/
def Obligations.MatrixSyllablesIssue : Prop :=
  (∀ (g : BitVec 4) (rs : BitVec 5) (s : State), s.guardM g = true → s.regsOk [rs] = .ok → s.me.full 20 = false →
    exec (.fmt g rs) s = .next ((s.modMe fun _ => (s.me.reserve 20 emptyEntry).1).mat 1 false
      [.entries 20 [((s.me.reserve 20 emptyEntry).2, (s.reg rs).setWidth 1024)] none])) ∧
  (∀ (g t : BitVec 4) (s : State), s.guardM g = true → s.me.full 20 = false →
    exec (.fmti g t) s = .next ((s.modMe fun _ => (s.me.reserve 20 emptyEntry).1).mat 1 false
      [.entries 20 [((s.me.reserve 20 emptyEntry).2, (sget 0#64 t.toNat s.me.sys.fmtt).setWidth 1024)] none])) ∧
  (∀ (i : Instr) (s : State) (g : BitVec 4) (dl : BitVec 12) (vb : Nat), mxRow s i = some (g, dl, vb) → s.guardM g = true →
    exec i s = .next (s.fly
      { iseq := s.ctx.iseq, bundle := s.ctx.first, word := s.ctx.word, engine := 3, kind := .start, wide := true, due := s.ctx.tick + dl.toNat, mx := some i, vbase := vb
        mdiv := s.me.divisor 2 }))

/-- MX_START of a core of a running group whose one due start meets the conditions that R222, R223, R231 and R234 set for its form
completes: the format word is taken from FQ, or is the one it took when it slipped, or for MZERO the head that stays there, what the
syllable reads it reads now, and its operation lands its latency after the start tick by the divisor in force at its issue; every other core
keeps. When FQ has no word for it, it stops the group with FQ-UNDERFLOW. With no start due it changes nothing. (R222, R223, R231, R232,
R234, R235, R237, R243). -/
def Obligations.MatrixStart : Prop :=
  (∀ (s : State) (n : Nat) (g : Grp) (o : Op) (e : Entry), s.grpAt n = some g → g.status = .running → (s.core n).dueStarts = [o] → o.engine = 3 → o.fw = none →
    (∀ a b c d x y, o.mx ≠ some (.mzero a b c d x y)) → (s.core n).head 20 (s.core n).tick = some e → s.mayStart n o (e.val.setWidth 64) →
    ∃ t, exec (.mxStart n) s = .next t ∧ t.core n = (((s.core n).pop 20).holdWord o { o with fw := some (e.val.setWidth 64) }).mxStarted
        { o with fw := some (e.val.setWidth 64) } (e.val.setWidth 64) ∧
      (∃ p ∈ (t.core n).ops, p.iseq = o.iseq ∧ p.kind ≠ .start ∧ p.due = (s.core n).tick + mxLatency o (e.val.setWidth 64) * o.mdiv) ∧
      ∀ m, m ≠ n → t.core m = s.core m) ∧
  (∀ (s : State) (n : Nat) (g : Grp) (o : Op) (fw : Word), s.grpAt n = some g → g.status = .running → (s.core n).dueStarts = [o] → o.fw = some fw →
    (∀ a b c d x y, o.mx ≠ some (.mzero a b c d x y)) → s.mayStart n o fw →
    ∃ t, exec (.mxStart n) s = .next t ∧ t.core n = (s.core n).mxStarted o fw ∧ ∀ m, m ≠ n → t.core m = s.core m) ∧
  (∀ (s : State) (n : Nat) (g : Grp) (o : Op) (e : Entry) (a : BitVec 4) (w : BitVec 1) (d : BitVec 12) (b : BitVec 6) (x : BitVec 2) (y : BitVec 4),
    s.grpAt n = some g → g.status = .running → (s.core n).dueStarts = [o] → o.mx = some (.mzero a w d b x y) → o.fw = none →
    (s.core n).head 20 (s.core n).tick = some e → s.mayStart n o (e.val.setWidth 64) →
    ∃ t, exec (.mxStart n) s = .next t ∧ t.core n = (s.core n).mxStarted o (e.val.setWidth 64) ∧ ∀ m, m ≠ n → t.core m = s.core m) ∧
  (∀ (s : State) (n : Nat) (g : Grp) (o : Op), s.grpAt n = some g → g.status = .running → (s.core n).dueStarts = [o] → o.fw = none →
    (s.core n).head 20 (s.core n).tick = none →
    exec (.mxStart n) s = .next (({ s with ctx := { s.ctx with out := .running } } : State).stop n { cause := 0x0B, engine := 3, iseq := o.iseq })) ∧
  (∀ (s : State) (n : Nat) (g : Grp), s.grpAt n = some g → g.status = .running → (s.core n).dueStarts = [] →
    exec (.mxStart n) s = .next { s with ctx := { s.ctx with out := .running } })

/-- With a true guard: a pop whose head entry is present, or a flag pop of an empty queue, and a push that finds a free entry complete with
the effect of R203; IPSEL has the selection in flight for one vector cycle, IPLD a well-formed table of a claimed and ready slot for eight,
and IPF of a row of a held F32 or B16 bank, with room in y0 and its engine free, has the row evaluated under the selection at issue in
flight for twelve and occupies the engine for one vector cycle, two for B16; that an IPF may issue at the very tick at which the occupancy
ends is log entry 12, the model's reading. A token that a syllable pops must be there. (R138, R139, R141, R203, R206, R208, R209). -/
def Obligations.QueueMoves : Prop :=
  (∀ (g : BitVec 4) (vr : BitVec 10) (q : BitVec 4) (md : BitVec 2) (pk : BitVec 1) (cf : BitVec 3) (op : BitVec 2) (ch : BitVec 4) (s : State),
    s.guardM g = true → s.heldOk [s.vrow vr] = .ok → ((s.me.head q.toNat s.ctx.tick).isSome = true ∨ md = 2#2) → s.tokenThere op ch →
    exec (.vpop g vr q md pk cf op ch) s = .next (s.popDone q.toNat md pk cf op ch true (wholeRow (s.vrow vr)))) ∧
  (∀ (g : BitVec 4) (vr : BitVec 10) (md : BitVec 2) (pk : BitVec 1) (cf : BitVec 3) (op : BitVec 2) (ch : BitVec 4) (s : State),
    s.guardM g = true → s.heldOk [s.vrow vr] = .ok → ((s.me.head 18 s.ctx.tick).isSome = true ∨ md = 2#2) → s.tokenThere op ch →
    exec (.ypop g vr md pk cf op ch) s = .next (s.popDone 18 md pk cf op ch true (wholeRow (s.vrow vr)))) ∧
  (∀ (g : BitVec 4) (sg : BitVec 5) (q : BitVec 4) (md : BitVec 2) (pk : BitVec 1) (cf : BitVec 3) (op : BitVec 2) (ch : BitVec 4) (s : State),
    s.guardM g = true → s.regsOk [sg] = .ok → ((s.me.head (12 + q.toNat) s.ctx.tick).isSome = true ∨ md = 2#2) → s.tokenThere op ch →
    exec (.spop g sg q md pk cf op ch) s = .next (s.popDone (12 + q.toNat) md pk cf op ch false fun v => s.xLand sg (v.setWidth 64))) ∧
  (∀ (g : BitVec 4) (sg : BitVec 5) (md : BitVec 2) (pk : BitVec 1) (cf : BitVec 3) (op : BitVec 2) (ch : BitVec 4) (s : State),
    s.guardM g = true → s.regsOk [sg] = .ok → ((s.me.head 19 s.ctx.tick).isSome = true ∨ md = 2#2) → s.tokenThere op ch →
    exec (.cpop g sg md pk cf op ch) s = .next (s.popDone 19 md pk cf op ch false fun v => s.xLand sg (v.setWidth 64))) ∧
  (∀ (g : BitVec 4) (vr : BitVec 10) (q : BitVec 4) (md op : BitVec 2) (ch : BitVec 4) (s : State),
    s.guardM g = true → s.heldOk [s.vrow vr] = .ok → s.rowsGood [s.vrow vr] = .ok → s.me.full (8 + q.toNat) = false → s.tokenThere op ch →
    exec (.vpush g vr q md op ch) s = .next (s.pushDone (8 + q.toNat) 1 op ch true (s.me.row (s.vrow vr)))) ∧
  (∀ (g : BitVec 4) (sg : BitVec 5) (q : BitVec 4) (md op : BitVec 2) (ch : BitVec 4) (s : State),
    s.guardM g = true → s.regsOk [sg] = .ok → s.me.full (16 + q.toNat) = false → s.tokenThere op ch →
    exec (.apush g sg q md op ch) s = .next (s.pushDone (16 + q.toNat) 1 op ch false ((s.reg sg).setWidth 1024))) ∧
  (∀ (g fn : BitVec 4) (op : BitVec 2) (ch : BitVec 4) (s : State), s.guardM g = true → s.tokenThere op ch →
    exec (.ipsel g fn op ch) s = .next ((s.withToken op ch).fly (s.iOp 1 false op ch [.ipsel fn.toNat]))) ∧
  (∀ (g fn : BitVec 4) (o : BitVec 6) (op : BitVec 2) (ch : BitVec 4) (s : State), s.guardM g = true → s.tokenThere op ch →
    (s.me.slot o.toNat).claimed = true → (s.me.slot o.toNat).ready = true → (2, s.ctx.core, o.toNat) ∉ s.bad → s.tableOk o.toNat = true →
    exec (.ipld g fn o op ch) s = .next ((s.withToken op ch).fly (s.iOp 8 true op ch [.iptab (fn.toNat - 8) (s.slotTable o.toNat)]))) ∧
  (∀ (g : BitVec 4) (vs : BitVec 10) (op : BitVec 2) (ch : BitVec 4) (s : State), s.guardM g = true → s.tokenThere op ch →
    s.heldOk [s.vrow vs] = .ok → (s.me.rowType (s.vrow vs) = 0 ∨ s.me.rowType (s.vrow vs) = 2) → s.me.full 18 = false →
    s.me.e.ipfEnd ≤ s.ctx.tick → s.rowsGood [s.vrow vs] = .ok →
    exec (.ipf g vs op ch) s = .next
      ((s.modMe fun c => { c with e := { c.e with ipfEnd := s.ctx.tick + (if s.me.rowType (s.vrow vs) = 0 then 1 else 2) * c.divisor 1 } }).pushDone 18 12 op ch true
        (interpRow (tableOf s.me.e.ipsel s.me.e.tabs) (s.me.rowType (s.vrow vs)) (s.me.row (s.vrow vs)))))

/-- With a true guard and nothing else wrong, a strict pop of an empty queue raises QUEUE-UNDERFLOW and a stalling one waits for an entry; a
strict push into a full queue raises QUEUE-OVERFLOW and a stalling one waits for room: VPOP, YPOP, SPOP and CPOP, and VPUSH and APUSH, each
on its own queues. IPF with y0 full, and FMT and FMTI with FQ full, which have no stall mode, raise QUEUE-OVERFLOW. Every I-class syllable
whose token pop finds its channel empty waits for the channel. (R138, R141, R203, R208, R233). -/
def Obligations.QueueModes : Prop :=
  (∀ (g : BitVec 4) (vr : BitVec 10) (q : BitVec 4) (pk : BitVec 1) (cf : BitVec 3) (op : BitVec 2) (ch : BitVec 4) (s : State),
    s.guardM g = true → s.heldOk [s.vrow vr] = .ok → s.tokenThere op ch →
    (s.me.head q.toNat s.ctx.tick = none → exec (.vpop g vr q 0#2 pk cf op ch) s = .next (s.raise { cause := 0x08 }) ∧
      exec (.vpop g vr q 1#2 pk cf op ch) s = .next (s.waiting (.pop q.toNat))) ∧
    (s.me.head 18 s.ctx.tick = none → exec (.ypop g vr 0#2 pk cf op ch) s = .next (s.raise { cause := 0x08 }) ∧
      exec (.ypop g vr 1#2 pk cf op ch) s = .next (s.waiting (.pop 18))) ∧
    (s.rowsGood [s.vrow vr] = .ok → s.me.full (8 + q.toNat) = true → exec (.vpush g vr q 0#2 op ch) s = .next (s.raise { cause := 0x09 }) ∧
      exec (.vpush g vr q 1#2 op ch) s = .next (s.waiting (.room (8 + q.toNat)))) ∧
    (s.rowsGood [s.vrow vr] = .ok → (s.me.rowType (s.vrow vr) = 0 ∨ s.me.rowType (s.vrow vr) = 2) → s.me.e.ipfEnd ≤ s.ctx.tick → s.me.full 18 = true →
      exec (.ipf g vr op ch) s = .next (s.raise { cause := 0x09 }))) ∧
  (∀ (g : BitVec 4) (sg : BitVec 5) (q : BitVec 4) (pk : BitVec 1) (cf : BitVec 3) (op : BitVec 2) (ch : BitVec 4) (s : State),
    s.guardM g = true → s.regsOk [sg] = .ok → s.tokenThere op ch →
    (s.me.head (12 + q.toNat) s.ctx.tick = none → exec (.spop g sg q 0#2 pk cf op ch) s = .next (s.raise { cause := 0x08 }) ∧
      exec (.spop g sg q 1#2 pk cf op ch) s = .next (s.waiting (.pop (12 + q.toNat)))) ∧
    (s.me.head 19 s.ctx.tick = none → exec (.cpop g sg 0#2 pk cf op ch) s = .next (s.raise { cause := 0x08 }) ∧
      exec (.cpop g sg 1#2 pk cf op ch) s = .next (s.waiting (.pop 19))) ∧
    (s.me.full (16 + q.toNat) = true → exec (.apush g sg q 0#2 op ch) s = .next (s.raise { cause := 0x09 }) ∧
      exec (.apush g sg q 1#2 op ch) s = .next (s.waiting (.room (16 + q.toNat))))) ∧
  (∀ (g t : BitVec 4) (rs : BitVec 5) (s : State), s.guardM g = true → s.me.full 20 = true →
    (s.regsOk [rs] = .ok → exec (.fmt g rs) s = .next (s.raise { cause := 0x09 })) ∧ exec (.fmti g t) s = .next (s.raise { cause := 0x09 })) ∧
  (∀ (g ch q : BitVec 4) (vr : BitVec 10) (md : BitVec 2) (pk : BitVec 1) (cf : BitVec 3) (s : State), s.guardM g = true → sget 0 ch.toNat s.me.tk = 0 →
    s.heldOk [s.vrow vr] = .ok → s.rowsGood [s.vrow vr] = .ok →
    (((s.me.head q.toNat s.ctx.tick).isSome = true ∨ md = 2#2) → exec (.vpop g vr q md pk cf 2#2 ch) s = .next (s.waiting (.token ch.toNat))) ∧
    (((s.me.head 18 s.ctx.tick).isSome = true ∨ md = 2#2) → exec (.ypop g vr md pk cf 2#2 ch) s = .next (s.waiting (.token ch.toNat))) ∧
    (s.me.full (8 + q.toNat) = false → exec (.vpush g vr q md 2#2 ch) s = .next (s.waiting (.token ch.toNat))) ∧
    ((s.me.rowType (s.vrow vr) = 0 ∨ s.me.rowType (s.vrow vr) = 2) → s.me.e.ipfEnd ≤ s.ctx.tick → s.me.full 18 = false →
      exec (.ipf g vr 2#2 ch) s = .next (s.waiting (.token ch.toNat)))) ∧
  (∀ (g ch q : BitVec 4) (sg : BitVec 5) (md : BitVec 2) (pk : BitVec 1) (cf : BitVec 3) (s : State), s.guardM g = true → sget 0 ch.toNat s.me.tk = 0 →
    s.regsOk [sg] = .ok →
    (((s.me.head (12 + q.toNat) s.ctx.tick).isSome = true ∨ md = 2#2) → exec (.spop g sg q md pk cf 2#2 ch) s = .next (s.waiting (.token ch.toNat))) ∧
    (((s.me.head 19 s.ctx.tick).isSome = true ∨ md = 2#2) → exec (.cpop g sg md pk cf 2#2 ch) s = .next (s.waiting (.token ch.toNat))) ∧
    (s.me.full (16 + q.toNat) = false → exec (.apush g sg q md 2#2 ch) s = .next (s.waiting (.token ch.toNat)))) ∧
  (∀ (g fn ch : BitVec 4) (o : BitVec 6) (s : State), s.guardM g = true → sget 0 ch.toNat s.me.tk = 0 →
    exec (.ipsel g fn 2#2 ch) s = .next (s.waiting (.token ch.toNat)) ∧ exec (.ipld g fn o 2#2 ch) s = .next (s.waiting (.token ch.toNat)))

/-- For any core, queue and value: while the head is not filled, filling an entry behind it leaves the queue empty to a pop; filling the
head by its number makes it poppable from its tick on; a pop then shows the entry reserved after it; a reservation counts as occupied at
once and, behind another entry, changes no head. (R138, R139). -/
def Obligations.QueueOrder : Prop :=
  (∀ (c : Core) (q n tick : Nat) (e : Entry) (rest : List Entry) (v : Row), (c.queue q).es = e :: rest → e.filled = false →
    (c.queue q).pops < 65536 → n < 65536 → n ≠ (c.queue q).pops → (c.fillEntry q n v).head q tick = none) ∧
  (∀ (c : Core) (q tick : Nat) (e : Entry) (rest : List Entry) (v : Row), (c.queue q).es = e :: rest → e.filled = false →
    (c.queue q).pops < 65536 → e.present ≤ tick → (c.fillEntry q (c.queue q).pops v).head q tick = some { e with filled := true, val := v }) ∧
  (∀ (c : Core) (q tick : Nat) (e f : Entry) (rest : List Entry), (c.queue q).es = e :: f :: rest → f.filled = true → f.present ≤ tick →
    (c.pop q).head q tick = some f ∧ ((c.pop q).queue q).es.length + 1 = (c.queue q).es.length) ∧
  (∀ (c : Core) (q tick : Nat) (e : Entry), (c.queue q).es ≠ [] → (c.reserve q e).1.head q tick = c.head q tick) ∧
  (∀ (c : Core) (q : Nat) (e : Entry), ((c.reserve q e).1.queue q).es.length = (c.queue q).es.length + 1 ∧
    (c.reserve q e).2 = ((c.queue q).pops + (c.queue q).es.length) % 65536) ∧
  (∀ (c : Core) (q : Nat), c.full q = true ↔ qCap q ≤ (c.queue q).es.length)

/-- When one operation of a core is due: it leaves the operations in flight, and the core is what its landing makes of it; a g register
takes its value; a windowed position takes it in the file while the file holds that position, else in its slot of bank 31; a c register
shows its new value to S-class guards at once; a row and a predicate keep the bits the mask leaves; a branch register, a loop counter, the
interpolation selection and table take theirs; MTS and CLKDIV change the writable fields of BWPH, LVLn and DIVP and of nothing else; a queue
entry is filled; a claimed slot takes its bytes, is ready and counts its generation; legends take their descriptor and entries; LGINV clears
its descriptors. No other core changes. A row that lands in a bank not held raises BANK-UNHELD at the operation, with nothing landed. A
VSEND row that has arrived makes its q7 entry present. (R124, R132, R142, R143, R152, R162, R177, R181, R199, R217, R220, R224). -/
def Obligations.ResultLanding : Prop :=
  (∀ (n : Nat) (s : State) (o : Op) (l : Land), (s.core n).dueLandings = [o] → o.lands = [l] → (s.core n).landFault (s.badOf n) l = none →
    (∀ m v, l ≠ .mesh m v) → o.push = none →
    ∃ t, exec (.resultLanding n) s = .next t ∧ (∀ m, m ≠ n → t.core m = s.core m) ∧ t.hbm = s.hbm ∧ t.groups = s.groups ∧
      (t.core n).ops = (s.core n).ops.filter (fun p => p != o) ∧
      (∀ r v, l = .greg r v → sget 0#64 r (t.core n).x.g = v ∧ (∀ k, k ≠ r → sget 0#64 k (t.core n).x.g = sget 0#64 k (s.core n).x.g)) ∧
      (∀ p v, l = .wreg p v → (s.core n).x.low ≤ p → p < (s.core n).x.base + (s.core n).x.frame →
        sget 0#64 p (t.core n).x.win = v ∧ (t.core n).sp = (s.core n).sp) ∧
      (∀ p v, l = .wreg p v → p < (s.core n).x.low ∨ (s.core n).x.base + (s.core n).x.frame ≤ p →
        Memory.word (t.core n).sp (0x1F3000 + 8 * p) = v ∧ (t.core n).x = (s.core n).x) ∧
      (∀ r v, l = .creg r v → (t.core n).x.k.cNow r = v) ∧
      (∀ r m v, l = .rows [(r, m, v)] → (t.core n).row r = ((s.core n).row r &&& ~~~m) ||| (v &&& m) ∧
        (∀ k, k ≠ r → (t.core n).row k = (s.core n).row k)) ∧
      (∀ r m v, l = .preg r m v → (t.core n).pred r = ((s.core n).pred r &&& ~~~m) ||| (v &&& m) ∧ (∀ k, k ≠ r → (t.core n).pred k = (s.core n).pred k)) ∧
      (∀ r v ready, l = .breg r v ready → sget {} r (t.core n).x.k.b = { val := v, ready := ready, fetched := false }) ∧
      (∀ r v, l = .lcnt r v → sget 0#64 r (t.core n).x.k.lc = v ∧ (∀ k, k ≠ r → sget 0#64 k (t.core n).x.k.lc = sget 0#64 k (s.core n).x.k.lc)) ∧
      (∀ v, l = .sys 0x020 v → (t.core n).sys.bwph = (v &&& 0xFFFFFFFFFF#64) ||| 0x8000000000000000#64 ∧ (t.core n).sys.bwpa = (s.core n).sys.bwpa) ∧
      (∀ v, l = .sys 0x1050 v → (t.core n).sys.divp = (v &&& 0xFFFF#64) ||| 0x8000000000000000#64 ∧ (t.core n).sys.diva = (s.core n).sys.diva) ∧
      (∀ k v, l = .sys (0x010 + k) v → k < 6 → k < (s.core n).sys.levels → (sget 0#64 k (s.core n).sys.lvl).toNat < 2 ^ 60 →
        sget 0#64 k (t.core n).sys.lvl = (sget 0#64 k (s.core n).sys.lvl &&& 0xF0000000FFFFFFFF#64) ||| (v &&& 0x0FFFFFFF00000000#64)) ∧
      (∀ r v, l = .sys r v → r < 0x100 → r ≠ 0x020 → (r < 0x010 ∨ 0x016 ≤ r) → (t.core n).sys = (s.core n).sys) ∧
      (∀ q k v, l = .entries q [(k, v)] none → (t.core n).queue q = ((s.core n).fillEntry q k v).queue q) ∧
      (∀ o off d, l = .slot o off d → (t.core n).slot o = { claimed := true, ready := true, gen := (((s.core n).slot o).gen + 1) % 2 ^ 32 } ∧
        (t.core n).e.slotMem = Memory.store (s.core n).e.slotMem (8192 * o + off) d) ∧
      (∀ k d es, l = .legends [(k, d, es)] → (t.core n).desc k = d ∧ (es.length = 256 → ∀ e, e < 256 → (t.core n).entry k e = es.getD e 0#32)) ∧
      (∀ k m, l = .lginv k m → ∀ j, (t.core n).desc j = if k ≤ j ∧ j < k + m then {} else (s.core n).desc j) ∧
      (∀ fn, l = .ipsel fn → (t.core n).e.ipsel = fn) ∧
      (∀ k tab, l = .iptab k tab → sget none k (t.core n).e.tabs = some tab)) ∧
  (∀ (n : Nat) (s : State) (o : Op) (r : Nat) (m v : Row), (s.core n).dueLandings = [o] → o.lands = [.rows [(r, m, v)]] → m ≠ 0#1024 →
    ((s.core n).bank (r / 16)).held = false →
    exec (.resultLanding n) s = .next ((s.modCore n fun c => { c with ops := c.ops.map fun p => if o == p then { p with cause := 0x0E } else p }).stop n
      { cause := 0x0E, engine := o.engine, iseq := o.iseq })) ∧
  (∀ (n m k d : Nat) (s : State) (e : Entry) (o : Op) (v : Row), ((s.core n).queue 7).es = [e] → e.filled = false → e.present ≤ (s.core n).tick →
    e.src = some (m, k) → (s.core m).ops.find? (fun o => o.iseq == k && o.engine == 2) = some o → o.lands = [.mesh d v] →
    ∃ t, exec (.vsendArrival n) s = .next t ∧ (t.core n).head 7 (s.core n).tick = some { e with filled := true, val := v } ∧
      ∀ j, j ≠ n → t.core j = s.core j)

/-- On an access core with a true guard, no unfinished register among those named, an address in a space the core may use and aligned to the
access: every access of the table, STQ included, stands unfinished with its address and operands; PREF needs no alignment; LDQ with room
also reserves the entry it will fill; SQPUSH with room pushes its register. An address out of reach raises ADDRESS-SPACE and a misaligned
one MISALIGNED, each with that address; a write behind a FENCE.rel whose orders do not hold yet waits to issue (R297; what may issue behind
it is log entry 53, the model's reading); a strict LDQ into a full queue raises QUEUE-OVERFLOW. (R50, R262, R264, R265, R292, R295, R297).
-/
def Obligations.AccessesIssue : Prop :=
  (∀ (i : Instr) (r : AccessRow) (s : State), accessRow i = some r → s.ctx.who = .a → s.guardC r.guard = true → s.regsOk r.regs = .ok →
    s.spaceOk s.ctx.core .access (r.addr s) = true → (r.addr s).toNat % accessSize i = 0 → (((accOf i).any fun a => a.wr) = true → s.relWaits = false) →
    exec i s = .next (s.pushAccess i (r.addr s) (r.data s) (r.extra s) none)) ∧
  (∀ (i : Instr) (r : AccessRow) (s : State), accessRow i = some r → s.ctx.who = .a → s.guardC r.guard = true → s.regsOk r.regs = .ok →
    s.spaceOk s.ctx.core .access (r.addr s) = true → (r.addr s).toNat % accessSize i = 0 → ((accOf i).any fun a => a.wr) = true → s.relWaits = true →
    exec i s = .next (s.waiting .ops)) ∧
  (∀ (i : Instr) (r : AccessRow) (s : State), accessRow i = some r → s.ctx.who = .a → s.guardC r.guard = true → s.regsOk r.regs = .ok →
    s.spaceOk s.ctx.core .access (r.addr s) = false → exec i s = .next (s.raise { cause := 0x15, addr := r.addr s })) ∧
  (∀ (i : Instr) (r : AccessRow) (s : State), accessRow i = some r → s.ctx.who = .a → s.guardC r.guard = true → s.regsOk r.regs = .ok →
    s.spaceOk s.ctx.core .access (r.addr s) = true → (r.addr s).toNat % accessSize i ≠ 0 →
    exec i s = .next (s.raise { cause := 0x16, addr := r.addr s })) ∧
  (∀ (g : BitVec 4) (b : BitVec 5) (imm : BitVec 24) (s : State), s.ctx.who = .a → s.guardC g = true → s.regsOk [b] = .ok →
    s.spaceOk s.ctx.core .access (s.reg b + imm.signExtend 64) = true →
    exec (.pref g b imm) s = .next (s.pushAccess (.pref g b imm) (s.reg b + imm.signExtend 64) 0#64 0#64 none)) ∧
  (∀ (g q : BitVec 4) (b : BitVec 5) (imm : BitVec 24) (md : BitVec 2) (s : State), s.ctx.who = .a → s.guardC g = true → s.regsOk [b] = .ok →
    s.spaceOk s.ctx.core .access (s.reg b + imm.signExtend 64) = true → (s.reg b + imm.signExtend 64).toNat % 128 = 0 →
    (s.me.full q.toNat = false → exec (.ldq g q b imm md) s = .next ((s.pushAccess (.ldq g q b imm md) (s.reg b + imm.signExtend 64) 0#64 0#64 none).modMe
      fun c => (c.reserve q.toNat { emptyEntry with iseq := s.ctx.iseq }).1.modAop s.ctx.iseq fun o =>
        { o with entry := some (((s.me.queue q.toNat).pops + (s.me.queue q.toNat).es.length) % 65536) })) ∧
    (s.me.full q.toNat = true → md ≠ 1#2 → exec (.ldq g q b imm md) s = .next (s.raise { cause := 0x09 }))) ∧
  (∀ (g q : BitVec 4) (b : BitVec 5) (md : BitVec 2) (s : State), s.ctx.who = .a → s.guardC g = true → s.regsOk [b] = .ok →
    s.me.full (12 + q.toNat) = false →
    exec (.sqpush g q b md) s = .next (s.modMe fun c => c.setQueue (12 + q.toNat)
      { c.queue (12 + q.toNat) with es := (c.queue (12 + q.toNat)).es ++ [{ filled := true, present := c.tick, val := (s.reg b).setWidth 1024, iseq := s.ctx.iseq }] }))

/-- With a true guard, no named register whose latency still runs, a space-3 pointer into HBM (R390), an aligned access and no error or
channel copy there: a load or an AWAIT whose condition holds gives its register the value, a store leaves its bytes, an atomic leaves its
new word (R292) and gives its register the old one. Outside the save images (log entry 101) these are the bytes of HBM. PREF completes with
nothing to do, and so does FENCE, which log entry 76 reads from R389: the model's choice. An address that names nothing raises ADDRESS-
SPACE, which halts the core. (R264, R292, R295, R389, R390). -/
def Obligations.ManagementAccesses : Prop :=
  (∀ (i : Instr) (r : AccessRow) (a : Nat) (s : State), accessRow i = some r → s.ctx.who = .mgmt → s.guardC r.guard = true → s.regsOk r.regs = .ok →
    sysaddr (r.addr s) = .hbm a → a % accessSize i = 0 → s.copied (.hbm a) (accessSize i) = false → s.readBad (.hbm a) (accessSize i) = false →
    (∀ v, loadedWord i (s.mgmtRead a (accessSize i)) = some v → exec i s = .next (s.putReg 1 r.rd v)) ∧
    (∀ k, accOf i = some k → k.wr = true → k.atom = false → (∀ g q b imm md, i ≠ .stq g q b imm md) →
      exec i s = .next (s.mgmtWrite a (leBytes k.size (r.data s).toNat))) ∧
    (∀ g rd b s2 cond sz ord scp, i = .await g rd b s2 cond sz ord scp → awaitHolds cond.toNat sz.toNat
        (loadValue sz.toNat (2 ≤ cond.toNat && cond.toNat ≤ 5) (s.mgmtRead a (2 ^ sz.toNat))) (s.reg s2) = true →
      exec i s = .next (s.putReg 1 rd (loadValue sz.toNat (2 ≤ cond.toNat && cond.toNat ≤ 5) (s.mgmtRead a (2 ^ sz.toNat))))) ∧
    (∀ k, accOf i = some k → k.atom = true → k.wr = true →
      let old := BitVec.ofNat 64 (leNat (s.mgmtRead a k.size))
      exec i s = .next ((match atomicNew i (8 * k.size) old (r.data s) (r.extra s) with
          | some v => s.mgmtWrite a (leBytes k.size v.toNat)
          | none => s).putReg 1 r.rd old))) ∧
  (∀ (a k : Nat) (d : Bytes) (s : State), s.imageAt a = none → s.mgmtRead a k = Memory.bytes s.hbm a k ∧
    (s.mgmtWrite a d).hbm = Memory.store s.hbm a d ∧ (s.mgmtWrite a d).ctx = s.ctx ∧
    (s.mgmtWrite a d).cores = s.cores) ∧
  (∀ (g : BitVec 4) (ord : BitVec 2) (scp : BitVec 3) (s : State), s.ctx.who = .mgmt → exec (.fence g ord scp) s = .next s) ∧
  (∀ (g : BitVec 4) (b : BitVec 5) (imm : BitVec 24) (s : State), s.ctx.who = .mgmt → s.regsOk [b] = .ok → exec (.pref g b imm) s = .next s) ∧
  (∀ (i : Instr) (r : AccessRow) (s : State), accessRow i = some r → s.ctx.who = .mgmt → s.guardC r.guard = true → s.regsOk r.regs = .ok → sysaddr (r.addr s) = .none →
    (∀ g q b imm md, i ≠ .stq g q b imm md) →
    ∃ t, exec i s = .next t ∧ (t.mcore s.ctx.core).halted = true ∧ t.ctx.out = .stopped ∧ t.hbm = s.hbm)

/-- For an access of a running core that is the first of its ISEQ, has passed its checks and is ordered behind nothing, at an HBM place with
no error and no channel copy: a load completes with rd holding the zero- or sign-extended bytes, a store leaves its bytes and retires, an
atomic leaves its new word and gives rd the old one, ACAS that finds another value writing nothing. An STQ whose queue shows a row of no
drain buffer, no earlier STQ having yet to pop that queue, pops it and leaves its bytes at one instant (log entry 48, the model's reading of
R265). No write hidden from some agents stands (log entry 97). Outside the stored bytes every HBM byte reads as before, outside rd every x
register holds, the X-stream is untouched, and a result for x0 is dropped; where a scalar result of the same bundle is still to land in rd,
that one stands (R45). (R45, R50, R264, R265, R288, R291, R292). -/
def Obligations.AccessesPerformed : Prop :=
  ∀ (n q pn a : Nat) (s : State) (o : AOp) (k : Acc) (g : Grp), (s.core n).aop q = some o → o.iseq = q → o.phase = .ready → o.place = .hbm a →
    accOf o.instr = some k → (s.core n).part = some pn → s.opRuns n q = true → s.grpAt n = some g → g.status ≠ .resuming →
    s.mayPerform n pn o k = true → s.copied (.hbm a) k.size = false → s.readBad (.hbm a) k.size = false → s.order.veils = [] →
    (∀ v, loadedWord o.instr (Memory.bytes s.hbm a k.size) = some v →
      ∃ t, exec (.aClassResult n q) s = .next t ∧ t.hbm = s.hbm ∧ (t.core n).x = (s.core n).x ∧
        (∀ rd, o.dest = some rd → rd ≠ 0 →
          sget 0#64 rd (t.core n).a.x = if (s.core n).cycle < sget 0 rd (s.core n).a.due then sget 0#64 rd (s.core n).a.x else v) ∧
        (∀ j, o.dest ≠ some j ∨ j = 0 → sget 0#64 j (t.core n).a.x = sget 0#64 j (s.core n).a.x) ∧
        (t.core n).aops = (s.core n).aops.filter fun y => y.iseq != q) ∧
    (k.wr = true → k.atom = false → (∀ g u b imm md, o.instr ≠ .stq g u b imm md) →
      ∃ t, exec (.accessPerformed n q) s = .next t ∧ t.hbm = Memory.store s.hbm a o.stored ∧ Memory.bytes t.hbm a k.size = o.stored ∧
        (∀ c, c < a ∨ a + k.size ≤ c → Memory.read t.hbm c = Memory.read s.hbm c) ∧
        (t.core n).x = (s.core n).x ∧ (t.core n).a.x = (s.core n).a.x ∧ (t.core n).a.k = (s.core n).a.k ∧
        ((s.core n).blocked = false → (t.core n).a = (s.core n).a) ∧ (t.core n).aops = (s.core n).aops.filter fun y => y.iseq != q) ∧
    (∀ (g u : BitVec 4) (b : BitVec 5) (imm : BitVec 24) (md : BitVec 2) (e : Entry), o.instr = .stq g u b imm md → o.popped = false →
      (s.core n).popHeld q u = false → (s.core n).head (8 + u.toNat) (s.core n).tick = some e → e.buf = none →
      ∃ t, exec (.accessPerformed n q) s = .next t ∧ t.hbm = Memory.store s.hbm a (rowBytes e.val) ∧
        (∀ c, c < a ∨ a + 128 ≤ c → Memory.read t.hbm c = Memory.read s.hbm c) ∧
        (t.core n).queue (8 + u.toNat) = ((s.core n).pop (8 + u.toNat)).queue (8 + u.toNat) ∧
        (t.core n).x = (s.core n).x ∧ (t.core n).a.x = (s.core n).a.x ∧ (t.core n).aops = (s.core n).aops.filter fun y => y.iseq != q) ∧
    (k.atom = true → k.wr = true →
      ∃ t, exec (.aClassResult n q) s = .next t ∧
        (∀ v, atomicNew o.instr (8 * k.size) (BitVec.ofNat 64 (Memory.le s.hbm a k.size)) o.data o.extra = some v →
          t.hbm = Memory.store s.hbm a (leBytes k.size v.toNat)) ∧
        (atomicNew o.instr (8 * k.size) (BitVec.ofNat 64 (Memory.le s.hbm a k.size)) o.data o.extra = none → t.hbm = s.hbm) ∧
        (∀ rd, o.dest = some rd → rd ≠ 0 → sget 0#64 rd (t.core n).a.x =
          if (s.core n).cycle < sget 0 rd (s.core n).a.due then sget 0#64 rd (s.core n).a.x else BitVec.ofNat 64 (Memory.le s.hbm a k.size)) ∧
        (t.core n).x = (s.core n).x ∧ (∀ j, o.dest ≠ some j ∨ j = 0 → sget 0#64 j (t.core n).a.x = sget 0#64 j (s.core n).a.x))

/-- TRANSLATION_WALK_END of an unfinished access, STQ included, whose checks 3 to 5 pass and that no watchpoint matches leaves it ready at
the place found; a failed check stops the group with that cause against the access. An access reissued at the address of its record makes
checks 1 and 2 before these (R330). QUEUE_FILL of an LDQ whose row has been read fills its entry and retires it. AWAIT_SATISFIED of a ready
AWAIT on HBM that is ordered behind nothing gives rd the word when the compare holds; when it does not, only the energy meter counts the
read. (R45, R139, R262, R265, R295, R330, R335). -/
def Obligations.WalksFillsAndAwaits : Prop :=
  (∀ (n q pn : Nat) (s : State) (o : AOp) (k : Acc) (h : Hit), (s.core n).aop q = some o → o.phase = .walking → s.opRuns n q = true →
    accOf o.instr = some k → (s.core n).part = some pn →
    s.resolveCopied n o.addr = false → s.recheck n o k = .ok h → (∀ kd, s.watchHit pn kd h.place k.size = none) →
    ∃ t, exec (.translationWalkEnd n q) s = .next t ∧ (t.core n).aop q = some { o with place := h.place, phase := .ready } ∧ t.groups = s.groups) ∧
  (∀ (n q pn c : Nat) (s : State) (o : AOp) (k : Acc), (s.core n).aop q = some o → o.phase = .walking → s.opRuns n q = true →
    accOf o.instr = some k → (s.core n).part = some pn → o.buf = none → s.resolveCopied n o.addr = false → s.recheck n o k = .error c →
    exec (.translationWalkEnd n q) s = .next ((s.modCore n fun b => b.leftBuffer o).stop n { cause := c, engine := 1, iseq := q, addr := o.addr })) ∧
  (∀ (n : Nat) (s : State) (o : AOp) (k : Acc), (o.again = false → s.recheck n o k = s.resolve n o.addr k.size k.wr true) ∧
    (o.again = true → s.spaceOk n .access o.addr = false → s.recheck n o k = .error 0x15) ∧
    (o.again = true → s.spaceOk n .access o.addr = true → s.recheck n o k =
      if o.addr.toNat % k.size = 0 then s.resolve n o.addr k.size k.wr true else .error 0x16)) ∧
  (∀ (n q e : Nat) (g u : BitVec 4) (b : BitVec 5) (imm : BitVec 24) (md : BitVec 2) (s : State) (o : AOp), (s.core n).aop q = some o → o.iseq = q →
    o.instr = .ldq g u b imm md → o.entry = some e → o.phase = .done → s.opRuns n q = true →
    exec (.queueFill n q) s = .next (s.modCore n fun c => (c.fillEntry u.toNat e o.row).dropAop q)) ∧
  (∀ (n pn a : Nat) (g : Grp) (gd : BitVec 4) (rd b s2 : BitVec 5) (cond : BitVec 4) (sz ord : BitVec 2) (scp : BitVec 3) (s : State) (o : AOp) (k : Acc),
    (s.core n).aops = [o] → o.instr = .await gd rd b s2 cond sz ord scp → o.phase = .ready → o.place = .hbm a → (s.core n).part = some pn →
    accOf o.instr = some k → s.mayPerform n pn o k = true →
    s.opRuns n o.iseq = true → s.grpAt n = some g → g.status ≠ .resuming → s.copied (.hbm a) (2 ^ sz.toNat) = false →
    s.readBad (.hbm a) (2 ^ sz.toNat) = false → s.order.veils = [] →
    let v := loadValue sz.toNat (2 ≤ cond.toNat && cond.toNat ≤ 5) (Memory.bytes s.hbm a (2 ^ sz.toNat))
    (awaitHolds cond.toNat sz.toNat v o.data = true → ∃ t, exec (.awaitSatisfied n) s = .next t ∧ (t.core n).aops = [] ∧ t.hbm = s.hbm ∧
      (rd ≠ 0#5 → sget 0#64 rd.toNat (t.core n).a.x =
        if (s.core n).cycle < sget 0 rd.toNat (s.core n).a.due then sget 0#64 rd.toNat (s.core n).a.x else v)) ∧
    (awaitHolds cond.toNat sz.toNat v o.data = false → ∃ m, exec (.awaitSatisfied n) s = .next { s with meters := m }))

/-- With a true guard, operands readable, no release fence pending, every check of the plan and the capture passed, an entry of cq0 free and
the popped token there, COPY, GATHER and SCATTER leave one more command with the next sequence number, a reserved cq0 entry and their
destination slots not ready. With cq0 full the command waits and keeps the pages that it has captured (R256, R268), and one that waits so is
enqueued with them as soon as it may be (how a core keeps them is log entry 82). LDQ2 of a count of 0 does nothing; of 1 to 16 rows whose
plan and race check pass, with room, it reserves that many entries. A first command whose bytes have all moved retires: it leaves the list,
its slots that no later command writes become ready, its cq0 entry is filled with sequence number, kind and staleness, and its token, whose
channel has room, is pushed. (R217, R256, R266, R267, R268, R269). -/
def Obligations.CommandsEnqueueAndRetire : Prop :=
  (∀ (g : BitVec 4) (dst src len aux : BitVec 5) (dh shd : BitVec 1) (op : BitVec 2) (ch : BitVec 4) (pn : Nat) (l : Plan) (k : Captured) (s : State),
    s.guardC g = true → s.regsOk ((if dh = 0#1 then [dst] else []) ++ (if shd = 0#1 then [src] else []) ++ [len, aux]) = .ok → s.me.part = some pn →
    s.planned s.ctx.core pn (some s.ctx.iseq) (.copy g dst src len aux dh shd op ch) (s.operand dst (dh == 1#1)) (s.operand src (shd == 1#1)) (s.reg len)
      (s.reg aux) = .go (l, k) → s.relWaits = false → s.me.a.taken = none → s.tokenThere op ch →
    (s.me.full 19 = false → ∃ t, exec (.copy g dst src len aux dh shd op ch) s = .next t ∧ t.groups = s.groups ∧
      s.me.enqueued t.me (.copy g dst src len aux dh shd op ch) (s.operand dst (dh == 1#1)) (s.operand src (shd == 1#1)) (s.reg len) (s.reg aux) k) ∧
    (s.me.full 19 = true → ∃ t m, exec (.copy g dst src len aux dh shd op ch) s = .next t ∧ t.ctx.out = .waits (.room 19) ∧ t.me.cmds = s.me.cmds ∧
      t.me.a.taken = some (m, k.index) ∧ m.reads = k.reads ∧ m.writes = k.writes)) ∧
  (∀ (g : BitVec 4) (dst src len aux : BitVec 5) (dh shd : BitVec 1) (op : BitVec 2) (ch : BitVec 4) (pn : Nat) (m : Cmd) (index : List Cap) (s : State),
    s.guardC g = true → s.regsOk ((if dh = 0#1 then [dst] else []) ++ (if shd = 0#1 then [src] else []) ++ [len, aux]) = .ok → s.me.part = some pn →
    s.relWaits = false → s.me.a.taken = some (m, index) → s.me.full 19 = false → (s.me.a.took = false → s.tokenThere op ch) →
    ∃ t d, exec (.copy g dst src len aux dh shd op ch) s = .next t ∧ t.me.cmds = s.me.cmds ++ [d] ∧ d.instr = m.instr ∧ d.reads = m.reads ∧
      d.writes = m.writes ∧ d.seq = s.me.copySeq ∧ t.me.a.taken = none) ∧
  (∀ (g : BitVec 4) (dst src len aux : BitVec 5) (dh shd : BitVec 1) (pn : Nat) (l : Plan) (k : Captured) (s : State) (i : Instr),
    i = .gather g dst src len aux dh shd ∨ i = .scatter g dst src len aux dh shd →
    s.guardC g = true → s.regsOk ((if dh = 0#1 then [dst] else []) ++ (if shd = 0#1 then [src] else []) ++ [len, aux]) = .ok → s.me.part = some pn →
    s.planned s.ctx.core pn (some s.ctx.iseq) i (s.operand dst (dh == 1#1)) (s.operand src (shd == 1#1)) (s.reg len) (s.reg aux) = .go (l, k) →
    s.me.full 19 = false → s.relWaits = false → s.me.a.taken = none →
    ∃ t, exec i s = .next t ∧ t.groups = s.groups ∧
      s.me.enqueued t.me i (s.operand dst (dh == 1#1)) (s.operand src (shd == 1#1)) (s.reg len) (s.reg aux) k) ∧
  (∀ (g : BitVec 4) (q a len aux : BitVec 5) (s : State), s.guardC g = true → s.regsOk [a, len, aux] = .ok → s.reg len = 0#64 →
    exec (.ldq2 g q a len aux) s = .next s) ∧
  (∀ (g : BitVec 4) (q a len aux : BitVec 5) (pn : Nat) (l : Plan) (k : Captured) (s : State), s.guardC g = true → s.regsOk [a, len, aux] = .ok →
    s.reg len ≠ 0#64 → s.me.part = some pn → s.me.a.taken = none →
    s.planned s.ctx.core pn (some s.ctx.iseq) (.ldq2 g q a len aux) 0#64 (s.reg a) (s.reg len) (s.reg aux) = .go (l, k) →
    (s.me.queue q.toNat).es.length + (s.reg len).toNat ≤ qCap q.toNat →
    ∃ t m, exec (.ldq2 g q a len aux) s = .next t ∧ t.me.cmds = s.me.cmds ++ [m] ∧ m.instr = .ldq2 g q a len aux ∧ m.reads = k.reads ∧
      m.entry = some (((s.me.queue q.toNat).pops + (s.me.queue q.toNat).es.length) % 65536) ∧
      (t.me.queue q.toNat).es = (s.me.queue q.toNat).es ++ List.replicate (s.reg len).toNat { emptyEntry with iseq := s.ctx.iseq } ∧ (s.reg len).toNat ≤ 16) ∧
  (∀ (n : Nat) (s : State) (m : Cmd) (rest : List Cmd), (s.core n).cmds = m :: rest → s.opRuns n m.iseq = true → (s.core n).frozen = false →
    m.watched = none → m.again = false → capLen m.reads ≤ m.progress → (∀ ch, m.push = some ch → (s.core n).tokens ch < 15) →
    ∃ t, exec (.commandRetire n) s = .next t ∧ (t.core n).cmds = rest ∧ t.hbm = s.hbm ∧
      (∀ ch, m.push = some ch → (t.core n).tokens ch = (s.core n).tokens ch + 1) ∧
      (∀ e, m.entry = some e → (∀ g q a len aux, m.instr ≠ .ldq2 g q a len aux) →
        (t.core n).queue 19 = ((s.core n).fillEntry 19 e (m.status.setWidth 1024)).queue 19) ∧
      (∀ o, o ∈ slotsOf m.writes → (∀ r ∈ rest, o ∉ slotsOf r.writes) → ((t.core n).slot o).ready = true)) ∧
  (∀ (m : Cmd) (g : BitVec 4) (dst src len aux : BitVec 5) (dh shd : BitVec 1) (op : BitVec 2) (ch : BitVec 4), m.seq < 2 ^ 32 →
    (m.instr = .copy g dst src len aux dh shd op ch → m.status.toNat = m.seq * 2 ^ 32 + 4096 + (if m.stale then 1 else 0)) ∧
    (m.instr = .gather g dst src len aux dh shd → m.status.toNat = m.seq * 2 ^ 32 + 8192 + (if m.stale then 1 else 0)) ∧
    (m.instr = .scatter g dst src len aux dh shd → m.status.toNat = m.seq * 2 ^ 32 + 12288 + (if m.stale then 1 else 0)))

/-- With a true guard, nothing unfinished and the registers readable: FENCE changes only the race state and the releases that later writes
carry, these only as a release; BARA below 15 open phases arrives; BARW of a phase that every core has reached counts its wait, and of
another stands unfinished; TKPUSH below 15 adds a token and TKWAIT takes one, the last only when no engine of the core is to pop it (R302);
CWAIT of 0 gives rd 0, and of 1 pops the status at the head of cq0; SPALLOC marks the lowest free banks and, once none of them is being
scrubbed, gives rd their mask, unless a result still to land there stands over it (R45); SPFREE frees the banks of its mask. BARA with 15
open, BARW without an arrival and SPFREE of a bank not owned raise their causes. (R45, R128, R129, R270, R287, R297, R299, R302). -/
def Obligations.SyncCompletes : Prop :=
  (∀ (g : BitVec 4) (ord : BitVec 2) (scp : BitVec 3) (s : State), s.calm → s.guardC g = true →
    ∃ t f, exec (.fence g ord scp) s = .next t ∧ t.hbm = s.hbm ∧ (ord ≠ 2#2 → ord ≠ 3#2 → f = s.me.fences) ∧
      ({ s.me with race := s.me.race.fenced (coreRank s.ctx.core) ord.toNat, fences := f } : Core).sameButReady t.me) ∧
  (∀ (g : BitVec 4) (n : BitVec 5) (s : State), s.calm → s.guardC g = true →
    (s.me.arrivals n.toNat - s.me.waits n.toNat ≠ 15 →
      ∃ t, exec (.bara g n) s = .next t ∧ t.me.arrivals n.toNat = s.me.arrivals n.toNat + 1 ∧ t.me.race.e = min (s.me.race.e + 1) (2 ^ 40 - 1) ∧
        t.me.aops = [] ∧ (∀ k, k ≠ n.toNat → t.me.arrivals k = s.me.arrivals k) ∧ t.me.barW = s.me.barW) ∧
    (s.me.arrivals n.toNat - s.me.waits n.toNat = 15 → exec (.bara g n) s = .next (s.raise { cause := 0x09 }))) ∧
  (∀ (g : BitVec 4) (n : BitVec 5) (s : State) (r : Grp), s.calm → s.guardC g = true → s.grpAt s.ctx.core = some r →
    (s.me.arrivals n.toNat ≠ s.me.waits n.toNat → s.allArrived r n.toNat (s.me.waits n.toNat + 1) = true →
      ∃ t, exec (.barw g n) s = .next t ∧ t.me.waits n.toNat = s.me.waits n.toNat + 1 ∧ t.me.aops = [] ∧ t.me.barA = s.me.barA) ∧
    (s.me.arrivals n.toNat ≠ s.me.waits n.toNat → s.allArrived r n.toNat (s.me.waits n.toNat + 1) = false →
      ∃ t o, exec (.barw g n) s = .next t ∧ t.me.aops = [o] ∧ o.blocks = true ∧ t.me.barW = s.me.barW) ∧
    (s.me.arrivals n.toNat = s.me.waits n.toNat → exec (.barw g n) s = .next (s.raise { cause := 0x08 }))) ∧
  (∀ (g : BitVec 4) (n : BitVec 5) (s : State), s.calm → s.guardC g = true →
    (s.me.tokens n.toNat < 15 → ∃ t, exec (.tkpush g n) s = .next t ∧ (s.me.setTokens n.toNat (s.me.tokens n.toNat + 1)).sameButReady t.me) ∧
    (s.me.tokens n.toNat ≠ 0 → (s.me.tokens n.toNat = 1 → (s.pushSync (.tkwait g n) 0#64 0#64 0#64 false).engineWaits s.ctx.core n.toNat = false) →
      ∃ t, exec (.tkwait g n) s = .next t ∧ (s.me.setTokens n.toNat (s.me.tokens n.toNat - 1)).sameButReady t.me)) ∧
  (∀ (g : BitVec 4) (rd s1 : BitVec 5) (s : State), s.calm → s.guardC g = true → rd ≠ 0#5 → s.regsOk [rd, s1] = .ok →
    (s.reg s1 = 0#64 → ∃ t o, exec (.cwait g rd s1) s = .next t ∧ ({ s.me with aops := [o] } : Core).sameButReady t.me ∧ o.phase = .done ∧ o.dest = some rd.toNat ∧ o.value = 0#64) ∧
    (∀ e rest, s.reg s1 = 1#64 → (s.me.queue 19).es = e :: rest → e.filled = true →
      ∃ t o, exec (.cwait g rd s1) s = .next t ∧ ({ s.me.pop 19 with aops := [o] } : Core).sameButReady t.me ∧ o.phase = .done ∧ o.dest = some rd.toNat ∧
        o.value = e.val.setWidth 64)) ∧
  (∀ (g : BitVec 4) (rd s1 : BitVec 5) (s : State), s.calm → s.guardC g = true → s.regsOk [rd, s1] = .ok →
    ∃ t o, exec (.spalloc g rd s1) s = .next t ∧ t.me.aops = [o] ∧ o.phase = .sync ∧ o.begun = true ∧
      o.mask = maskOf (s.me.freeBanks (min (s.reg s1).toNat 31)) ∧ (∀ b ∈ s.me.freeBanks (min (s.reg s1).toNat 31), (sget ({} : Bank) b t.me.banks).st = 3)) ∧
  (∀ (n : Nat) (g : BitVec 4) (rd s1 : BitVec 5) (s : State) (o : AOp) (r : Grp), (s.core n).aops = [o] → o.instr = .spalloc g rd s1 → o.phase = .sync →
    o.begun = true → o.value = 0#64 → rd ≠ 0#5 → s.opRuns n o.iseq = true → s.grpAt n = some r → r.status ≠ .resuming →
    ∃ t, exec (.aClassResult n o.iseq) s = .next t ∧ (t.core n).aops = [] ∧
      sget 0#64 rd.toNat (t.core n).a.x =
        (if (s.core n).cycle < sget 0 rd.toNat (s.core n).a.due then sget 0#64 rd.toNat (s.core n).a.x else o.mask) ∧
      (t.core n).sys.spmask = (s.core n).sys.spmask ||| o.mask.setWidth 32 ∧
      (∀ b, b < 31 → o.mask.getLsbD b = true → (sget ({} : Bank) b (t.core n).banks).owner = (s.core n).owner ∧ (sget ({} : Bank) b (t.core n).banks).st = 2)) ∧
  (∀ (g : BitVec 4) (s1 : BitVec 5) (s : State), s.calm → s.guardC g = true → s.regsOk [s1] = .ok →
    ((s.reg s1).getLsbD 31 = false → (s.reg s1 &&& 0xFFFFFFFF#64) &&& ~~~(s.me.sys.spmask.setWidth 64) = 0#64 →
      ∃ t, exec (.spfree g s1) s = .next t ∧ (s.me.freeBanksOf (s.reg s1 &&& 0xFFFFFFFF#64)).sameButReady t.me) ∧
    ((s.reg s1).getLsbD 31 = true ∨ (s.reg s1 &&& 0xFFFFFFFF#64) &&& ~~~(s.me.sys.spmask.setWidth 64) ≠ 0#64 →
      exec (.spfree g s1) s = .next (s.raise { cause := 0x19 })))

/-- With a true guard: HLD loads its handle register; HNEW of a good descriptor in HBM, whose page it has captured and counted and that
nothing issued earlier holds, gives the register and the descriptor's fourth word the new value, 0 when no slot is free and otherwise
generation, slot and kind; HFREE clears the entry and keeps the next generation; PUBLISH of a handle with a shadow stands unfinished; it
releases once no earlier access is pending; its swap, with no command writing the slot, saved contexts included, stores the entry with the
shadow visible, no shadow and the next generation, and updates the register. An invalid or stale handle raises its cause, and a table entry
in error MEMORY-UNCORRECTED, which names the entry (R90). (R90, R256, R271, R272, R273, R274). -/
def Obligations.HandlesComplete : Prop :=
  (∀ (g h : BitVec 4) (s1 : BitVec 5) (s : State), s.guardC g = true → s.regsOk [s1] = .ok →
    exec (.hld g h s1) s = .next (s.modMe fun c => { c with h := sset 0#64 h.toNat (s.reg s1) c.h })) ∧
  (∀ (g h : BitVec 4) (s1 : BitVec 5) (pn a : Nat) (slot : Option (Nat × Nat)) (s u : State), s.guardC g = true → s.regsOk [s1] = .ok →
    s.me.part = some pn → ((piecesOf (s.reg s1, 32)).any fun x => s.resolveCopied s.ctx.core x.1) = false →
    s.hnewCapture s.ctx.core pn (s.reg s1) = .ok (u, [(s.reg s1, .hbm a, 32)]) → u.ctx = s.ctx → u.badByte pn [(s.reg s1, .hbm a, 32)] = none → u.order.veils = [] →
    (u.readEntry a).fresh = true → u.copied (.hbm a) 32 = false → u.descHeld s.ctx.core pn s.ctx.iseq [(s.reg s1, .hbm a, 32)] = false →
    u.freeSlot pn 1 ((u.part pn).idx 0x418 % 65536) = .go slot →
    ∃ t v, exec (.hnew g h s1) s = .next t ∧ sget 0#64 h.toNat t.me.h = v ∧ Memory.word t.hbm (a + 24) = v ∧ (slot = none → v = 0#64) ∧
      (∀ k b, slot = some (k, b) → v = handleOf (handleGen (u.readEntry b).cur) k (if (u.readEntry a).shadow = 0#64 then 1 else 2))) ∧
  (∀ (g h : BitVec 4) (pn a : Nat) (e : HEntry) (s : State), s.guardC g = true → s.me.part = some pn →
    s.tableCopied pn (handleSlot (sget 0#64 h.toNat s.me.h)) = false → s.handleEntry pn (sget 0#64 h.toNat s.me.h) = .ok (a, e) →
    ∃ t, exec (.hfree g h) s = .next t ∧
      t.hbm = Memory.store s.hbm a (List.replicate 24 0#8 ++ wordBytes (handleOf (handleGen (sget 0#64 h.toNat s.me.h) + 1) 0 0)) ∧ t.peer = s.peer ∧
      t.me.h = s.me.h) ∧
  (∀ (g h : BitVec 4) (pn k : Nat) (s : State), s.guardC g = true → s.me.part = some pn →
    s.tableCopied pn (handleSlot (sget 0#64 h.toNat s.me.h)) = false → s.handleEntry pn (sget 0#64 h.toNat s.me.h) = .error k →
    exec (.hfree g h) s = .next (s.raise (s.handleCause pn (sget 0#64 h.toNat s.me.h) k))) ∧
  (∀ (g h : BitVec 4) (scp : BitVec 3) (pn a : Nat) (e : HEntry) (s : State), s.guardC g = true → s.me.part = some pn →
    s.tableCopied pn (handleSlot (sget 0#64 h.toNat s.me.h)) = false → s.publishChk pn (sget 0#64 h.toNat s.me.h) = .ok (a, e) →
    ∃ t o, exec (.publish g h scp) s = .next t ∧ t.me.aops = s.me.aops ++ [o] ∧ o.addr = sget 0#64 h.toNat s.me.h ∧ o.begun = false ∧ o.phase = .sync ∧
      t.me.race = s.me.race ∧ t.hbm = s.hbm) ∧
  (∀ (n pn a : Nat) (g h : BitVec 4) (scp : BitVec 3) (e : HEntry) (s : State) (o : AOp), (s.core n).aops = [o] → o.instr = .publish g h scp →
    (s.core n).part = some pn → s.opRuns n o.iseq = true → o.begun = false → s.tableCopied pn (handleSlot o.addr) = false → s.publishChk pn o.addr = .ok (a, e) →
    ∃ t, exec (.publishSwap n) s = .next t ∧ (t.core n).aops = [{ o with begun := true }] ∧
      (t.core n).race.e = min ((s.core n).race.e + 1) (2 ^ 40 - 1) ∧ t.hbm = s.hbm) ∧
  (∀ (n pn a : Nat) (g h : BitVec 4) (scp : BitVec 3) (e : HEntry) (s : State) (o : AOp), (s.core n).aops = [o] → o.instr = .publish g h scp →
    (s.core n).part = some pn → s.opRuns n o.iseq = true → o.begun = true → s.tableCopied pn (handleSlot o.addr) = false → s.publishChk pn o.addr = .ok (a, e) →
    (∀ c ∈ s.cores, ∀ m ∈ c.2.allCmds, m.writesSlot (handleSlot o.addr) = false) →
    (∀ r ∈ s.groups, ∀ im ∈ r.images, ∀ m ∈ im.2.allCmds, m.writesSlot (handleSlot o.addr) = false) →
    ∃ t, exec (.publishSwap n) s = .next t ∧ (t.core n).aops = [] ∧ sget 0#64 h.toNat (t.core n).h = handleOf (handleGen o.addr + 1) (handleSlot o.addr) 2 ∧
      t.hbm = Memory.store s.hbm a (wordBytes e.shadow ++ leBytes 8 e.size ++ wordBytes 0#64 ++
        wordBytes (handleOf (handleGen o.addr + 1) (handleSlot o.addr) 2))) ∧
  (∀ (pn : Nat) (v : Word) (s : State), v = 0#64 ∨ handleSlot v = 0 → s.handleEntry pn v = .error 0x1B) ∧
  (∀ (pn a : Nat) (v : Word) (s : State), v ≠ 0#64 → handleSlot v ≠ 0 → handleSlot v ≤ (s.part pn).idx 0x418 % 65536 → v.toNat % 2 ^ 28 = 0 →
    s.htSlot pn (handleSlot v) = .ok a → (s.readBad (.hbm a) 32 = true → s.handleEntry pn v = .error 0x20) ∧
    (s.readBad (.hbm a) 32 = false → (s.readEntry a).cur ≠ v → s.handleEntry pn v = .error 0x1C))

/-- On a calm access core with no command anywhere, TFENCE completes and leaves in the caches of its scope no leaf cached before it; one
that stands unfinished completes at TFENCE_COMPLETE, once the commands of its scope that captured before it have retired. QSEQ_ADVANCE
counts when everything alive at its last value has retired and leaves the state as it is otherwise; that it itself discards the leaves
cached before QSEQ reached that value, and so advances with them still cached, is log entry 40, the model's reading of R259. QPUSH queues
its page with the current QSEQ, or waits when 65,536 are queued, released ones counted (log entry 104, the model's choice); QPOP gives the
first released page, or bit 63; a page pushed two steps ago is released, a younger one stays. (R258, R259, R260). -/
def Obligations.PagesAndFences : Prop :=
  (∀ (g : BitVec 4) (scp : BitVec 3) (s : State), s.calm → s.guardC g = true → (∀ c ∈ s.cores, c.2.allCmds = []) →
    (∀ r ∈ s.groups, ∀ im ∈ r.images, im.2.allCmds = []) →
    ∃ t, exec (.tfence g scp) s = .next t ∧ t.me.aops = [] ∧ ∀ k, inScope scp.toNat s.ctx.core k = true → ∀ l ∈ (t.core k).cache, s.stamp + 1 ≤ l.stamp) ∧
  (∀ (n pn : Nat) (g : BitVec 4) (scp : BitVec 3) (s : State) (o : AOp), (s.core n).aops = [o] → o.instr = .tfence g scp → (s.core n).part = some pn →
    s.opRuns n o.iseq = true → let mine := if o.value = 0#64 then s.stamp + 1 else o.value.toNat
    (∀ c ∈ s.cores, inScope scp.toNat n c.1 = true → ∀ m ∈ c.2.allCmds, mine ≤ m.stamp) →
    (∀ r ∈ s.groups, ∀ im ∈ r.images, inScope scp.toNat n im.1 = true → ∀ m ∈ im.2.allCmds, mine ≤ m.stamp) →
    ∃ t, exec (.tfenceComplete n) s = .next t ∧ (t.core n).aops = [] ∧ (o.begun = true → (t.core n).cache = (s.core n).cache) ∧
      (o.begun = false → ∀ k, inScope scp.toNat n k = true → ∀ l ∈ (t.core k).cache, mine ≤ l.stamp)) ∧
  (∀ (s : State), (∀ x ∈ s.qAlive, x ∉ s.alive) → ∃ t, exec .qseqAdvance s = .next t ∧ t.qseq = s.qseq + 1 ∧ t.groups = s.groups ∧
    (∀ k, ∀ l ∈ (t.core k).cache, s.qStamp ≤ l.stamp)) ∧
  (∀ (s : State) (x : Nat × Nat × Nat), x ∈ s.qAlive → x ∈ s.alive → exec .qseqAdvance s = .next s) ∧
  (∀ (p : Nat) (v : Word) (s : State), (s.part p).quarantine.length + (s.part p).released.length < 65536 →
    exec (.qpushWrite p v) s = .next (s.modPart p fun x => { x with quarantine := x.quarantine ++ [(v.toNat / 65536 % 2 ^ 23, s.qseq, none)] })) ∧
  (∀ (p : Nat) (v : Word) (s : State), 65536 ≤ (s.part p).quarantine.length + (s.part p).released.length → exec (.qpushWrite p v) s = .next s) ∧
  (∀ (p : Nat) (s : State), (s.part p).released = [] → exec (.qpopRead p) s = .next { s with reply := .status 0x8000000000000000#64 }) ∧
  (∀ (p g : Nat) (rest : List Nat) (s : State), (s.part p).released = g :: rest →
    exec (.qpopRead p) s = .next { s.modPart p (fun x => { x with released := rest }) with reply := .status (BitVec.ofNat 64 (65536 * g)) }) ∧
  (∀ (p g q : Nat) (s : State), p < 48 → (∀ x ∈ s.qAlive, x ∉ s.alive) → (s.part p).quarantine = [(g, q, none)] → (s.part p).shadows = [] →
    ∃ t, exec .qseqAdvance s = .next t ∧
      (q + 2 ≤ s.qseq + 1 → (t.part p).released = (s.part p).released ++ [g] ∧ (t.part p).quarantine = []) ∧
      (s.qseq + 1 < q + 2 → (t.part p).released = (s.part p).released ∧ (t.part p).quarantine = [(g, q, none)]))

/-- TARGET_FETCH changes nothing before its time (R166): on the X-stream once the target is ready, or in the slip that waits for it, it
marks the b register fetched and ends that wait; on the A-stream it marks it from 4 cycles of the access core after the PBR. SLIP_END clears
the slip when what was waited for holds and changes nothing before. A spill leaves every position of its lines in its slot of bank 31, a
fill reads them back, each moving LOW. The pulse of a group all of whose cores have arrived starts every clock at 0. A BARW whose phase is
complete counts its wait. A woken bank becomes HOT, an idle unpinned HOT bank WARM, an idle unheld accumulator bank WARM, and a scrubbed
free bank COLD and all zero, or handed to the SPALLOC that waits for it, or to the group that was placed on it meanwhile. That all lines
move at one event (log entry 80), the end of a slip (log entry 16) and the scrub of a bank of a group placed meanwhile (log entry 95) are
the model's reading. (R110, R118, R121, R130, R145, R151, R152, R166, R299). -/
def Obligations.WaitsAndBanksEnd : Prop :=
  (∀ (n bd : Nat) (s : State), let b := sget {} bd (s.core n).x.k.b
    let same (w : BReg) : Prop := w.val = b.val ∧ w.ready = b.ready
    ∃ t, exec (.targetFetch n .x bd) s = .next t ∧ (t.core n).a = (s.core n).a ∧
      (b.ready ≤ (s.core n).tick → sget {} bd (t.core n).x.k.b = { b with fetched := true } ∧
        (∀ w, (s.core n).x.await = some w → same w → (t.core n).x.await = none)) ∧
      (∀ w, s.fetchSlip n = true → (s.core n).x.await = some w → same w →
        sget {} bd (t.core n).x.k.b = { b with fetched := true } ∧ (t.core n).x.await = none) ∧
      ((s.core n).tick < b.ready → s.fetchSlip n = false → (t.core n).x.k.b = (s.core n).x.k.b ∧ (t.core n).x.await = (s.core n).x.await)) ∧
  (∀ (n bd : Nat) (s : State), let b := sget {} bd (s.core n).a.k.b
    ∃ t, exec (.targetFetch n .a bd) s = .next t ∧ (t.core n).x = (s.core n).x ∧
      (b.ready ≤ (s.core n).cycle + 3 * (s.core n).divisor 0 → sget {} bd (t.core n).a.k.b = { b with fetched := true }) ∧
      ((s.core n).cycle + 3 * (s.core n).divisor 0 < b.ready → (t.core n).a = (s.core n).a)) ∧
  (∀ (k : Nat) (g : Grp) (why : Slip) (s : State), s.grp? k = some g → g.status = .running → g.slip = some why →
    (s.waitOver g.slipCore why = true → ∃ t, exec (.slipEnd k) s = .next t ∧ t.grp? k = some { g with slip := none } ∧ t.cores = s.cores) ∧
    (s.waitOver g.slipCore why = false → exec (.slipEnd k) s = .next s)) ∧
  (∀ (n k : Nat) (g : Grp) (s : State), s.grpAt n = some g → g.status = .running → (s.core n).x.window = some (k, false) →
    (s.core n).x.low + 8 * k ≤ 8192 → (sget ({} : Bank) 31 (s.core n).banks).st ≠ 3 → (s.core n).windowRuns = true → s.windowBad n k false = none →
    ∃ t, exec (.windowSpillFill n) s = .next t ∧ (t.core n).x.window = none ∧ (t.core n).x.low = (s.core n).x.low + 8 * k ∧
      (∀ p, (s.core n).x.low ≤ p → p < (s.core n).x.low + 8 * k → Memory.word (t.core n).sp (0x1F3000 + 8 * p) = sget 0#64 p (s.core n).x.win) ∧
      (∀ p, (s.core n).x.low + 8 * k ≤ p → sget 0#64 p (t.core n).x.win = sget 0#64 p (s.core n).x.win)) ∧
  (∀ (n k : Nat) (g : Grp) (s : State), s.grpAt n = some g → g.status = .running → (s.core n).x.window = some (k, true) →
    8 * k ≤ (s.core n).x.low → (sget ({} : Bank) 31 (s.core n).banks).st ≠ 3 → (s.core n).spillOwed n = false →
    (s.core n).windowRuns = true → s.windowBad n k true = none →
    ∃ t, exec (.windowSpillFill n) s = .next t ∧ (t.core n).x.window = none ∧ (t.core n).x.low + 8 * k = (s.core n).x.low ∧ (t.core n).sp = (s.core n).sp ∧
      (∀ p, (t.core n).x.low ≤ p → p < (s.core n).x.low → sget 0#64 p (t.core n).x.win = Memory.word (s.core n).sp (0x1F3000 + 8 * p))) ∧
  (∀ (n k a : Nat) (fill : Bool) (g : Grp) (s : State), s.grpAt n = some g → g.status = .running → (s.core n).x.window = some (k, fill) →
    (sget ({} : Bank) 31 (s.core n).banks).st ≠ 3 → (fill = true → (s.core n).spillOwed n = false) → (s.core n).windowRuns = true →
    s.windowBad n k fill = some a →
    exec (.windowSpillFill n) s = .next (s.stop n { cause := 0x20, engine := 6, iseq := (s.core n).x.windowSeq, addr := spPointer n a })) ∧
  (∀ (k : Nat) (g : Grp) (s : State), s.grp? k = some g → g.status = .running → g.cores ≠ [] → (∀ n ∈ g.cores, (s.core n).arrived = true) →
    ∃ t, exec (.meridianPulse k) s = .next t ∧ t.grp? k = some { g with clock := true, key := 0 } ∧
      (∀ n ∈ g.cores, (t.core n).tick = 0 ∧ (t.core n).x.aligned = true)) ∧
  (∀ (n : Nat) (gd : BitVec 4) (k : BitVec 5) (g : Grp) (s : State) (o : AOp), (s.core n).aops = [o] → o.instr = .barw gd k → o.phase = .sync →
    s.opRuns n o.iseq = true → (s.core n).part.isSome = true → s.grpAt n = some g →
    (s.allArrived g k.toNat ((s.core n).waits k.toNat + 1) = true → ∃ t, exec (.barrierPhaseComplete n) s = .next t ∧ (t.core n).aops = [] ∧
      (t.core n).waits k.toNat = (s.core n).waits k.toNat + 1) ∧
    (s.allArrived g k.toNat ((s.core n).waits k.toNat + 1) = false → exec (.barrierPhaseComplete n) s = .next s)) ∧
  (∀ (n b : Nat) (s : State), (sget ({} : Bank) b (s.core n).banks).owner ≠ 0 → (sget ({} : Bank) b (s.core n).banks).st = 3 →
    ∃ t, exec (.bankWakeComplete n b) s = .next t ∧ sget {} b (t.core n).banks = { sget {} b (s.core n).banks with st := 2, last := s.power.ref } ∧ (t.core n).sp = (s.core n).sp) ∧
  (∀ (n b : Nat) (s : State), let k : Bank := sget {} b (s.core n).banks
    (k.owner ≠ 0 → k.st = 2 → k.pin = false → 2048 ≤ s.idleTicks k.last → ∃ t, exec (.bankIdleWarm n b) s = .next t ∧
      sget {} b (t.core n).banks = { k with st := 1 } ∧ (t.core n).sp = (s.core n).sp) ∧
    (k.pin = true ∨ s.idleTicks k.last < 2048 → exec (.bankIdleWarm n b) s = .next s)) ∧
  (∀ (n a : Nat) (s : State), ((s.core n).bank a).st = 2 → ((s.core n).bank a).held = false → 2048 ≤ s.idleTicks ((s.core n).bank a).last →
    exec (.accBankIdleWarm n a) s = .next (s.modCore n fun c => c.setBank a { c.bank a with st := 1 })) ∧
  (∀ (n b : Nat) (s : State), (sget ({} : Bank) b (s.core n).banks).owner = 0 → (sget ({} : Bank) b (s.core n).banks).st = 3 →
    (s.core n).bankOwner b = 0 →
    ∃ t, exec (.bankScrubComplete n b) s = .next t ∧ (∀ a, 65536 * b ≤ a → a < 65536 * b + 65536 → Memory.read (t.core n).sp a = 0#8) ∧
      (∀ a, a < 65536 * b ∨ 65536 * b + 65536 ≤ a → Memory.read (t.core n).sp a = Memory.read (s.core n).sp a) ∧
      (((s.core n).aops = [] → (sget ({} : Bank) b (t.core n).banks).st = 0) ∧
       (∀ o, (s.core n).aops = [o] → s.accessRuns n = true → o.begun = true → o.mask.getLsbD b = true →
        (t.core n).aops = [{ o with value := o.value &&& ~~~(1#64 <<< b) }] ∧ (t.core n).banks = (s.core n).banks))) ∧
  (∀ (n b : Nat) (s : State), (sget ({} : Bank) b (s.core n).banks).owner = 0 → (sget ({} : Bank) b (s.core n).banks).st = 3 →
    (s.core n).bankOwner b ≠ 0 →
    ∃ t, exec (.bankScrubComplete n b) s = .next t ∧ (t.core n).sp = (s.core n).sp ∧ (sget ({} : Bank) b (t.core n).banks).st = 2 ∧
      (sget ({} : Bank) b (t.core n).banks).owner = (s.core n).owner)

/-- WATCH_COPY_FREEZE of a command that has touched a watched unit leaves the engine frozen and stops the group with WATCHPOINT at that
address, unless one of the bytes moved before it froze has stopped it; no byte moves where the engine has less than 8 bytes to go, or the
command is an LDQ2 or not the first: that the further bytes all lie in the matching command is the model's choice (log entry 105).
PEER_WATCH_REPORT writes the oldest waiting report at the head of a ring with room. WATCHPOINT_ARM with EN going to 1 arms a range that can
be fixed in physical terms, its length with it, and otherwise leaves EN 0 and ERR 1. FIX_COMMAND and FIXIN_EDGE with no fix in the last 100
ns count the fix and latch it on every core; within 100 ns they merge into the earlier fix. (R341, R344, R346, R347, R353, R354, R358). -/
def Obligations.WatchAndFix : Prop :=
  (∀ (n k pn : Nat) (s : State) (m : Cmd) (w : Nat × Word), (s.core n).cmds.find? (fun m => m.watched.isSome) = some m → m.watched = some w →
    (s.core n).part = some pn → s.accessRuns n = true → (s.core n).frozen = false →
    ∃ u : State, (u.core n).frozen = true ∧
      exec (.watchCopyFreeze n k) s =
        .next (if u.accessRuns n then u.stop n { cause := 0x42, code := lowest w.1, engine := 5, iseq := m.iseq, addr := w.2 } else u) ∧
      ((k < 8 ∨ (s.core n).cmds.head?.map (·.iseq) ≠ some m.iseq ∨ ∃ g q a l x, m.instr = .ldq2 g q a l x) → u = s.modCore n fun c => { c with frozen := true })) ∧
  (∀ (p : Nat) (r : Bytes) (rest : List Bytes) (s : State), (s.part p).peerReports = r :: rest → ((s.part p).reg 0x600).toNat % 2 ^ 39 ≠ 0 → s.copying = [] →
    ((s.part p).idx 0x608 + 2 ^ 32 - (s.part p).idx 0x610) % 2 ^ 32 < 128 →
    ∃ t, exec (.peerWatchReport p) s = .next t ∧ (t.part p).peerReports = rest ∧ (t.part p).idx 0x608 = ((s.part p).idx 0x608 + 1) % 2 ^ 32 ∧
      t.hbm = Memory.store s.hbm (((s.part p).reg 0x600).toNat % 2 ^ 39 + 32 * ((s.part p).idx 0x608 % 128)) r ∧ t.cores = s.cores) ∧
  (∀ (p n : Nat) (v : Word) (s : State), n < 8 → v.getLsbD 63 = true → ((s.part p).reg (0x588 + 16 * n)).getLsbD 63 = false →
    (∀ pl, s.armPlace p ((s.part p).reg (0x580 + 16 * n)) (16 * (v.toNat / 2 % 256 + 1)) = some pl →
      ∃ t, exec (.watchpointArm p n v) s = .next t ∧ (n, pl, 16 * (v.toNat / 2 % 256 + 1)) ∈ (t.part p).armed ∧ ((t.part p).reg (0x588 + 16 * n)).getLsbD 63 = true) ∧
    (s.armPlace p ((s.part p).reg (0x580 + 16 * n)) (16 * (v.toNat / 2 % 256 + 1)) = none →
      ∃ t, exec (.watchpointArm p n v) s = .next t ∧ (t.part p).armed = (s.part p).armed ∧ ((t.part p).reg (0x588 + 16 * n)).getLsbD 63 = false ∧
        ((t.part p).reg (0x588 + 16 * n)).getLsbD 0 = true)) ∧
  (∀ (i : Instr) (s : State), i = .fixCommand ∨ i = .fixinEdge → (∀ f ∈ s.fixes, f.1 + 100 < s.wall) →
    ∃ t, exec i s = .next t ∧ t.fixId = (s.fixId + 1) % 65536 ∧ t.fixes = [(s.wall, none)] ∧
      (∀ c, c < 192 → (t.core c).sys.fix.id = BitVec.ofNat 64 (2 ^ 63 + (s.fixId + 1) % 65536) ∧ (t.core c).sys.fix.wall = BitVec.ofNat 64 s.wall ∧
        (t.core c).sys.fix.tick = BitVec.ofNat 64 (s.fixTick none c) ∧ (t.core c).x = (s.core c).x)) ∧
  (∀ (i : Instr) (s : State), i = .fixCommand ∨ i = .fixinEdge → (∃ f ∈ s.fixes, s.wall ≤ f.1 + 100) → exec i s = .next s)

/-- A tail write sets bits 31:0 of its queue; ERR is cleared by 1, and set by an overrun whatever the pool holds. Acceptance of a record
that passes R31, fits some rectangle and finds a pool entry takes the next arrival sequence and a pending entry with its record; read from a
queue it also moves the head on, writes tag and status, and a pass follows. A record that fails R31 leaves the dispatcher as it is, moves
the head on and writes tag and status. LAUNCH raises LAUNCH-DEPTH at depth 8, answers 1 for a bad pointer, and else stands unfinished with
its record pages translated and captured; refused, it gives rd the status, unless a result still to land there stands over it (R45);
accepted, it holds the arrival status for rd with the launch pending one level deeper, and a pass follows; without an entry LAUNCH.n gives 9
and LAUNCH.b stands with the record it has read. A LAUNCH.b that has waited 16 µs, in the program or in a handler, deschedules its group and
will start over, not before; that every core of the group then shows cause 0x81 is the model's reading (log entry 50). (R31, R93, R94, R95,
R96, R97, R102, R104, R105, R106, R107). -/
def Obligations.LaunchesAndQueues : Prop :=
  (∀ (p q : Nat) (v : Word) (s : State), q < 16 → ∃ t, exec (.lqtailWrite p q v) s = .next t ∧
    (t.part p).reg (0x40 * q + 0x18) = v &&& 0xFFFFFFFF#64 ∧ (t.part p).pending = (s.part p).pending ∧ t.cores = s.cores) ∧
  (∀ (p q : Nat) (s : State), q < 16 → ∃ t, exec (.lqcfgErrClear p q) s = .next t ∧
    (t.part p).reg (0x40 * q + 0x10) = (s.part p).reg (0x40 * q + 0x10) &&& ~~~0x40000000#64) ∧
  (∀ (p q : Nat) (s : State), let cfg := (s.part p).reg (0x40 * q + 0x10)
    q < 16 → cfg.getLsbD 31 = true → cfg.getLsbD 30 = false → (s.part p).overrun q = true →
    ∃ t, exec (.queueRecordRead p q) s = .next t ∧ ((t.part p).reg (0x40 * q + 0x10)).getLsbD 30 = true ∧ (t.part p).pending = (s.part p).pending) ∧
  (∀ (p q a : Nat) (r : Bytes) (leaf : Option Leaf) (s : State), let cfg := (s.part p).reg (0x40 * q + 0x10)
    let head := (s.part p).idx (0x40 * q + 0x20)
    let slot := head % 2 ^ (cfg.toNat / 2 ^ 12 % 16 + 4)
    q < 16 → cfg.getLsbD 31 = true → cfg.getLsbD 30 = false → head ≠ (s.part p).idx (0x40 * q + 0x18) →
    ((s.part p).poolFor 0).isSome = true → (s.part p).overrun q = false → s.copying = [] → s.readVa p (((s.part p).reg (0x40 * q)).toNat + 320 * slot) 320 = .ok r →
    s.mapVa p none (vaOf ((s.part p).reg (0x40 * q + 8)) + 16 * slot) true true = .ok { place := .hbm a, leaf := leaf } →
    ((s.part p).recStatus r ≠ 0 →
      ∃ t, exec (.queueRecordRead p q) s = .next t ∧ (t.part p).idx (0x40 * q + 0x20) = (head + 1) % 2 ^ 32 ∧
        (t.part p).pending = (s.part p).pending ∧ t.groups = s.groups ∧
        t.hbm = Memory.store s.hbm a (wordBytes (recTag r) ++ wordBytes (BitVec.ofNat 64 ((s.part p).recStatus r)))) ∧
    ((s.part p).recStatus r = 0 → (s.rects p (recField r 0x38 1) (recField r 0x39 1) (recField r 0x3A 1)).isEmpty = false →
      ∃ u : State, exec (.queueRecordRead p q) s = .next (u.pass p) ∧ (u.part p).idx (0x40 * q + 0x20) = (head + 1) % 2 ^ 32 ∧
        (∃ l, (u.part p).pending = (s.part p).pending ++ [l] ∧ l.record = r ∧ l.arrival = nextArrival (s.part p).arrivals ∧ l.depth = 0 ∧
          l.prio = min (recPrio r) ((s.part p).ceil q)) ∧ (u.part p).arrivals = nextArrival (s.part p).arrivals ∧ u.cores = s.cores ∧
        u.hbm = Memory.store s.hbm a (wordBytes (recTag r) ++ wordBytes (BitVec.ofNat 64 (nextArrival (s.part p).arrivals * 256))))) ∧
  (∀ (p depth prio pool : Nat) (r : Bytes) (ps : List Nat) (s : State), (s.part p).recStatus r = 0 →
    (s.rects p (recField r 0x38 1) (recField r 0x39 1) (recField r 0x3A 1)).isEmpty = false → (s.part p).poolFor depth = some pool →
    let a := nextArrival (s.part p).arrivals
    (s.accept p r depth prio ps).2 = .accepted a ∧ (∃ l, ((s.accept p r depth prio ps).1.part p).pending = (s.part p).pending ++ [l] ∧ l.record = r ∧
      l.arrival = a ∧ l.depth = depth ∧ l.prio = prio ∧ l.parents = ps ∧ l.tag = recTag r) ∧ ((s.accept p r depth prio ps).1.part p).arrivals = a ∧
    (depth = 0 → prio = recPrio r → ps = [] → s.attestOnly = false → exec (.firmwareLaunch p r) s = .next (State.pass
      { (s.accept p r depth prio ps).1 with reply := .status (BitVec.ofNat 64 (a * 256)) } p))) ∧
  (∀ (p : Nat) (r : Bytes) (s : State), (s.part p).recStatus r ≠ 0 → s.attestOnly = false →
    exec (.firmwareLaunch p r) s = .next { s with reply := .status (BitVec.ofNat 64 ((s.part p).recStatus r)) }) ∧
  (∀ (gd : BitVec 4) (rd s1 q : BitVec 5) (i : Instr) (g : Grp) (s : State), i = .launchB gd rd s1 q ∨ i = .launchN gd rd s1 q → s.guardC gd = true →
    s.regsOk [rd, s1] = .ok → s.grpAt s.ctx.core = some g →
    (g.depth = 8 → exec i s = .next (s.raise { cause := 0x1F })) ∧
    (g.depth ≠ 8 → (s.reg s1).toNat / 2 ^ 60 ≠ 0 ∨ (s.reg s1).toNat % 64 ≠ 0 → (∀ o ∈ s.me.aops, o.iseq ≠ s.ctx.iseq) →
      ∃ t o, exec i s = .next t ∧ t.me.aops = s.me.aops ++ [o] ∧ o.instr = i ∧ o.phase = .done ∧ o.value = 1#64) ∧
    (g.depth ≠ 8 → (s.reg s1).toNat < 2 ^ 48 → (s.reg s1).toNat % 64 = 0 → s.copying = [] →
      (∀ u cs, s.launchCapture s.ctx.core g.part (s.reg s1) = .ok (u, cs) → (∀ o ∈ s.me.aops, o.iseq ≠ s.ctx.iseq) →
        ∃ t o, exec i s = .next t ∧ t.me.aops = s.me.aops ++ [o] ∧ o.instr = i ∧ o.phase = .sync ∧ o.addr = s.reg s1 ∧ o.caps = cs ∧ o.begun = false ∧
          t.groups = s.groups) ∧
      (∀ k, s.launchCapture s.ctx.core g.part (s.reg s1) = .error k → exec i s = .next (s.raise k)))) ∧
  (∀ (n : Nat) (gd : BitVec 4) (rd s1 q : BitVec 5) (g : Grp) (r : Bytes) (s : State) (o : AOp), (s.core n).aops = [o] →
    o.instr = .launchB gd rd s1 q ∨ o.instr = .launchN gd rd s1 q → rd ≠ 0#5 → o.phase = .sync → s.opRuns n o.iseq = true →
    (s.core n).part.isSome = true → s.grpAt n = some g → s.launchHolds n o g r →
    let stands (v : Word) : Word :=
      if (s.core n).cycle < sget 0 rd.toNat (s.core n).a.due then sget 0#64 rd.toNat (s.core n).a.x else v
    (g.status ≠ .resuming → (s.part g.part).recStatus r ≠ 0 →
      ∃ t, exec (.aClassResult n o.iseq) s = .next t ∧ (t.core n).aops = [] ∧ t.groups = s.groups ∧
        sget 0#64 rd.toNat (t.core n).a.x = stands (BitVec.ofNat 64 ((s.part g.part).recStatus r))) ∧
    ((s.part g.part).recStatus r = 0 → (s.rects g.part (recField r 0x38 1) (recField r 0x39 1) (recField r 0x3A 1)).isEmpty = false →
      ((s.part g.part).poolFor (g.depth + 1)).isSome = true →
      ∃ (u : State) (x : AOp) (l : Launch), exec (.aClassResult n o.iseq) s = .next ((s.eased (u.pass g.part) n).writeRd n o.iseq) ∧
        (u.core n).aops = [x] ∧ x.instr = o.instr ∧ x.iseq = o.iseq ∧ x.phase = .done ∧
        x.value = BitVec.ofNat 64 (nextArrival (s.part g.part).arrivals * 256) ∧
        (u.part g.part).pending = (s.part g.part).pending ++ [l] ∧ l.record = r ∧ l.depth = g.depth + 1 ∧ l.parents = g.arrival :: g.parents) ∧
    (g.status ≠ .resuming → (s.part g.part).recStatus r = 0 →
      (s.rects g.part (recField r 0x38 1) (recField r 0x39 1) (recField r 0x3A 1)).isEmpty = false → (s.part g.part).poolFor (g.depth + 1) = none →
      (o.instr = .launchN gd rd s1 q → ∃ t, exec (.aClassResult n o.iseq) s = .next t ∧ sget 0#64 rd.toNat (t.core n).a.x = stands 9#64 ∧ (t.core n).aops = []) ∧
      (o.instr = .launchB gd rd s1 q → o.begun = true → exec (.aClassResult n o.iseq) s = .next s) ∧
      (o.instr = .launchB gd rd s1 q → o.begun = false → ∃ t, exec (.aClassResult n o.iseq) s = .next t ∧
        (t.core n).aops = [{ o with begun := true, bytes := r, value := BitVec.ofNat 64 s.wall }]))) ∧
  (∀ (n : Nat) (gd : BitVec 4) (rd s1 q : BitVec 5) (g : Grp) (s : State) (o : AOp), (s.core n).aops = [o] → o.instr = .launchB gd rd s1 q →
    o.phase = .sync → o.begun = true → s.grpAt n = some g → n ∈ g.cores → s.accessRuns n = true →
    (o.value.toNat + 16000 ≤ s.wall → ∃ t h, exec (.launchWaitTimeout n) s = .next t ∧ t.grp? g.num = some h ∧ h.status = .stopped ∧
      h.needsPool = some (g.depth + 1) ∧ h.queuedSince = s.wall ∧ (∀ m ∈ g.cores, (t.core m).cause = 0x81) ∧
      (t.core n).aops = [{ o with begun := false, bytes := [], value := 0#64, caps := [] }]) ∧
    (s.wall < o.value.toNat + 16000 → exec (.launchWaitTimeout n) s = .next s))

/-- Candidates stand by effective priority, then arrival. A pass gives each the first rectangle all of whose cores are free; without one it
holds its priority back, and after 100 µs it pre-empts and reserves the first rectangle it may clear. A launch so placed leaves the pool,
its group holds the rectangle, and each core has the state of R30 and R109. The pass timer and a change of effective priority start a pass,
the timer not before 100 µs. A stopped context goes to its handlers or, where R322 says so, to the supervisor, then a pass follows. The save
engine first wakes the WARM banks it is to write; an image that stands frees every core of the group. The supervisor stops a running group
with BREAKPOINT 0xFFFF and gets a saved context placed again, with its edits, only when its surveys are valid (log entry 42). Teardown of a
context without descendants completes it with End 0x82; teardown of a partition leaves none of its contexts and touches no other; a
completed context is gone and its cores are unowned. X_EXIT_CHECK with a held bank raises BANK-HELD-AT-EXIT, else the stream has exited; the
A-stream exits when nothing is unfinished; the second exit of the last core completes the group. A write of CRTAIL sets its bits 31:0, and a
record that waited for a free slot is written, none being lost while CRBASE is 0. (05_launching_and_placing.md, R30, R109, R322, R332, R334,
R340, R363, R364, R365, R366, R369). -/
def Obligations.DispatcherAndExits : Prop :=
  (∀ (p : Nat) (s : State), (s.candidates p).Pairwise fun a b => b.before a = false) ∧
  (∀ (p : Nat) (c : Cand) (r : Rect) (s : State), let v := s.retireCores p
    let u := (v.flushRecords p (v.part p).records.length).stampReady p
    u.candidates p = [c] → (u.candRects p c).find? (fun r => r.cores.all (u.coreFree p c.arrival)) = some r →
    s.pass p = (u.placeCand p c r).modPart p fun x => { x with lastPass := (u.placeCand p c r).wall }) ∧
  (∀ (p : Nat) (c : Cand) (rest : List Cand) (held : List Nat) (s : State),
    let free (r : Rect) : Bool := r.cores.all (s.coreFree p c.arrival)
    let clear (r : Rect) : Bool := r.cores.all (s.clearable p c)
    let on (t : State) : State := State.passLoop p rest (c.eff :: held) t
    (c.eff ∈ held → State.passLoop p (c :: rest) held s = State.passLoop p rest held s) ∧
    (c.eff ∉ held →
      (∀ r, (s.candRects p c).find? free = some r → State.passLoop p (c :: rest) held s = State.passLoop p rest held (s.placeCand p c r)) ∧
      ((∀ r ∈ s.candRects p c, clear r = false) → State.passLoop p (c :: rest) held s = on s) ∧
      ((∀ r ∈ s.candRects p c, free r = false) →
        (s.wall < c.since + 100000 → State.passLoop p (c :: rest) held s = on s) ∧
        (∀ r, (s.candRects p c).find? clear = some r → c.since + 100000 ≤ s.wall → (∀ e ∈ (s.part p).reserved, e.1 ≠ c.arrival) →
          ∃ u : State, State.passLoop p (c :: rest) held s = on u ∧ (c.arrival, r.cores) ∈ (u.part p).reserved ∧
            ∀ n ∈ r.cores, ∀ g, s.grpAt n = some g → g.status = .running → ∃ h, u.grp? g.num = some h ∧ h.status = .stopped)))) ∧
  (∀ (p : Nat) (l : Launch) (r : Rect) (o : Obj) (s : State), (s.part p).obj? l.obj = some o → r.cores.Nodup → (∀ g ∈ s.groups, g.num ≠ s.nextCtx) →
    let t := s.place p l r
    (∀ q ∈ (t.part p).pending, q.arrival ≠ l.arrival) ∧ (∀ n, n ∉ r.cores → t.core n = s.core n) ∧
    ∃ g : Grp, t.grp? s.nextCtx = some g ∧ g.num = s.nextCtx ∧ g.cores = r.cores ∧ g.part = p ∧ g.obj = l.obj ∧ g.arrival = l.arrival ∧ g.depth = l.depth ∧
      g.status = .running ∧ g.clock = false ∧
      ∀ n ∈ r.cores, let c := t.core n
        c.owner = s.nextCtx ∧ c.x.k.pc = o.base + BitVec.ofNat 64 ((o.sec 1).1 + recField l.record 8 4) ∧
        c.a.k.pc = o.base + BitVec.ofNat 64 ((o.sec 2).1 + recField l.record 0xC 4) ∧
        (∀ i, sget 0#64 i c.x.g = if i = 6 then recArg l.record else 0#64) ∧ (∀ i, sget 0#64 i c.a.x = if i = 31 then recArg l.record else 0#64) ∧
        (∀ i, sget 0#64 i c.x.win = 0#64) ∧ (∀ i, sget 0#64 i c.x.p = 0#64) ∧ (∀ i, sget 0#64 i c.x.k.lc = 0#64 ∧ sget 0#64 i c.a.k.lc = 0#64) ∧
        (∀ i, i < 16 → sget 0#64 i c.sys.mb = BitVec.ofNat 64 (recField l.record (0x80 + 8 * i) 8)) ∧
        (∀ i, i < recLevels l.record → sget 0#64 i c.sys.lvl = levelWord l.record i (coreX n - g.x0) (coreY n - g.y0) (coreDie n - g.d0)) ∧
        c.sys.gpos = gposWord g n ∧ c.sys.spmask = 0x80000000#32 ∧ c.q = [] ∧ c.tk = [] ∧ c.aops = [] ∧ c.cmds = [] ∧ c.ops = [] ∧ c.tick = 0 ∧
        (∀ a, (c.bank a).held = false) ∧ (∀ k, (c.slot k).claimed = false) ∧ (∀ k, sget ({} : Desc) k c.e.desc = {}) ∧
        (∀ a, 0x1F0000 ≤ a → a < 0x200000 → Memory.read c.sp a = 0#8)) ∧
  (∀ (p : Nat) (s : State), ((s.part p).lastPass + 100000 ≤ s.wall → exec (.dispatchPassTimer p) s = .next (s.pass p)) ∧
    (s.wall < (s.part p).lastPass + 100000 → exec (.dispatchPassTimer p) s = .next s)) ∧
  (∀ (p : Nat) (s : State), ((∃ c ∈ s.candidates p, s.agedSince p c = true) → exec (.priorityAging p) s = .next (s.pass p)) ∧
    ((∀ c ∈ s.candidates p, s.agedSince p c = false) → exec (.priorityAging p) s = .next s)) ∧
  (∀ (k : Nat) (g : Grp) (s : State), s.grp? k = some g →
    (g.status = .stopped → s.toSupervisor g = true → exec (.stopDelivery k) s = .next ((s.deliverSupervisor g .saving).pass g.part)) ∧
    (∀ e, g.status = .stopped → s.toSupervisor g = false → g.handler = some e → exec (.stopDelivery k) s = .next ((s.deliverHandlers g e).pass g.part)) ∧
    (g.status ≠ .stopped → exec (.stopDelivery k) s = .next s) ∧
    (g.status = .saving → (∀ n ∈ g.cores, (s.core n).mustWake = false) → ∃ (u : State) (h : Grp), exec (.saveImageComplete k) s = .next (u.pass g.part) ∧
      u.grp? k = some h ∧ h.images = g.cores.map (fun n => (n, s.savedCore n g.num g.unresumable)) ∧
      h.status = (if g.lastCause = 0x80 ∨ g.lastCause = 0x81 then .descheduled else .supervised) ∧ (∀ n ∈ g.cores, (u.core n).owner = 0)) ∧
    (g.status = .saving → (∃ n ∈ g.cores, (s.core n).mustWake = true) → ∃ t, exec (.saveImageComplete k) s = .next t ∧ t.groups = s.groups ∧
      ∀ n ∈ g.cores, ∀ b, b < 32 → (sget {} b (s.core n).banks).owner = (s.core n).owner → (sget {} b (s.core n).banks).live = true →
        (sget {} b (s.core n).banks).st = 1 → (sget {} b (t.core n).banks).st = 3) ∧
    (∀ n rest, g.status = .running → g.cores = n :: rest → exec (.supervisorStop k) s = .next (s.stop n { cause := 0x41, code := 0xFFFF })) ∧
    (∀ edits, g.status = .supervised →
      (g.unresumable = true ∨ (∀ im ∈ g.editedImages edits, im.2.saved = none → im.2.imageCheck.1 = 0) → ∃ (u : State) (h : Grp),
        exec (.supervisorPlace k edits) s = .next (u.pass g.part) ∧ u.grp? k = some h ∧ h.status = .replacing ∧
        h.images = (g.editedImages edits).map (fun im => (im.1, im.2.asked)) ∧
        h.queuedSince = s.wall ∧ u.cores = s.cores) ∧
      (g.unresumable = false → (∃ im ∈ g.editedImages edits, im.2.saved = none ∧ im.2.imageCheck.1 ≠ 0) →
        exec (.supervisorPlace k edits) s = .next s)) ∧
    (s.descendants g.part g.arrival = [] → s.groups.find? (fun h => h.part == g.part && h.arrival == g.arrival) = some g →
      exec (.teardownContext k) s = .next ((s.complete g 0 0x82 g.lastCause).pass g.part))) ∧
  (∀ (p : Nat) (s : State), (s.groups.map (·.num)).Nodup → (s.groups.map fun g => (g.part, g.arrival)).Nodup →
    ∃ u : State, exec (.teardownPartition p) s = .next (u.pass p) ∧ (∀ g ∈ u.groups, g.part ≠ p) ∧ (∀ g ∈ s.groups, g.part ≠ p → g ∈ u.groups)) ∧
  (∀ (g : Grp) (code fin cause : Nat) (s : State), (s.complete g code fin cause).grp? g.num = none ∧
    ∀ n ∈ g.cores, (s.core n).owner = g.num → ((s.complete g code fin cause).core n).owner = 0) ∧
  (∀ (n : Nat) (g : Grp) (s : State), s.grpAt n = some g → g.status = .running → (s.core n).x.k.exiting = true → (s.core n).x.k.exited = false →
    (s.core n).ops = [] →
    ((∃ a, a < 64 ∧ ((s.core n).bank a).held = true) → exec (.xExitCheck n) s = .next (s.stop n { cause := 0x0F })) ∧
    ((∀ a, a < 64 → ((s.core n).bank a).held = false) → (s.core n).a.k.exited = false →
      exec (.xExitCheck n) s = .next (s.modCore n fun c => { c with x := { c.x with k := { c.x.k with exited := true } } }))) ∧
  (∀ (n : Nat) (g : Grp) (s : State), s.grpAt n = some g → g.status = .running → (s.core n).a.k.exiting = true → (s.core n).a.k.exited = false →
    (s.core n).aops = [] → (s.core n).cmds = [] → (s.core n).saved = none →
    ((s.core n).x.k.exited = false →
      exec (.aStreamExitComplete n) s = .next (s.modCore n fun c => { c with a := { c.a with k := { c.a.k with exited := true } } })) ∧
    ((s.core n).x.k.exited = true → (s.core n).finished = false → g.cores = [n] →
      ∃ u : State, exec (.aStreamExitComplete n) s = .next ((u.complete g 0 0 g.lastCause).pass g.part) ∧
        (u.core n).finished = true ∧ (u.core n).q = [] ∧ (u.core n).sys.spmask = 0#32)) ∧
  (∀ (p : Nat) (v : Word) (s : State), (∃ t, exec (.crtailWrite p v) s = .next t ∧ (t.part p).reg 0x718 = v &&& 0xFFFFFFFF#64 ∧
      t.cores = s.cores ∧ t.groups = s.groups) ∧
    ((s.part p).records = [] → exec (.crtailWrite p v) s = .next (s.modPart p fun x => x.setReg 0x718 (v &&& 0xFFFFFFFF#64))) ∧
    ((s.part p).reg 0x700 = 0#64 → ∃ t, exec (.crtailWrite p v) s = .next t ∧ (t.part p).records = (s.part p).records) ∧
    (∀ r a, (s.part p).records = [r] → (s.part p).reg 0x700 ≠ 0#64 → s.copying = [] →
      State.ringSlot (s.modPart p fun x => x.setReg 0x718 (v &&& 0xFFFFFFFF#64)) p = some a →
      ∃ t, exec (.crtailWrite p v) s = .next t ∧ (t.part p).records = [] ∧ t.hbm = Memory.store s.hbm a r))

/-- A LOAD whose object passes every check adds it with the next id and answers 0, and one that fails answers the code and maps nothing.
UNLOAD answers 1 for an unknown id, unmaps an object with residency 0, and defers another with status 8; a deferred one unmaps when its
residency is 0, not before. UNLOAD.F refuses a linked object with 9 and otherwise leaves no object of that id. PATCH of a declared slot with
the class kept writes the new syllable. Each moves the head on by one. Without an entry nothing happens. A tail write sets bits 31:0. Status
1 for an UNLOAD or UNLOAD.F of an unknown id is the model's reading (log entry 61), as is the effect of UNLOAD.F on what waits (log entry
62). (R18, R20, R21, R23, R24, R25, R26, R403). -/
def Obligations.CodeService : Prop :=
  (∀ (p : Nat) (pl : Placement) (s : State), (s.part p).csEntry = none → exec (.load p pl) s = .next s ∧ exec (.unload p) s = .next s ∧
    exec (.patch p) s = .next s ∧ exec (.unloadF p) s = .next (s.pass p)) ∧
  (∀ (p va : Nat) (pl : Placement) (e d : Bytes) (s : State), (s.part p).csEntry = some va → s.copying = [] → s.readVa p (va % 2 ^ 48) 64 = .ok e → recField e 0 1 = 1 →
    s.readVa p (recField e 8 8 % 2 ^ 48) (recField e 0x10 8) = .ok d → recField e 8 8 / 2 ^ 48 = 0 →
    (∀ o parts, (s.part p).loadObject d pl = .ok (o, parts) → ∃ t, exec (.load p pl) s = .next t ∧ (t.part p).objs = (s.part p).objs ++ [o] ∧
      t.reply = .status 0#64 ∧ (t.part p).idx 0x910 = ((s.part p).idx 0x910 + 1) % 2 ^ 32 ∧ t.groups = s.groups) ∧
    (∀ k, (s.part p).loadObject d pl = .error k → ∃ t, exec (.load p pl) s = .next t ∧ (t.part p).objs = (s.part p).objs ∧
      t.reply = .status (BitVec.ofNat 64 k) ∧ (t.part p).idx 0x910 = ((s.part p).idx 0x910 + 1) % 2 ^ 32)) ∧
  (∀ (p va : Nat) (e : Bytes) (s : State), (s.part p).csEntry = some va → s.copying = [] → s.readVa p (va % 2 ^ 48) 64 = .ok e → recField e 0 1 = 2 →
    ((s.part p).obj? (recField e 8 8) = none → exec (.unload p) s = .next (s.csDone p va 1 none)) ∧
    (∀ o, (s.part p).obj? (recField e 8 8) = some o → s.residency p o = 0 → ∃ t, exec (.unload p) s = .next t ∧
      (t.part p).objs = (s.part p).objs.filter (fun q => q.id != o.id) ∧ t.reply = .status 0#64) ∧
    (∀ o, (s.part p).obj? (recField e 8 8) = some o → s.residency p o ≠ 0 → ∃ t q, exec (.unload p) s = .next t ∧
      (t.part p).obj? (recField e 8 8) = some q ∧ q = { o with deferred := true } ∧ t.reply = .status 8#64)) ∧
  (∀ (p id : Nat) (o : Obj) (s : State), (s.part p).obj? id = some o →
    (o.deferred = true → s.residency p o = 0 → exec (.deferredUnmap p id) s = .next (s.unmap p id) ∧
      ((s.unmap p id).part p).objs = (s.part p).objs.filter fun q => q.id != id) ∧
    (o.deferred = false ∨ s.residency p o ≠ 0 → exec (.deferredUnmap p id) s = .next s)) ∧
  (∀ (p va : Nat) (e : Bytes) (s : State), (s.part p).csEntry = some va → s.copying = [] → s.readVa p (va % 2 ^ 48) 64 = .ok e → recField e 0 1 = 3 →
    ((s.part p).obj? (recField e 8 8) = none → exec (.unloadF p) s = .next ((s.csDone p va 1 none).pass p)) ∧
    (∀ o, (s.part p).obj? (recField e 8 8) = some o → (∃ q ∈ (s.part p).objs, q.id ≠ o.id ∧ o.id ∈ q.links) →
      exec (.unloadF p) s = .next ((s.csDone p va 9 none).pass p)) ∧
    (∀ o, (s.part p).obj? (recField e 8 8) = some o → (∀ q ∈ (s.part p).objs, q.id ≠ o.id → o.id ∉ q.links) →
      ∃ u : State, exec (.unloadF p) s = .next (u.pass p) ∧ (∀ q ∈ (u.part p).objs, q.id ≠ o.id) ∧ u.reply = .status 0#64)) ∧
  (∀ (p va a : Nat) (e : Bytes) (o : Obj) (s : State), (s.part p).csEntry = some va → s.copying = [] → s.readVa p (va % 2 ^ 48) 64 = .ok e → recField e 0 1 = 4 →
    (s.part p).obj? (recField e 8 8) = some o → o.slotAt (recField e 0x10 8) = some a →
    (recField e 0x18 8 / 2 ^ 60 = Memory.le s.hbm a 8 / 2 ^ 60 → o.deferred = false →
      exec (.patch p) s = .next (State.csDone { s with hbm := Memory.store s.hbm a (leBytes 8 (recField e 0x18 8)) } p va 0 none)) ∧
    (recField e 0x18 8 / 2 ^ 60 ≠ Memory.le s.hbm a 8 / 2 ^ 60 → exec (.patch p) s = .next (s.csDone p va 11 none))) ∧
  (∀ (p : Nat) (v : Word) (s : State), exec (.cstailWrite p v) s = .next (s.modPart p fun x => x.setReg 0x908 (v &&& 0xFFFFFFFF#64)))

/-- A legal REFSET posts a request; the change comes only when every group has passed a contour and every rail allows it, and, by the
model's reading of R380 (log entry 110), not while a trip holds the clock. Excess current stretches until it ends; 100 µs of stretching post
the highest fitting fuse point below REFCUR. A trip holds the clock until recovery. PCHB records the heartbeat and ends autopilot when
UPDATE is 0, and with every management core halted nothing writes it (R398); UPDATE or 2 ms without a heartbeat enters it. A legal vote is
taken outside autopilot. A rail starts to fall only under R376's conditions a moving one stands, by a free value of the model (log entry
64), no further than its highest rate allows, and its move ends once it stands at its target, no sooner than that rate allows. (R373, R374,
R376, R377, R378, R379, R380, R381). -/
def Obligations.PowerController : Prop :=
  (∀ (v : Word) (s : State), (s.power.auto = false → 800 ≤ v.toNat % 4096 → v.toNat % 4096 ≤ 2700 → ∃ t, exec (.refsetWrite v) s = .next t ∧
      t.power.refset = v.toNat % 4096 ∧ t.power.pend = some (v.toNat % 4096) ∧ t.power.refcur = s.power.refcur ∧ t.cores = s.cores) ∧
    (s.power.auto = true ∨ v.toNat % 4096 < 800 ∨ 2700 < v.toNat % 4096 → exec (.refsetWrite v) s = .next s)) ∧
  (∀ (f : Nat) (s : State), s.power.pend = some f →
    (s.power.therm = false → (∀ g ∈ s.groups, s.groupPassed g = true) → (∀ r, r < 8 → vmin f ≤ s.railMv r) →
      ∃ t, exec .referenceFrequencyChange s = .next t ∧ t.power.refcur = f ∧ t.power.pend = none ∧ t.cores = s.cores) ∧
    (s.power.therm = true ∨ (∃ g ∈ s.groups, s.groupPassed g = false) ∨ (∃ r, r < 8 ∧ s.railMv r < vmin f) → exec .referenceFrequencyChange s = .next s)) ∧
  (∀ (s : State), (s.power.stretch = false → exec .currentExcess s = .next { s with power := { s.power with stretch := true, stretchSince := s.wall } }) ∧
    exec .currentExcessEnd s = .next { s with power := { s.power with stretch := false } } ∧
    (s.power.stretch = true → s.power.stretchSince + 100000 ≤ s.wall →
      ∃ t, exec .stretchTimeout s = .next t ∧ t.power.refset = s.power.refset ∧ t.cores = s.cores ∧
        t.power.pend = (match ((List.range 8).map fun i => fuseMhz (7 - i)).find? (fun f => decide (f < s.power.refcur) && Config.fits f s.power.plimit) with
          | some f => some f
          | none => s.power.pend)) ∧
    (s.power.stretch = false ∨ s.wall < s.power.stretchSince + 100000 → exec .stretchTimeout s = .next s)) ∧
  (∀ (d : Nat) (s : State), (∃ t, exec (.thermalTrip d) s = .next t ∧ t.power.therm = true ∧ d ∈ t.power.hot ∧ t.cores = s.cores ∧ t.groups = s.groups) ∧
    (s.power.therm = true → ∃ t, exec .thermalRecovery s = .next t ∧ t.power.therm = false ∧ t.power.hot = [] ∧ t.cores = s.cores) ∧
    (s.power.therm = false → exec .thermalRecovery s = .next s)) ∧
  (∀ (v : Word) (s : State), (s.silent = true → exec (.pchbWrite v) s = .next s) ∧
    (s.silent = false → s.power.auto = false ∨ s.power.update = true → exec (.pchbWrite v) s = .next { s with power := { s.power with beat := s.wall } }) ∧
    (s.silent = false → s.power.auto = true → s.power.update = false → ∃ t, exec (.pchbWrite v) s = .next t ∧ t.power.auto = false ∧ t.power.beat = s.wall) ∧
    (v.getLsbD 3 = true → ∃ t, exec (.pwstatUpdateWrite v) s = .next t ∧ t.power.auto = true ∧ t.power.update = true) ∧
    (v.getLsbD 3 = false → exec (.pwstatUpdateWrite v) s = .next { s with power := { s.power with update := false } }) ∧
    (s.power.beat + 2000000 ≤ s.wall → ∃ t, exec .heartbeatTimeout s = .next t ∧ t.power.auto = true) ∧
    (s.wall < s.power.beat + 2000000 → exec .heartbeatTimeout s = .next s)) ∧
  (∀ (p : Nat) (v : Word) (s : State), let w := v.toNat % 1024
    (s.power.auto = false → w = 0 ∨ (600 ≤ w ∧ w ≤ 950) → ∃ t, exec (.vvoteWrite p v) s = .next t ∧ (t.part p).vote = w) ∧
    (s.power.auto = true ∨ (w ≠ 0 ∧ (w < 600 ∨ 950 < w)) → exec (.vvoteWrite p v) s = .next s)) ∧
  (∀ (r : Nat) (s : State), (r < 8 → s.power.auto = false → sget none r s.power.moves = none → s.power.target r < s.power.mv r → s.mayFall r = true →
      ∃ t, exec (.railFallStart r) s = .next t ∧ sget none r t.power.moves = some (s.wall, false) ∧ t.power.mv r = s.power.mv r) ∧
    (s.power.auto = true ∨ s.power.mv r ≤ s.power.target r ∨ s.mayFall r = false → exec (.railFallStart r) s = .next s)) ∧
  (∀ (r t0 : Nat) (up : Bool) (s : State), sget none r s.power.moves = some (t0, up) →
    let span := if up then 100 * (s.power.target r - s.power.mv r) else 250 * (s.power.mv r - s.power.target r)
    (s.railMv r = s.power.target r → ∃ t, exec (.railAtTarget r) s = .next t ∧ t.power.mv r = s.power.target r ∧ sget none r t.power.moves = none) ∧
    (s.railMv r ≠ s.power.target r → exec (.railAtTarget r) s = .next s) ∧
    (t0 ≤ s.wall → s.wall < t0 + span → exec (.railAtTarget r) s = .next s) ∧
    (up = true → s.power.mv r ≤ s.railMv r ∧ s.railMv r ≤ s.power.mv r + (s.wall - t0) / 100) ∧
    (up = false → s.railMv r ≤ s.power.mv r ∧ s.power.mv r ≤ s.railMv r + (s.wall - t0) / 250))

/-- A write of QREQ sets REQ and EVICT, and one that clears REQ is ignored while the clocks are stopped; EVICT with REQ pre-empts the groups
on it. RETSAVE is refused with ERR unless the cluster is quiet, the address a multiple of 4,096 and nothing runs, and on a restore the rail
on and the image good; DONE follows, a save's image standing in memory among those that a restore may read, a restore taking the 4 KiB it
finds, at the address that was accepted and not while its channel is being copied (R400). GATE is set only after a save of a quiet cluster,
STAT follows it; OFF := 1 takes effect whenever the clocks are stopped, whatever STATE is, and never else; on again a cluster comes back
with its cores blank. WAKE.SET is for a management core or a client of the cluster; WAKEACK counts, with PEND or without (log entry 85).
(R384, R385, R386, R387, R388). -/
def Obligations.ClusterParking : Prop :=
  (∀ (k : Nat) (v : Word) (s : State), k < 24 →
    let t := s.setCluster k { s.cluster k with req := v.getLsbD 0, evict := v.getLsbD 1 }
    ((s.cluster k).stat = true → v.getLsbD 0 = false → exec (.qreqReq k v) s = .next s) ∧
    ((s.cluster k).stat = false ∨ v.getLsbD 0 = true →
      exec (.qreqReq k v) s = .next (if v.getLsbD 0 = true ∧ v.getLsbD 1 = true then t.evict k else t))) ∧
  (∀ (k : Nat) (s : State), k < 24 →
    ((s.cluster k).req = true → exec (.qreqEvict k) s = .next ((s.setCluster k { s.cluster k with evict := true }).evict k)) ∧
    ((s.cluster k).req = false → exec (.qreqEvict k) s = .next (s.setCluster k { s.cluster k with evict := true }))) ∧
  (∀ (k : Nat) (v : Word) (s : State), k < 24 → let a := v.toNat % 2 ^ 39
    (s.qack k = true → a % 4096 = 0 → (s.cluster k).busy = false →
      exec (.retsaveSave k v) s = .next (s.setCluster k { s.cluster k with dir := false, addr := a, work := a, done := false, err := false, busy := true, saving := true }) ∧
      ((s.cluster k).rail = 0 → s.imageOk k a = true →
        exec (.retsaveRestore k v) s = .next (s.setCluster k { s.cluster k with dir := true, addr := a, work := a, done := false, err := false, busy := true, saving := false })) ∧
      ((s.cluster k).rail ≠ 0 ∨ s.imageOk k a = false → exec (.retsaveRestore k v) s = .next (s.setCluster k { s.cluster k with err := true }))) ∧
    (s.qack k = false ∨ a % 4096 ≠ 0 ∨ (s.cluster k).busy = true →
      exec (.retsaveSave k v) s = .next (s.setCluster k { s.cluster k with err := true }) ∧
      exec (.retsaveRestore k v) s = .next (s.setCluster k { s.cluster k with err := true }))) ∧
  (∀ (k : Nat) (s : State),
    ((s.cluster k).busy = true → s.copied (.hbm (s.cluster k).work) 4096 = false → ∃ t, exec (.retsaveDone k) s = .next t ∧ (t.cluster k).done = true ∧ (t.cluster k).busy = false ∧
      ((s.cluster k).saving = true → t.hbm = Memory.store s.hbm (s.cluster k).work (s.retentionImage k) ∧
        (t.cluster k).saves = s.retentionImage k :: (s.cluster k).saves ∧ (t.cluster k).ret = (s.cluster k).ret) ∧
      ((s.cluster k).saving = false → t.hbm = s.hbm ∧ (t.cluster k).ret = some (Memory.bytes s.hbm (s.cluster k).work 4096))) ∧
    ((s.cluster k).busy = false ∨ s.copied (.hbm (s.cluster k).work) 4096 = true → exec (.retsaveDone k) s = .next s)) ∧
  (∀ (k : Nat) (s : State),
    (s.qack k = true → (s.cluster k).saving = true → (s.cluster k).done = true → exec (.clkgateSet k) s = .next (s.setCluster k { s.cluster k with gate := true })) ∧
    (s.qack k = false ∨ (s.cluster k).saving = false ∨ (s.cluster k).done = false → exec (.clkgateSet k) s = .next s) ∧
    ((s.cluster k).rail = 0 → exec (.clkgateClear k) s = .next (s.setCluster k { s.cluster k with gate := false })) ∧
    ((s.cluster k).rail ≠ 0 → exec (.clkgateClear k) s = .next s) ∧
    (∃ t, exec (.clockGateComplete k) s = .next t ∧ (t.cluster k).stat = (s.cluster k).gate ∧ t.cores = s.cores) ∧
    ((s.cluster k).stat = true → (s.cluster k).rail ≠ 2 → exec (.railgateOff k) s = .next (s.setCluster k { s.cluster k with off := true, rail := 1 })) ∧
    ((s.cluster k).stat = true → (s.cluster k).rail = 2 → exec (.railgateOff k) s = .next (s.setCluster k { s.cluster k with off := true })) ∧
    ((s.cluster k).stat = false → exec (.railgateOff k) s = .next s) ∧
    ((s.cluster k).rail = 2 → ∃ t, exec (.railgateOn k) s = .next t ∧ (t.cluster k).rail = 3 ∧ (t.cluster k).off = false) ∧
    ((s.cluster k).rail ≠ 2 → exec (.railgateOn k) s = .next s) ∧
    ((s.cluster k).rail = 1 → ∃ t, exec (.railSwitchComplete k) s = .next t ∧ (t.cluster k).rail = 2 ∧ ∀ c, c / 8 = k → (t.core c).sp = [] ∧ (t.core c).x = {}) ∧
    ((s.cluster k).rail = 3 → ∃ t, exec (.railSwitchComplete k) s = .next t ∧ (t.cluster k).rail = 0 ∧ ∀ c, c / 8 = k → (t.core c).sp = [] ∧ (t.core c).x = {})) ∧
  (∀ (k : Nat) (who : ClientId) (s : State), k < 24 →
    ((∃ m, who = .mgmt m) ∨ (∃ p c, who = .client p ∧ c ∈ (s.part p).cores ∧ c / 8 = k) →
      exec (.wakeSet k who) s = .next (s.setCluster k { s.cluster k with wake := true })) ∧
    (∀ p, who = .client p → (∀ c ∈ (s.part p).cores, c / 8 ≠ k) → exec (.wakeSet k who) s = .next s) ∧
    exec (.wakeackAck k) s = .next (s.setCluster k { s.cluster k with wake := false, count := ((s.cluster k).count + 1) % 65536 }))

/-- A package reset with an accepted stage-1 image leaves every core as at reset, M the digest of 48 zero bytes and the image's digest, one
log entry and management core 0 at the entry; a refused one sets HEALTH. A later stage in its order extends M and the log and answers 0, or
answers 1 and leaves both. ATTGO through a bad pointer changes nothing, and otherwise sets or clears ATTSTAT; a second one while the bit is
clear is ignored. MCCTL, written by a running management core that it does not name, restarts the cores that it names. A retired channel
begins its copy while spares are left and stands remapped at its end, when what the device had to write to it meanwhile is written. An
unowned retired core is replaced by a spare or marked failed; an owned one has its group pre-empted, and nothing is placed on it meanwhile.
Model's readings: that a reset keeps HBM and places the image at its base (log entry 69), the order of the stages (log entry 111), ATTGO
through an unwritable page and the bit that one has been asked for (log entry 70), MCCTL of a core that never ran (log entry 74), a busy
core's retirement (log entry 109). (R394, R395, R396, R397, R398, R400, R401). -/
def Obligations.BootAndHealth : Prop :=
  (∀ (g : StageImage) (s : State), g.stage = 1 →
    let d := ({ s with copying := [], delayed := [] } : State).storeDelayed s.delayed
    ∃ t, exec (.packageReset g) s = .next t ∧ t.cores = [] ∧ t.groups = [] ∧ t.parts = [] ∧ t.power = {} ∧
      (if State.reset.stageOk g then t.balore.m = sha384 (List.replicate 48 0#8 ++ sha384 g.image) ∧ t.balore.log = [(1, sha384 g.image)] ∧
        (t.mcore 0).halted = false ∧ (t.mcore 0).a.k.pc = BitVec.ofNat 64 (3 * 2 ^ 60 + g.entry) ∧ t.hbm = Memory.store d.hbm g.base g.image
      else t.balore.health.getLsbD 48 = true ∧ t.balore.log = [] ∧ (∀ n, (t.mcore n).halted = true) ∧ t.hbm = d.hbm) ∧ (s.delayed = [] → d.hbm = s.hbm)) ∧
  (∀ (g : StageImage) (s : State), (s.stageDue g = false → exec (.stageLoad g) s = .next s) ∧
    (s.stageDue g = true → ∃ t, exec (.stageLoad g) s = .next t ∧ t.cores = s.cores ∧
      (if s.stageOk g then t.balore.m = sha384 (s.balore.m ++ sha384 g.image) ∧ t.balore.log = s.balore.log ++ [(g.stage, sha384 g.image)] ∧
        t.reply = .status 0#64
      else t.balore.m = s.balore.m ∧ t.balore.log = s.balore.log ∧ t.balore.health.getLsbD 48 = true ∧ t.hbm = s.hbm ∧ t.reply = .status 1#64))) ∧
  (∀ (p : Nat) (v : Word) (s : State), (v.toNat / 2 ^ 48 ≠ 0 ∨ v.toNat % 64 ≠ 0 → exec (.attgoWrite p v) s = .next s) ∧
    ((s.part p).reg 0x870 ≠ 0#64 → ((s.part p).reg 0x878).getLsbD 0 = false → exec (.attgoWrite p v) s = .next s) ∧
    (v.toNat < 2 ^ 48 → v.toNat % 64 = 0 → (s.part p).reg 0x870 = 0#64 ∨ ((s.part p).reg 0x878).getLsbD 0 = true → s.copying = [] →
      let q := s.quote ((List.range 6).flatMap fun i => wordBytes ((s.part p).reg (0x840 + 8 * i)))
      ∃ t, exec (.attgoWrite p v) s = .next t ∧ t.cores = (match s.places p v.toNat q.length true with
          | some l => (s.writePlaces l q).cores
          | none => s.cores) ∧
        t.hbm = (match s.places p v.toNat q.length true with
          | some l => (s.writePlaces l q).hbm
          | none => s.hbm) ∧
        (t.part p).reg 0x878 = (if (s.places p v.toNat q.length true).isSome then 1#64 else 0#64))) ∧
  (∀ (w : Nat) (v : Word) (g : StageImage) (s : State), (4 ≤ w ∨ (s.mcore w).halted = true ∨ v.getLsbD w = true → exec (.mcctlRestart w v) s = .next s) ∧
    (s.balore.stage1 = some g → w < 4 → (s.mcore w).halted = false → v.getLsbD w = false → ∃ t, exec (.mcctlRestart w v) s = .next t ∧ t.cores = s.cores ∧
      ∀ n, n < 4 → (v.getLsbD n = true → (t.mcore n).halted = false ∧ (t.mcore n).a.k.pc = BitVec.ofNat 64 (3 * 2 ^ 60 + g.entry)) ∧
        (v.getLsbD n = false → t.mcore n = s.mcore n))) ∧
  (∀ (c : Nat) (s : State),
    (c ∉ s.copying → ((s.remapped ++ s.copying).filter fun d => Config.stackOf d == Config.stackOf c).length < 2 →
      ∃ t, exec (.channelRetire c) s = .next t ∧ t.copying = s.copying ++ [c] ∧ t.balore.health.getLsbD 63 = true ∧ t.hbm = s.hbm) ∧
    (c ∉ s.copying → 2 ≤ ((s.remapped ++ s.copying).filter fun d => Config.stackOf d == Config.stackOf c).length →
      ∃ t, exec (.channelRetire c) s = .next t ∧ c ∈ t.dead ∧ t.balore.health.getLsbD 63 = true) ∧
    (c ∈ s.copying → exec (.channelCopyComplete c) s =
      .next (({ s with copying := s.copying.filter (· != c), remapped := s.remapped ++ [c], delayed := [] } : State).storeDelayed s.delayed)) ∧
    (c ∉ s.copying → exec (.channelCopyComplete c) s = .next s)) ∧
  (∀ (n : Nat) (s : State), n < 192 →
    let used := s.balore.health.toNat / 2 ^ (if n / 96 = 0 then 24 else 28) % 16
    ((s.core n).owner = 0 → used < 4 → ∃ t, exec (.coreRetire n) s = .next t ∧ (t.core n).spared = true ∧ (t.core n).failed = false ∧
      t.balore.health.getLsbD 63 = true) ∧
    ((s.core n).owner = 0 → 4 ≤ used → (s.core n).failed = false → ∃ t, exec (.coreRetire n) s = .next t ∧ (t.core n).failed = true) ∧
    ((s.core n).owner = 0 → 4 ≤ used → (s.core n).failed = true → exec (.coreRetire n) s = .next s) ∧
    (∀ g, (s.core n).owner ≠ 0 → s.grpAt n = some g →
      exec (.coreRetire n) s = .next ((s.modCore n fun c => { c with retiring := true }).preempt g.num)) ∧
    (∀ p a, (s.core n).retiring = true → s.coreFree p a n = false))

/-- A write of the firmware to a partition window changes the writable bits of its register, as plainMask lists them, or does what the
register's own event does, or, at a read-only, reserved or unaligned offset, nothing; so for the package registers of the power controller.
A peer's access inside the window is counted and watched, then a read answers the bytes, a write leaves exactly its bytes, an atomic leaves
the new value and answers the old one, an AWAIT answers once its condition holds; one past the window is answered with a NAK. A lost node is
remembered; a core whose accesses do not aim at it goes on, and one whose walking access does raises MEMORY-UNCORRECTED, a prefetch
excepted. An RoCEv2 write or read of space-0 pages that allow it moves the bytes, others are answered with a NAK; a part whose stage 1 was
refused answers neither outside the attestation registers. A configuration that keeps R91 gives the partition its cores and takes the others
away; another is refused. Model's readings: no answer of such a part (log entry 71), a lost node stays lost (72), a configuration is refused
whole (75), peer accesses are counted page by page and watched (86). (R7, R91, R92, R254, R258, R292, R341, R344, R367, R373, R399, R402).
-/
def Obligations.RegistersPeersAndPartitions : Prop :=
  (∀ (p off : Nat) (v : Word) (s : State),
    (noWrite off = true → exec (.registerWrite (.part p off) v) s = .next s) ∧
    (∀ m, plainMask off = some m → exec (.registerWrite (.part p off) v) s = .next (s.modPart p fun x => x.setReg off (v &&& m))) ∧
    (∀ q, q < 16 → exec (.registerWrite (.part p (0x40 * q + 0x18)) v) s = exec (.lqtailWrite p q v) s) ∧
    (∀ n, n < 8 → exec (.registerWrite (.part p (0x588 + 16 * n)) v) s = exec (.watchpointArm p n v) s) ∧
    (∀ k, k < 3 → exec (.registerWrite (.part p (0x648 + 8 * k)) v) s = .next (s.modPart p fun x => x.setReg (0x648 + 8 * k) (v &&& x.owned k))) ∧
    exec (.registerWrite (.part p 0x420) v) s = exec (.qpushWrite p v) s ∧ exec (.registerWrite (.part p 0x718) v) s = exec (.crtailWrite p v) s ∧
    exec (.registerWrite (.part p 0x800) v) s = exec (.vvoteWrite p v) s ∧ exec (.registerWrite (.part p 0x870) v) s = exec (.attgoWrite p v) s ∧
    exec (.registerWrite (.part p 0x908) v) s = exec (.cstailWrite p v) s ∧
    ((∃ g ∈ s.groups, g.part = p ∧ g.images = []) → exec (.registerWrite (.part p 0x408) v) s = .next s) ∧
    ((∀ g ∈ s.groups, g.part = p → g.images ≠ []) →
      exec (.registerWrite (.part p 0x408) v) s = .next (s.modPart p fun x => x.setReg 0x408 (v &&& 1#64))) ∧
    (v.toNat % 32 ≤ 16 → exec (.registerWrite (.part p 0x628) v) s = .next (s.modPart p fun x => x.setReg 0x628 (v &&& 0x800000000000001F#64))) ∧
    (v.toNat % 16 ≤ 8 → exec (.registerWrite (.part p 0x708) v) s = .next (s.modPart p fun x => x.setReg 0x708 (v &&& 0xF#64))) ∧
    (8 < v.toNat % 16 → exec (.registerWrite (.part p 0x708) v) s = .next s)) ∧
  (∀ (o : Nat) (v : Word) (s : State),
    exec (.registerWrite (.power 0x21000) v) s = exec (.refsetWrite v) s ∧ exec (.registerWrite (.power 0x21018) v) s = exec (.pwstatUpdateWrite v) s ∧
    exec (.registerWrite (.power 0x21020) v) s = exec (.pchbWrite v) s ∧
    (s.power.auto = false → 900 ≤ v.toNat % 2048 → v.toNat % 2048 ≤ 1800 →
      exec (.registerWrite (.power 0x21010) v) s = .next { s with power := { s.power with plimit := v.toNat % 2048 } }) ∧
    (s.power.auto = true ∨ v.toNat % 2048 < 900 ∨ 1800 < v.toNat % 2048 → exec (.registerWrite (.power 0x21010) v) s = .next s) ∧
    (0x21000 ≤ o → o ∉ [0x21000, 0x21010, 0x21018, 0x21020] → exec (.registerWrite (.power o) v) s = .next s) ∧
    exec (.registerWrite (.balore 0x10) v) s = .next s ∧ exec (.registerWrite (.balore 0x10000) v) s = .next { s with balore := { s.balore with pcbase := v &&& 0x7FF8000001#64 } }) ∧
  (∀ (x : PeerAccess) (s : State), s.balore.pcbase.getLsbD 0 = false → (s.part x.part).armed = [] → s.attestOnly = false →
    let a := (s.part x.part).windowBase + x.off
    let size := (s.part x.part).windowSize
    (∀ n, x.op = .read n → s.copied (.hbm a) n = false → x.off + n ≤ size → s.readBad (.hbm a) n = false →
      ∃ t, exec (.peerAccessArrival x) s = .next t ∧ t.reply = .data (Memory.bytes s.hbm a n) ∧ t.hbm = s.hbm ∧ t.cores = s.cores ∧ t.parts = s.parts) ∧
    (∀ d, x.op = .write d → s.copied (.hbm a) d.length = false → x.off + d.length ≤ size →
      ∃ t, exec (.peerAccessArrival x) s = .next t ∧ t.hbm = Memory.store s.hbm a d ∧ t.reply = .ack ∧ t.cores = s.cores) ∧
    (∀ op sz v w, x.op = .atomic op sz v w → s.copied (.hbm a) (2 ^ sz) = false → x.off + 2 ^ sz ≤ size → s.readBad (.hbm a) (2 ^ sz) = false →
      ∃ t, exec (.peerAccessArrival x) s = .next t ∧ t.cores = s.cores ∧
        t.hbm = (match atomicNew (atomicOf op) (8 * 2 ^ sz) (BitVec.ofNat 64 (Memory.le s.hbm a (2 ^ sz))) v w with
          | some r => Memory.store s.hbm a (leBytes (2 ^ sz) r.toNat)
          | none => s.hbm))) ∧
  (∀ (x : PeerAccess) (s : State), s.attestOnly = false → s.copied (.hbm ((s.part x.part).windowBase + x.off)) (peerSize x.op) = false →
    let a := (s.part x.part).windowBase + x.off
    let n := peerSize x.op
    let u (k : WatchKind) : State := s.arrivedAll x.part x.node (s.part x.part).windowBase a n [k]
    ((s.part x.part).windowSize < x.off + n → exec (.peerAccessArrival x) s = .next { s with reply := .nakAccess }) ∧
    (x.off + n ≤ (s.part x.part).windowSize →
      (x.op = .read n →
        (s.readBad (.hbm a) n = false → ∃ t, exec (.peerAccessArrival x) s = .next t ∧ t.reply = .data (Memory.bytes (u .read).hbm a n) ∧
          t.hbm = (u .read).hbm ∧ t.cores = s.cores ∧ t.parts = (u .read).parts) ∧
        (s.readBad (.hbm a) n = true → exec (.peerAccessArrival x) s = .next { u .read with reply := .uncorrected })) ∧
      (∀ d, x.op = .write d →
        ∃ t, exec (.peerAccessArrival x) s = .next t ∧ t.hbm = Memory.store (u .write).hbm a d ∧ t.reply = .ack ∧ t.cores = s.cores ∧
          t.parts = (u .write).parts) ∧
      (∀ op sz v w, x.op = .atomic op sz v w → s.readBad (.hbm a) n = false →
        let old := BitVec.ofNat 64 (Memory.le (u .atomic).hbm a n)
        ∃ t, exec (.peerAccessArrival x) s = .next t ∧ t.cores = s.cores ∧ t.parts = (u .atomic).parts ∧ t.reply = .data (leBytes n old.toNat) ∧
          t.hbm = (match atomicNew (atomicOf op) (8 * n) old v w with
            | some r => Memory.store (u .atomic).hbm a (leBytes n r.toNat)
            | none => (u .atomic).hbm)) ∧
      (∀ sz cond v, x.op = .await sz cond v → s.readBad (.hbm a) n = false →
        let w := loadValue sz (2 ≤ cond && cond ≤ 5) (Memory.bytes s.hbm a n)
        (awaitHolds cond sz w v = true → ∃ t, exec (.peerAccessArrival x) s = .next t ∧ t.reply = .data (leBytes n w.toNat) ∧
          t.hbm = (u .atomic).hbm ∧ t.cores = s.cores ∧ t.parts = (u .atomic).parts) ∧
        (awaitHolds cond sz w v = false → exec (.peerAccessArrival x) s = .next s)))) ∧
  (∀ (k : Nat) (s : State), (∃ t, exec (.routeLossTimeout k) s = .next t ∧ k ∈ t.lostNodes) ∧
    ((∀ n, n < 192 → (s.core n).owner = 0 ∨ ((s.core n).cmds = [] ∧ ∀ o ∈ (s.core n).aops, spaceOf o.addr = 2 → peerNode o.addr ≠ k)) →
      ∃ t, exec (.routeLossTimeout k) s = .next t ∧ k ∈ t.lostNodes ∧ t.cores = s.cores ∧ t.hbm = s.hbm) ∧
    (∀ n, n < 192 → (s.core n).owner ≠ 0 → (∀ m, m < 192 → m ≠ n → (s.core m).owner = 0) → k ∉ s.lostNodes →
      exec (.routeLossTimeout k) s = .next (State.loseRoute { s with lostNodes := k :: s.lostNodes } n k))) ∧
  (∀ (n k pn : Nat) (s : State) (o : AOp), (s.core n).aops = [o] → (s.core n).cmds = [] → (s.core n).part = some pn → o.phase = .walking → o.buf = none →
    spaceOf o.addr = 2 → peerNode o.addr = k →
    (∀ a, accOf o.instr = some a →
      s.loseRoute n k = (s.modCore n fun c => c.leftBuffer o).stop n { cause := 0x20, engine := 1, iseq := o.iseq, addr := o.addr }) ∧
    (accOf o.instr = none → s.loseRoute n k = s)) ∧
  (∀ (p n : Nat) (w : Bool) (a : Word) (d : Bytes) (s : State), s.attestOnly = true → w = false ∨ a.toNat < 0x840 ∨ 0x880 ≤ a.toNat →
    0 < n → d ≠ [] → exec (.rdmaWrite p w a d) s = .next { s with reply := .none } ∧ exec (.rdmaRead p w a n) s = .next { s with reply := .none }) ∧
  (∀ (p : Nat) (a : Word) (d : Bytes) (s : State), s.attestOnly = false → s.copying = [] → a.toNat + d.length ≤ 2 ^ 48 → a.toNat < 2 ^ 48 →
    (∀ l, s.places p a.toNat d.length true = some l →
      exec (.rdmaWrite p false a d) s = .next { s.writePlaces l d with reply := .ack }) ∧
    (s.places p a.toNat d.length true = none → exec (.rdmaWrite p false a d) s = .next { s with reply := .nakAccess }) ∧
    (∀ l, s.places p a.toNat d.length false = some l → (∀ e ∈ l, s.readBad e.1 e.2 = false) →
      exec (.rdmaRead p false a d.length) s = .next { s with reply := .data (l.flatMap fun e => s.readPlace e.1 e.2) }) ∧
    (s.places p a.toNat d.length false = none → exec (.rdmaRead p false a d.length) s = .next { s with reply := .nakAccess })) ∧
  (∀ (p : Nat) (s : State), exec (.rdmaInvalidOperation p) s = .next { s with reply := if s.attestOnly = true then .none else .nakInvalid }) ∧
  (∀ (p : Nat) (f : PartConfig) (s : State),
    (s.configOk p f = true → ∃ t, exec (.partitionConfiguration p f) s = .next t ∧ (t.part p).cores = f.cores ∧ (t.part p).peers = f.peers ∧
      (t.part p).windowBase = f.windowBase ∧ (∀ c ∈ f.cores, (t.core c).part = some p) ∧
      (∀ c ∈ (s.part p).cores, c ∉ f.cores → (t.core c).part = none) ∧
      ((s.part p).cores = [] → (t.part p).arrivals = 0 ∧ (t.part p).pending = [])) ∧
    (s.configOk p f = false → exec (.partitionConfiguration p f) s = .next s))

/-- For a core of a running group with no handler on it: raising a cause stops the group, leaves the cause on that core and 0x83 on the
others, fixes T_s of every core as its local tick, writes in bank 31 the cause word, the next bundle's address, T_s and the A-stream's
address as R315 lays them out, keeps both streams' registers and the inserted operations that are still to be performed, gives back the
token that a COPY waiting for its enqueue had taken (R276), and touches no core outside the group; a raise at issue also marks the issue
stopped. (R276, R311, R312, R315, R316, R322, R326). -/
def Obligations.StopEntry : Prop :=
  (∀ (s : State) (n : Nat) (k : Cause) (g : Grp), s.grpAt n = some g → g.status = .running → g.cores.Nodup → n ∈ g.cores →
    0 < k.cause → k.cause < 256 → k.code < 65536 → k.engine < 256 → k.iseq < 2 ^ 24 → (∀ m ∈ g.cores, (s.core m).saved = none) →
    (∀ m ∈ g.cores, ∀ c ∈ (s.core m).cmds, c.watched = none) → s.order.veils = [] →
    let t := s.stop n k
    t.grp? g.num = some { g with status := .stopped, slip := none } ∧ (t.core n).cause = k.cause ∧
    (∀ m ∈ g.cores, m ≠ n → (t.core m).cause = 0x83) ∧
    (∀ m ∈ g.cores, (t.core m).ts = g.key ∧ (t.core m).a = { (s.core m).a with took := false, taken := none } ∧ (t.core m).inserted = (s.core m).inserted ∧
      ((s.core m).a.took = false → (t.core m).tk = (s.core m).tk) ∧
      (∀ y ch, (s.core m).a.took = true → (s.core m).a.taken = some y → y.1.pops = some ch → (t.core m).tokens ch = min 15 ((s.core m).tokens ch + 1)) ∧
      (t.core m).x = { (s.core m).x with windowCause := (t.core m).x.windowCause } ∧ ((t.core m).x.windowCause = (s.core m).x.windowCause ∨ (m = n ∧ k.engine = 6)) ∧
      Memory.word (t.core m).sp 0x1F0008 = (s.core m).x.k.pc ∧ Memory.word (t.core m).sp 0x1F0018 = BitVec.ofNat 64 (g.key) ∧
      Memory.word (t.core m).sp 0x1F0020 = (s.core m).a.k.pc) ∧
    Memory.word (t.core n).sp 0x1F0000 = BitVec.ofNat 64 (k.code * 2 ^ 48 + k.iseq * 2 ^ 16 + k.engine * 2 ^ 8 + k.cause) ∧
    Memory.word (t.core n).sp 0x1F0028 = k.addr ∧ Memory.word (t.core n).sp 0x1F0030 = k.detail ∧
    (∀ m ∈ g.cores, m ≠ n → Memory.word (t.core m).sp 0x1F0000 = 0x83#64) ∧
    (∀ m, m ∉ g.cores → t.core m = s.core m)) ∧
  (∀ (s : State) (k : Cause), (s.raise k).ctx.out = .stopped)

/-- Delivery to handlers puts the group in handler mode; each core with a cause of its own saves its A-stream, starts at the handler's entry
with x31 pointing at its survey and x1 its cause word with the handler bit, with its unfinished syllables and commands held; a core with
0x83 is as before. Reissue brings the saved stream back, leaves handler mode and drops the cause; a restart with nothing inserted sets the
group running. (R322, R323, R324, R329). -/
def Obligations.HandlerEntryAndReturn : Prop :=
  (∀ (s : State) (g : Grp) (e : Word), g.cores.Nodup → s.grp? g.num = some g →
    (s.deliverHandlers g e).grp? g.num = some { g with status := .handling } ∧
    (∀ n ∈ g.cores, (s.core n).cause ≠ 0x83 →
      let c := (s.deliverHandlers g e).core n
      c.saved = some (s.core n).a ∧ c.a.k.pc = e ∧ sget 0#64 31 c.a.x = spPointer n 0x1F0000 ∧
      sget 0#64 1 c.a.x = Memory.word (s.core n).sp 0x1F0000 ||| 0x1000#64 ∧ c.aops = [] ∧ c.cmds = [] ∧ c.heldA = (s.core n).aops ∧
      c.heldC = (s.core n).cmds ∧ c.x = (s.core n).x ∧ c.ops = (s.core n).ops) ∧
    (∀ n ∈ g.cores, (s.core n).cause = 0x83 → (s.deliverHandlers g e).core n = s.core n)) ∧
  (∀ (c : Core) (a : AStream) (rs : List (List Word)), c.saved = some a →
    (c.reissue rs).a.x = a.x ∧ (c.reissue rs).a.k.pc = a.k.pc ∧ (c.reissue rs).saved = none ∧ (c.reissue rs).cause = 0 ∧
    (c.reissue rs).heldA = [] ∧ (c.reissue rs).x.g = c.x.g ∧ (c.reissue rs).x.win = c.x.win ∧ (c.reissue rs).x.k.pc = c.x.k.pc) ∧
  (∀ (s : State) (g : Grp), s.grp? g.num = some g → g.status = .resuming → (∀ n ∈ g.cores, (s.core n).inserted = []) →
    (∀ n ∈ g.cores, (s.core n).x.k.exited = false ∨ (s.core n).a.k.exited = false) →
    ∃ t, exec (.meridianPulse g.num) s = .next t ∧ t.grp? g.num = some { g with status := .running })

/-- exec answers a next state for every instruction and event, in every state: what the manual calls a fault is an exception taken, never a
stop of the model. A step refuses nothing, and the only fault of the model is the fetch outside text for which the manual gives no effect
(log entry 4). (R1, R51, 05_core_architecture.md). -/
def Obligations.NothingIsRefused : Prop :=
  (∀ (i : Instr) (s : State), ∃ t, exec i s = .next t) ∧
  (∀ (s : State) (r : Refusal), step s ≠ .refused r) ∧
  (∀ (s : State) (f : Fault), step s = .fault f → ∃ a, f = .fetchOutside a)

/-- From every state, whatever the next turn is, if both memories list rising addresses and no byte equal to what an unlisted address reads
as, then so they do after a step that answers a next state: equal memories stay equal data. What an unlisted byte reads as is the model's
choice (log entry 2). (R8, R252, 05_core_architecture.md). -/
def Obligations.MemoryStaysCanonical : Prop :=
  ∀ s t : State, Memory.wf s.hbm = true → Memory.wf s.peer = true → step s = .next t → Memory.wf t.hbm = true ∧ Memory.wf t.peer = true

end Statements
end

