-- ==== Sys2Proof/Laws/Encoding.lean ====
section
/-! SUPPORT. Fields of concatenated bit strings, the header of a syllable, and when the decoder accepts a word. -/

namespace Sys2Proof.Laws

/-- A field that lies in the low part. -/
theorem extract_low {m n : Nat} (a : BitVec m) (b : BitVec n) (lo len : Nat) (h : lo + len ≤ n) :
    (a ++ b).extractLsb' lo len = b.extractLsb' lo len := by
  ext i hi
  rw [BitVec.getElem_extractLsb', BitVec.getElem_extractLsb', BitVec.getLsbD_append, if_pos (by omega)]

/-- A field that lies in the high part. -/
theorem extract_high {m n : Nat} (a : BitVec m) (b : BitVec n) (lo len : Nat) (h : n ≤ lo) :
    (a ++ b).extractLsb' lo len = a.extractLsb' (lo - n) len := by
  ext i hi
  rw [BitVec.getElem_extractLsb', BitVec.getElem_extractLsb', BitVec.getLsbD_append, if_neg (by omega)]
  congr 1
  omega

theorem fld_hdr_operands (c : BitVec 3) (o : BitVec 8) (g : BitVec 4) (x : BitVec 44) (lo n : Nat) (h : lo + n ≤ 44) :
    fld (hdr c o g x) lo n = x.extractLsb' lo n :=
  extract_low (0#1 ++ c ++ 0#4 ++ o ++ g) x lo n h

theorem fld_hdr_guard (c : BitVec 3) (o : BitVec 8) (g : BitVec 4) (x : BitVec 44) : fld (hdr c o g x) 44 4 = g :=
  ((extract_high (0#1 ++ c ++ 0#4 ++ o ++ g) x 44 4 (by omega)).trans
    (extract_low (0#1 ++ c ++ 0#4 ++ o) g 0 4 (by omega))).trans BitVec.extractLsb'_eq_self

theorem fld_hdr_opcode (c : BitVec 3) (o : BitVec 8) (g : BitVec 4) (x : BitVec 44) : fld (hdr c o g x) 48 8 = o :=
  (((extract_high (0#1 ++ c ++ 0#4 ++ o ++ g) x 48 8 (by omega)).trans
    (extract_high (0#1 ++ c ++ 0#4 ++ o) g 4 8 (by omega))).trans
    (extract_low (0#1 ++ c ++ 0#4) o 0 8 (by omega))).trans BitVec.extractLsb'_eq_self

theorem fld_hdr_idle (c : BitVec 3) (o : BitVec 8) (g : BitVec 4) (x : BitVec 44) : fld (hdr c o g x) 56 4 = 0#4 :=
  ((((extract_high (0#1 ++ c ++ 0#4 ++ o ++ g) x 56 4 (by omega)).trans
    (extract_high (0#1 ++ c ++ 0#4 ++ o) g 12 4 (by omega))).trans
    (extract_high (0#1 ++ c ++ 0#4) o 8 4 (by omega))).trans
    (extract_low (0#1 ++ c) (0#4) 0 4 (by omega))).trans BitVec.extractLsb'_eq_self

theorem fld_hdr_class (c : BitVec 3) (o : BitVec 8) (g : BitVec 4) (x : BitVec 44) : fld (hdr c o g x) 60 3 = c :=
  (((((extract_high (0#1 ++ c ++ 0#4 ++ o ++ g) x 60 3 (by omega)).trans
    (extract_high (0#1 ++ c ++ 0#4 ++ o) g 16 3 (by omega))).trans
    (extract_high (0#1 ++ c ++ 0#4) o 12 3 (by omega))).trans
    (extract_high (0#1 ++ c) (0#4) 4 3 (by omega))).trans
    (extract_low (0#1) c 0 3 (by omega))).trans BitVec.extractLsb'_eq_self

theorem classOf_hdr (c : BitVec 3) (o : BitVec 8) (g : BitVec 4) (x : BitVec 44) : classOf (hdr c o g x) = c.toNat := by
  unfold classOf
  rw [fld_hdr_class]

/-- The bits of a word that `bare` keeps. -/
theorem bare_getLsbD (w : Word) (i : Nat) : (bare w).getLsbD i = (w.getLsbD i && !(decide (56 ≤ i) && decide (i < 60)) && decide (i < 63)) := by
  unfold bare
  rw [BitVec.getLsbD_and]
  by_cases h : i < 64
  · have : ∀ k < 64, (0x70FFFFFFFFFFFFFF#64).getLsbD k = (!(decide (56 ≤ k) && decide (k < 60)) && decide (k < 63)) := by decide
    rw [this i h, Bool.and_assoc]
  · rw [BitVec.getLsbD_of_ge _ _ (by omega), BitVec.getLsbD_of_ge _ _ (by omega)]
    simp

/-- A word with S and Idle clear is its own bare word. -/
theorem bare_self (w : Word) (hs : w.getLsbD 63 = false) (hi : fld w 56 4 = 0#4) : bare w = w := by
  apply BitVec.eq_of_getLsbD_eq
  intro i h
  rw [bare_getLsbD]
  have idle : ∀ k < 4, w.getLsbD (56 + k) = false := by
    intro k hk
    have := congrArg (fun v => v.getLsbD k) hi
    simpa [fld, BitVec.getLsbD_extractLsb', hk] using this
  by_cases h63 : i = 63
  · subst h63
    rw [hs]
    rfl
  · by_cases hm : 56 ≤ i ∧ i < 60
    · have := idle (i - 56) (by omega)
      rw [show 56 + (i - 56) = i by omega] at this
      simp [this]
    · have : decide (i < 63) = true := by simp; omega
      rw [this]
      have : (decide (56 ≤ i) && decide (i < 60)) = false := by simp; omega
      simp [this]

theorem sBit_hdr (c : BitVec 3) (o : BitVec 8) (g : BitVec 4) (x : BitVec 44) : (hdr c o g x).getLsbD 63 = false := by
  have h : (hdr c o g x).extractLsb' 63 1 = 0#1 :=
    (((((extract_high (0#1 ++ c ++ 0#4 ++ o ++ g) x 63 1 (by omega)).trans
      (extract_high (0#1 ++ c ++ 0#4 ++ o) g 19 1 (by omega))).trans
      (extract_high (0#1 ++ c ++ 0#4) o 15 1 (by omega))).trans
      (extract_high (0#1 ++ c) (0#4) 7 1 (by omega))).trans
      (extract_high (0#1) c 3 1 (by omega))).trans BitVec.extractLsb'_eq_self
  have := congrArg (fun v => v.getLsbD 0) h
  simpa [BitVec.getLsbD_extractLsb'] using this

/-- When the decoder accepts a word with S and Idle clear. -/
theorem decode_ok {w : Word} {i : Instr} (hc : classOf w ≠ 7) (hr : raw w = some i) (he : encode i = some w) (hs : w.getLsbD 63 = false)
    (hi : fld w 56 4 = 0#4) (hw : i.wf = true) : decode w = .ok i := by
  have hb : bare w = w := bare_self w hs hi
  have h0 : idleOf w = 0 := by simp [idleOf, hi]
  simp [decode, hc, hr, he, hb, h0, hw]

end Sys2Proof.Laws
end

