-- ==== Sys2Proof/Laws/Store.lean ====
section
/-! SUPPORT. Sparse stores and memories: a read after a write, on every list, and the canonical form that every operation keeps. -/

namespace Sys2Proof.Machine

theorem sget_sdrop_self {α : Type} (d : α) (k : Nat) (s : Store α) : sget d k (sdrop k s) = d := by
  induction s with
  | nil => rfl
  | cons e t ih =>
    by_cases h : e.1 = k
    · simpa [sdrop, h] using ih
    · simpa [sdrop, sget, h] using ih

theorem sget_sdrop_other {α : Type} (d : α) {j k : Nat} (s : Store α) (h : j ≠ k) : sget d j (sdrop k s) = sget d j s := by
  induction s with
  | nil => rfl
  | cons e t ih =>
    by_cases hk : e.1 = k
    · have : e.1 ≠ j := by omega
      simpa [sdrop, sget, hk, this, Ne.symm h] using ih
    · by_cases hj : e.1 = j
      · simp [sdrop, sget, hj]
        rw [if_neg (by omega)]
        simp [sget]
      · simpa [sdrop, sget, hk, hj] using ih

/-- A read of the written key. -/
@[simp] theorem sget_sset_self {α : Type} [DecidableEq α] (d : α) (k : Nat) (v : α) (s : Store α) : sget d k (sset d k v s) = v := by
  induction s with
  | nil => by_cases h : v = d <;> simp [sset, sget, h]
  | cons e t ih =>
    by_cases h : v = d
    · simp only [sset, h, if_true]
      exact sget_sdrop_self d k _
    · by_cases hk : k < e.1
      · simp [sset, sget, h, hk]
      · by_cases he : e.1 = k
        · simp [sset, sget, h, he]
        · simpa [sset, sget, h, hk, he] using ih

/-- Of two writes at one key the later stands, on every list, when the first leaves an entry. -/
theorem sset_sset {α : Type} [DecidableEq α] (d : α) (k : Nat) {w : α} (v : α) (s : Store α) (h : w ≠ d) :
    sset d k v (sset d k w s) = sset d k v s := by
  induction s with
  | nil => by_cases hv : v = d <;> simp [sset, sdrop, h, hv]
  | cons e t ih =>
    obtain ⟨j, u⟩ := e
    by_cases hk : k < j
    · have : j ≠ k := by omega
      by_cases hv : v = d <;> simp [sset, sdrop, h, hv, hk, this]
    · by_cases hj : j = k
      · by_cases hv : v = d <;> simp [sset, sdrop, h, hv, hj]
      · by_cases hv : v = d
        · subst hv
          have e1 : sset v k v (sset v k w t) = sdrop k (sset v k w t) := by
            cases hh : sset v k w t with
            | nil => simp [sset, sdrop]
            | cons => simp [sset]
          have e2 : sset v k v t = sdrop k t := by
            cases t with
            | nil => simp [sset, sdrop]
            | cons => simp [sset]
          rw [e1, e2] at ih
          simp [sset, sdrop, h, hk, hj, ih]
        · simp [sset, h, hv, hk, hj, ih]

/-- A read of another key. -/
theorem sget_sset_other {α : Type} [DecidableEq α] (d : α) {j k : Nat} (v : α) (s : Store α) (h : j ≠ k) :
    sget d j (sset d k v s) = sget d j s := by
  induction s with
  | nil => by_cases hv : v = d <;> simp [sset, sget, hv, Ne.symm h]
  | cons e t ih =>
    by_cases hv : v = d
    · simp only [sset, hv, if_true]
      exact sget_sdrop_other d _ h
    · by_cases hk : k < e.1
      · simp [sset, sget, hv, hk, Ne.symm h]
      · by_cases he : e.1 = k
        · simp [sset, sget, hv, he, Ne.symm h]
        · by_cases hj : e.1 = j
          · rw [sset, if_neg hv, if_neg hk, if_neg he]
            simp [sget, hj]
          · rw [sset, if_neg hv, if_neg hk, if_neg he]
            simpa [sget, hj] using ih

/-! ### The canonical form -/

theorem swfFrom_weaken {α : Type} [DecidableEq α] (d : α) {lo lo' : Nat} (s : Store α) (h : lo' ≤ lo) (w : swfFrom d lo s = true) :
    swfFrom d lo' s = true := by
  cases s with
  | nil => rfl
  | cons e t =>
    simp only [swfFrom, Bool.and_eq_true, decide_eq_true_eq] at w ⊢
    exact ⟨⟨by omega, w.1.2⟩, w.2⟩

theorem swfFrom_filter {α : Type} [DecidableEq α] (d : α) (p : Nat × α → Bool) (lo : Nat) (s : Store α) (w : swfFrom d lo s = true) :
    swfFrom d lo (s.filter p) = true := by
  induction s generalizing lo with
  | nil => rfl
  | cons e t ih =>
    simp only [swfFrom, Bool.and_eq_true, decide_eq_true_eq] at w
    have ht := ih _ w.2
    by_cases hp : p e = true
    · rw [List.filter_cons_of_pos hp]
      simp only [swfFrom, Bool.and_eq_true, decide_eq_true_eq]
      exact ⟨w.1, ht⟩
    · rw [List.filter_cons_of_neg hp]
      exact swfFrom_weaken d _ (by omega) ht

theorem sdrop_eq_filter {α : Type} (k : Nat) (s : Store α) : sdrop k s = s.filter fun e => e.1 != k := by
  induction s with
  | nil => rfl
  | cons e t ih =>
    by_cases h : e.1 = k
    · simp [sdrop, h, ih]
    · simp [sdrop, h, ih]

theorem swfFrom_sset {α : Type} [DecidableEq α] (d : α) (k : Nat) (v : α) (lo : Nat) (s : Store α) (h : lo ≤ k) (w : swfFrom d lo s = true) :
    swfFrom d lo (sset d k v s) = true := by
  induction s generalizing lo with
  | nil => by_cases hv : v = d <;> simp [sset, swfFrom, hv, h]
  | cons e t ih =>
    by_cases hv : v = d
    · rw [sset, if_pos hv, sdrop_eq_filter]
      exact swfFrom_filter d _ _ _ w
    · simp only [swfFrom, Bool.and_eq_true, decide_eq_true_eq] at w
      by_cases hk : k < e.1
      · simp only [sset, if_neg hv, if_pos hk, swfFrom, Bool.and_eq_true, decide_eq_true_eq]
        exact ⟨⟨h, hv⟩, ⟨by omega, w.1.2⟩, w.2⟩
      · by_cases he : e.1 = k
        · simp only [sset, if_neg hv, if_neg hk, if_pos he, swfFrom, Bool.and_eq_true, decide_eq_true_eq]
          exact ⟨⟨h, hv⟩, he ▸ w.2⟩
        · simp only [sset, if_neg hv, if_neg hk, if_neg he, swfFrom, Bool.and_eq_true, decide_eq_true_eq]
          exact ⟨w.1, ih _ (by omega) w.2⟩

/-- A write keeps the canonical form. -/
theorem swf_sset {α : Type} [DecidableEq α] (d : α) (k : Nat) (v : α) (s : Store α) (w : swf d s = true) : swf d (sset d k v s) = true :=
  swfFrom_sset d k v 0 s (Nat.zero_le k) w

/-- Clearing a range keeps the canonical form. -/
theorem swf_sclear {α : Type} [DecidableEq α] (d : α) (lo n : Nat) (s : Store α) (w : swf d s = true) : swf d (sclear lo n s) = true :=
  swfFrom_filter d _ 0 s w

theorem sget_filter {α : Type} (d : α) (p : Nat → Bool) (k : Nat) (s : Store α) :
    sget d k (s.filter fun e => p e.1) = if p k then sget d k s else d := by
  induction s with
  | nil => simp [sget]
  | cons e t ih =>
    by_cases hp : p e.1 = true
    · rw [List.filter_cons_of_pos (by simpa using hp)]
      by_cases he : e.1 = k
      · simp [sget, he, he ▸ hp]
      · simpa [sget, he] using ih
    · rw [List.filter_cons_of_neg (by simpa using hp)]
      by_cases he : e.1 = k
      · have : ¬ p k = true := he ▸ hp
        simpa [sget, he, this] using ih
      · simpa [sget, he] using ih

/-- A read after a range is cleared. -/
theorem sget_sclear {α : Type} (d : α) (lo n k : Nat) (s : Store α) :
    sget d k (sclear lo n s) = if k < lo ∨ lo + n ≤ k then sget d k s else d := by
  unfold sclear
  rw [sget_filter d (fun k => decide (k < lo) || decide (lo + n ≤ k)) k s]
  simp

/-! ### Memories -/

theorem Memory.write_wf (m : Memory) (a : Nat) (b : Byte) (w : Memory.wf m = true) : Memory.wf (Memory.write m a b) = true :=
  swf_sset unwritten a b m w

theorem Memory.store_wf (m : Memory) (a : Nat) (d : Bytes) (w : Memory.wf m = true) : Memory.wf (Memory.store m a d) = true := by
  induction d generalizing m a with
  | nil => exact w
  | cons b t ih => exact ih _ _ (Memory.write_wf m a b w)

theorem Memory.zero_wf (m : Memory) (a n : Nat) (w : Memory.wf m = true) : Memory.wf (Memory.zero m a n) = true :=
  swf_sclear unwritten a n m w

@[simp] theorem Memory.read_write_self (m : Memory) (a : Nat) (b : Byte) : Memory.read (Memory.write m a b) a = b :=
  sget_sset_self unwritten a b m

theorem Memory.read_write_other (m : Memory) {a c : Nat} (b : Byte) (h : c ≠ a) : Memory.read (Memory.write m a b) c = Memory.read m c :=
  sget_sset_other unwritten b m h

/-- A read outside the bytes stored. -/
theorem Memory.read_store_other (m : Memory) (a c : Nat) (d : Bytes) (h : c < a ∨ a + d.length ≤ c) :
    Memory.read (Memory.store m a d) c = Memory.read m c := by
  induction d generalizing m a with
  | nil => rfl
  | cons b t ih =>
    simp only [List.length_cons] at h
    rw [Memory.store, ih _ _ (by omega), Memory.read_write_other m b (by omega)]

/-- A read of a byte stored. -/
theorem Memory.read_store (m : Memory) (a k : Nat) (d : Bytes) (h : k < d.length) :
    Memory.read (Memory.store m a d) (a + k) = d[k] := by
  induction d generalizing m a k with
  | nil => simp at h
  | cons b t ih =>
    cases k with
    | zero =>
      rw [Memory.store, Memory.read_store_other _ _ _ _ (by omega)]
      simp
    | succ k =>
      simp only [List.length_cons] at h
      have := ih (Memory.write m a b) (a + 1) k (by omega)
      rw [show a + 1 + k = a + (k + 1) by omega] at this
      rw [Memory.store, this]
      rfl

/-- The bytes read back where they were stored. -/
theorem Memory.bytes_store (m : Memory) (a : Nat) (d : Bytes) : Memory.bytes (Memory.store m a d) a d.length = d := by
  have key : ∀ (n k : Nat), k + n = d.length → Memory.bytes (Memory.store m a d) (a + k) n = d.drop k := by
    intro n
    induction n with
    | zero => intro k h; simp [Memory.bytes, List.drop_of_length_le, show d.length ≤ k by omega]
    | succ n ih =>
      intro k h
      rw [Memory.bytes, Memory.read_store m a k d (by omega), Nat.add_assoc, ih (k + 1) (by omega)]
      exact (List.drop_eq_getElem_cons (by omega)).symm
  simpa using key d.length 0 (by omega)

theorem leNat_leBytes (n v : Nat) : leNat (leBytes n v) = v % 2 ^ (8 * n) := by
  induction n generalizing v with
  | zero => simp [leBytes, leNat, Nat.mod_one]
  | succ n ih =>
    rw [leBytes, leNat, ih]
    simp only [BitVec.toNat_ofNat]
    rw [show 8 * (n + 1) = 8 + 8 * n by omega, Nat.pow_add, Nat.mod_mul]

theorem leBytes_length (n v : Nat) : (leBytes n v).length = n := by
  induction n generalizing v with
  | zero => rfl
  | succ n ih => simp [leBytes, ih]

/-- A word read back where it was stored. -/
theorem Memory.word_store (m : Memory) (a : Nat) (w : Word) : Memory.word (Memory.store m a (wordBytes w)) a = w := by
  have h := Memory.bytes_store m a (wordBytes w)
  rw [show (wordBytes w).length = 8 from leBytes_length 8 _] at h
  unfold Memory.word Memory.le
  rw [h]
  unfold wordBytes
  rw [leNat_leBytes, Nat.mod_eq_of_lt (by simpa using w.isLt)]
  simp

/-! ### Reset -/

theorem reset_hbm_wf : Memory.wf State.reset.hbm = true := rfl
theorem reset_peer_wf : Memory.wf State.reset.peer = true := rfl
theorem reset_cores_wf : swf {} State.reset.cores = true := rfl

/-! ### Cores in the state -/

@[simp] theorem State.core_setCore_self (s : State) (c : Nat) (v : Core) : (s.setCore c v).core c = v := sget_sset_self _ _ _ _
theorem State.core_setCore_other (s : State) {b c : Nat} (v : Core) (h : b ≠ c) : (s.setCore c v).core b = s.core b := sget_sset_other _ _ _ h
@[simp] theorem State.core_modCore_self (s : State) (c : Nat) (f : Core → Core) : (s.modCore c f).core c = f (s.core c) := sget_sset_self _ _ _ _
theorem State.core_modCore_other (s : State) {b c : Nat} (f : Core → Core) (h : b ≠ c) : (s.modCore c f).core b = s.core b :=
  sget_sset_other _ _ _ h
/-- Two changes to one core are one, when the first leaves a core that is listed. -/
theorem State.modCore_modCore (s : State) (n : Nat) (f g : Core → Core) (h : f (s.core n) ≠ {}) :
    (s.modCore n f).modCore n g = s.modCore n fun c => g (f c) := by
  have e : (s.modCore n f).core n = f (s.core n) := State.core_modCore_self s n f
  unfold State.modCore at e ⊢
  rw [e]
  simp only [State.setCore]
  rw [sset_sset _ _ _ _ h]
@[simp] theorem State.me_modMe (s : State) (f : Core → Core) : (s.modMe f).me = f s.me := sget_sset_self _ _ _ _
@[simp] theorem State.part_setPart_self (s : State) (p : Nat) (v : Part) : (s.setPart p v).part p = v := sget_sset_self _ _ _ _
theorem State.part_setPart_other (s : State) {p q : Nat} (v : Part) (h : q ≠ p) : (s.setPart p v).part q = s.part q := sget_sset_other _ _ _ h
@[simp] theorem State.mcore_setMcore_self (s : State) (n : Nat) (v : Mgmt) : (s.setMcore n v).mcore n = v := sget_sset_self _ _ _ _
@[simp] theorem State.cluster_setCluster_self (s : State) (k : Nat) (v : Cluster) : (s.setCluster k v).cluster k = v := sget_sset_self _ _ _ _

/-- The operations in flight after one more. -/
@[simp] theorem State.me_fly (s : State) (o : Op) : (s.fly o).me = { s.me with ops := s.me.ops ++ [o] } := sget_sset_self _ _ _ _

end Sys2Proof.Machine
end

