-- ==== Sys2Proof/Laws/Ops.lean ====
section
/-! SUPPORT. What each shared operation of a meaning can do, said once: checks and gates, results in flight, issue that only adds operations
in flight, exceptions, and the bodies that whole families share. -/

namespace Sys2Proof.Machine

/-! ### Checks and gates -/

@[simp] theorem Chk.seq_ok (b : Chk) : Chk.seq .ok b = b := by cases b <;> rfl
@[simp] theorem Chk.need_true (k : Nat) : Chk.need true k = .ok := rfl
@[simp] theorem Chk.need_false (k : Nat) : Chk.need false k = .fault { cause := k } := rfl
@[simp] theorem State.gate_ok (s : State) (f : State → State) : s.gate .ok f = f s := rfl
@[simp] theorem State.gate_waits (s : State) (w : Slip) (f : State → State) : s.gate (.waits w) f = s.waiting w := rfl
@[simp] theorem State.gate_fault (s : State) (k : Cause) (f : State → State) : s.gate (.fault k) f = s.raise k := rfl

/-- A raise leaves the issue stopped. -/
@[simp] theorem State.raise_out (s : State) (k : Cause) : (s.raise k).ctx.out = .stopped := by
  unfold State.raise
  split <;> rfl

/-- A cause against a core that no group holds stops nothing. -/
theorem State.stop_none (s : State) (n : Nat) (k : Cause) (h : s.grpAt n = none) : s.stop n k = s := by
  unfold State.stop
  rw [h]

/-! ### Shared bodies -/

theorem scalarBody_true (g : BitVec 4) (rs : List (BitVec 5)) (lat : Nat) (rd : BitVec 5) (v : State → Word) (s : State)
    (hg : s.guardC g = true) (hr : s.regsOk rs = .ok) : scalarBody g rs lat rd v s = s.putReg lat rd (v s) := by
  simp [scalarBody, hg, hr]

theorem scalarBody_false (g : BitVec 4) (rs : List (BitVec 5)) (lat : Nat) (rd : BitVec 5) (v : State → Word) (s : State)
    (hg : s.guardC g = false) : scalarBody g rs lat rd v s = s := by
  simp [scalarBody, hg]

theorem compareBody_true (g : BitVec 4) (rs : List (BitVec 5)) (cd : BitVec 3) (v : State → Bool) (s : State)
    (hg : s.guardC g = true) (hr : s.regsOk rs = .ok) : compareBody g rs cd v s = s.putPair cd (v s) := by
  simp [compareBody, hg, hr]

theorem State.putReg_x (s : State) (lat : Nat) (r : BitVec 5) (v : Word) (h : s.ctx.who = .x) :
    s.putReg lat r v = s.fly (s.op 0 lat (s.me.divisor 0) [s.xLand r v]) := by
  simp [State.putReg, h]

theorem State.putReg_a (s : State) (lat : Nat) (r : BitVec 5) (v : Word) (h : s.ctx.who ≠ .x) :
    s.putReg lat r v = if r.toNat = 0 then s else s.defer (.x r.toNat v lat) := by
  unfold State.putReg
  split
  · contradiction
  · rfl

theorem State.mxIssue_true (s : State) (g : BitVec 4) (dl : BitVec 12) (i : Instr) (vb : Nat) (h : s.guardM g = true) :
    s.mxIssue g dl i vb =
      s.fly
        { iseq := s.ctx.iseq, bundle := s.ctx.first, word := s.ctx.word, engine := 3, kind := .start, wide := true, due := s.ctx.tick + dl.toNat,
          mx := some i, vbase := vb, mdiv := s.me.divisor 2 } := by
  simp [State.mxIssue, h]

/-- A row syllable with no lane selected makes its checks and does nothing else (R36, R186). -/
theorem State.vec_none (s : State) (g : BitVec 4) (lat : Nat) (vd : BitVec 10) (vs : List (BitVec 10)) (more : State → Chk)
    (f : Nat → List Row → State → Row) (h : s.lanesOn g (s.me.rowType (s.vrow vd)) = 0#64) :
    s.vec g lat vd vs more f =
      s.gate (((s.heldOk (s.vrow vd :: vs.map s.vrow)).seq (more s)).seq (s.rowsGood (vs.map s.vrow))) fun s => s := by
  simp [State.vec, h]

/-- A row syllable that is ready leaves its row in flight. -/
theorem State.vec_done (s : State) (g : BitVec 4) (lat : Nat) (vd : BitVec 10) (vs : List (BitVec 10)) (more : State → Chk)
    (f : Nat → List Row → State → Row) (h : s.vectorReady { guard := g, lat := lat, vd := vd, srcs := vs, more := more, value := f }) :
    s.vec g lat vd vs more f = s.vectorDone { guard := g, lat := lat, vd := vd, srcs := vs, more := more, value := f } := by
  obtain ⟨h1, h2, h3, h4⟩ := h
  dsimp only at h1 h2 h3 h4
  simp only [State.vec, h1, h2, h3, h4, Chk.seq_ok, State.gate_ok, if_false]
  rfl

/-- A record that R31 refuses changes nothing. -/
theorem State.accept_refused (s : State) (p : Nat) (r : Bytes) (depth prio : Nat) (ps : List Nat) (h : (s.part p).recStatus r ≠ 0) :
    s.accept p r depth prio ps = (s, .status ((s.part p).recStatus r)) := by
  simp [State.accept, h]

/-! ### Issue that only adds operations in flight -/

/-- If the issue goes on, the core has more operations in flight, what is left for the bundle's end may differ, and nothing else does. -/
def State.onlyAdds (s t : State) : Prop :=
  t.ctx.out = .running → t.ctx.who = s.ctx.who ∧ t.ctx.core = s.ctx.core ∧ (∃ os, t.me = { s.me with ops := s.me.ops ++ os }) ∧
    (∀ c, c ≠ s.ctx.core → t.core c = s.core c) ∧ t.hbm = s.hbm ∧ t.peer = s.peer ∧ { t with cores := s.cores, ctx := s.ctx } = s

theorem State.onlyAdds_refl (s : State) : s.onlyAdds s := fun _ => ⟨rfl, rfl, ⟨[], by simp⟩, fun _ _ => rfl, rfl, rfl, rfl⟩

theorem State.onlyAdds_fly {s t : State} (o : Op) (h : s.onlyAdds t) : s.onlyAdds (t.fly o) := by
  intro ho
  obtain ⟨h0, h1, ⟨os, h2⟩, h3, h4, h5, h6⟩ := h ho
  refine ⟨h0, h1, ⟨os ++ [o], by simp [State.fly, h2]⟩, fun c hc => ?_, h4, h5, h6⟩
  simp only [State.fly, State.modMe]
  rw [State.core_modCore_other _ _ (by rw [h1]; exact hc)]
  exact h3 c hc

theorem State.onlyAdds_leave {s t : State} (c : Ctl) (h : s.onlyAdds t) : s.onlyAdds (t.leave c) := h

theorem State.onlyAdds_waiting (s t : State) (w : Slip) : s.onlyAdds (t.waiting w) := by
  intro h
  cases h

theorem State.onlyAdds_needWindow (s t : State) (n : Nat) (f : Bool) : s.onlyAdds (t.needWindow n f) := by
  intro h
  cases h

theorem State.onlyAdds_raise (s t : State) (k : Cause) : s.onlyAdds (t.raise k) := by
  intro h
  rw [State.raise_out] at h
  cases h

theorem State.onlyAdds_gate {s t : State} (c : Chk) (f : State → State) (h : s.onlyAdds (f t)) : s.onlyAdds (t.gate c f) := by
  cases c
  · exact h
  · exact State.onlyAdds_waiting s t _
  · exact State.onlyAdds_raise s t _

theorem State.onlyAdds_putReg {s : State} (h : s.ctx.who = .x) (lat : Nat) (r : BitVec 5) (v : Word) : s.onlyAdds (s.putReg lat r v) := by
  rw [State.putReg_x s lat r v h]
  exact State.onlyAdds_fly _ (State.onlyAdds_refl s)

theorem State.onlyAdds_putPair {s : State} (h : s.ctx.who = .x) (cd : BitVec 3) (v : Bool) : s.onlyAdds (s.putPair cd v) := by
  simp only [State.putPair, h]
  exact State.onlyAdds_fly _ (State.onlyAdds_refl s)

theorem State.onlyAdds_vec (s : State) (g : BitVec 4) (lat : Nat) (vd : BitVec 10) (vs : List (BitVec 10)) (more : State → Chk)
    (f : Nat → List Row → State → Row) : s.onlyAdds (s.vec g lat vd vs more f) := by
  unfold State.vec
  refine State.onlyAdds_gate _ _ ?_
  dsimp only
  split
  · exact State.onlyAdds_refl s
  · exact State.onlyAdds_fly _ (State.onlyAdds_refl s)

/-! ### Taking a stop, core by core -/

/-- A freeze touches its own core only. -/
theorem State.freeze_other (s : State) (g : Grp) {n m : Nat} (h : m ≠ n) : (s.freeze g n).core m = s.core m :=
  State.core_modCore_other s _ h

/-- Giving back a token leaves the X-stream alone. -/
@[simp] theorem Core.giveBack_x (c : Core) : c.giveBack.x = c.x := by
  unfold Core.giveBack
  split <;> rfl

/-- It leaves no command at its enqueue. -/
@[simp] theorem Core.giveBack_a (c : Core) : c.giveBack.a = { c.a with took := false, taken := none } := by
  unfold Core.giveBack
  split <;> rfl

/-- A freeze keeps the registers of both streams, gives up the enqueue that waits, fixes T_s as the local tick, and gives 0x83 where no cause stands (R311, R312). -/
theorem State.freeze_self (s : State) (g : Grp) (n : Nat) :
    ((s.freeze g n).core n).x = (s.core n).x ∧ ((s.freeze g n).core n).a = { (s.core n).a with took := false, taken := none } ∧ ((s.freeze g n).core n).ts = g.key ∧
    ((s.freeze g n).core n).cause = (if (s.core n).cause = 0 then 0x83 else (s.core n).cause) := by
  have h : (s.freeze g n).core n = _ := State.core_modCore_self s n _
  rw [h]
  dsimp only
  split <;> exact ⟨Core.giveBack_x _, Core.giveBack_a _, rfl, rfl⟩

/-! ### Stores not seen everywhere, delayed writes, landing order -/

/-- With every store seen everywhere, a core reads memory itself. -/
theorem State.seen_plain (s : State) (m : Nat) (p : Place) (n : Nat) (h : s.order.veils = []) : s.seen m p n = s.readPlace p n := by
  simp [State.seen, h]

/-- With every store seen everywhere, nothing is left to reveal. -/
theorem State.reveal_plain (s : State) (ms : List Nat) (sel : Veil → Bool) (learn : Bool) (h : s.order.veils = []) :
    s.reveal ms sel learn = s := by
  simp [State.reveal, h]

/-- Revealing a store changes who sees it and nothing else. -/
theorem State.reveal_frame (s : State) (ms : List Nat) (sel : Veil → Bool) (learn : Bool) :
    s.reveal ms sel learn = { s with order := (s.reveal ms sel learn).order } := by
  unfold State.reveal
  split <;> rfl

/-- With every store seen everywhere, no earlier store is owed. -/
theorem State.settle_plain (s : State) (n : Nat) (h : s.order.veils = []) : s.settle n = s := by
  simp [State.settle, h]

/-- The device's own store lands at once where its page is not being copied. -/
theorem State.storeHbm_free (s : State) (a : Nat) (d : Bytes) (h : s.copied (.hbm a) d.length = false) :
    s.storeHbm a d = { s with hbm := Memory.store s.hbm a d }.writeGood (.hbm a) d.length := by
  simp [State.storeHbm, h]

/-- It waits, leaving memory as it is, while its page is being copied (R400). -/
theorem State.storeHbm_copied (s : State) (a : Nat) (d : Bytes) (h : s.copied (.hbm a) d.length = true) :
    s.storeHbm a d = { s with delayed := s.delayed ++ [(a, d)] } := by
  simp [State.storeHbm, h]

/-- Putting writes in the order in which they land loses none. -/
theorem insertWrite_perm (w : AWrite) (l : List AWrite) : (insertWrite w l).Perm (w :: l) := by
  induction l with
  | nil => exact .refl _
  | cons h t ih =>
    unfold insertWrite
    split
    · exact .refl _
    · exact (ih.cons h).trans (.swap w h t)

theorem landOrder_perm (ws : List AWrite) : (landOrder ws).Perm ws := by
  induction ws with
  | nil => exact .refl _
  | cons w t ih => exact (insertWrite_perm w (landOrder t)).trans (ih.cons w)

end Sys2Proof.Machine
end

