-- ==== Sys2Proof/Laws/PerInstr.lean ====
section
/-! SUPPORT. One lemma per instruction: the decoder reads back what the encoder writes. -/

set_option linter.unusedSimpArgs false
set_option Elab.async false

namespace Sys2Proof.Laws

/-- Decoding a well-formed instruction's syllable gives the instruction back. -/
def RoundTrip.Statement (i : Instr) : Prop := ∀ w : Word, i.wf = true → encode i = some w → decode w = .ok i

theorem raw_hdr_S (o : BitVec 8) (g : BitVec 4) (x : BitVec 44) : raw (hdr 0#3 o g x) = rawS (hdr 0#3 o g x) := by
  unfold raw
  rw [classOf_hdr]
  rfl

theorem raw_hdr_B (o : BitVec 8) (g : BitVec 4) (x : BitVec 44) : raw (hdr 2#3 o g x) = rawB (hdr 2#3 o g x) := by
  unfold raw
  rw [classOf_hdr]
  rfl

theorem raw_hdr_V (o : BitVec 8) (g : BitVec 4) (x : BitVec 44) : raw (hdr 3#3 o g x) = rawV (hdr 3#3 o g x) := by
  unfold raw
  rw [classOf_hdr]
  rfl

theorem raw_hdr_M (o : BitVec 8) (g : BitVec 4) (x : BitVec 44) : raw (hdr 4#3 o g x) = rawM (hdr 4#3 o g x) := by
  unfold raw
  rw [classOf_hdr]
  rfl

theorem raw_hdr_I (o : BitVec 8) (g : BitVec 4) (x : BitVec 44) : raw (hdr 5#3 o g x) = rawI (hdr 5#3 o g x) := by
  unfold raw
  rw [classOf_hdr]
  rfl

theorem raw_hdr_A (o : BitVec 8) (g : BitVec 4) (x : BitVec 44) : raw (hdr 6#3 o g x) = rawA (hdr 6#3 o g x) := by
  unfold raw
  rw [classOf_hdr]
  rfl

/-- A syllable with a header: the reading of its fields is all that is to be shown. -/
theorem round_trip_hdr {i : Instr} {c : BitVec 3} {o : BitVec 8} {g : BitVec 4} {x : BitVec 44} (he : encode i = some (hdr c o g x))
    (hc : c.toNat ≠ 7) (hr : raw (hdr c o g x) = some i) : RoundTrip.Statement i := by
  intro w hw h
  rw [he] at h
  cases h
  exact decode_ok (by rwa [classOf_hdr]) hr he (sBit_hdr c o g x) (fld_hdr_idle c o g x) hw

theorem RoundTrip.add (g : BitVec 4) (rd : BitVec 5) (rs1 : BitVec 5) (rs2 : BitVec 5) : RoundTrip.Statement (.add g rd rs1 rs2) := by
  apply round_trip_hdr rfl (by decide)
  simp (disch := omega) only [raw_hdr_S, rawS, fld_hdr_opcode, fld_hdr_guard, fld_hdr_operands, extract_high, extract_low]
  simp only [Nat.reduceSub, BitVec.extractLsb'_eq_self, BitVec.reduceToNat]

theorem RoundTrip.sub (g : BitVec 4) (rd : BitVec 5) (rs1 : BitVec 5) (rs2 : BitVec 5) : RoundTrip.Statement (.sub g rd rs1 rs2) := by
  apply round_trip_hdr rfl (by decide)
  simp (disch := omega) only [raw_hdr_S, rawS, fld_hdr_opcode, fld_hdr_guard, fld_hdr_operands, extract_high, extract_low]
  simp only [Nat.reduceSub, BitVec.extractLsb'_eq_self, BitVec.reduceToNat]

theorem RoundTrip.mul (g : BitVec 4) (rd : BitVec 5) (rs1 : BitVec 5) (rs2 : BitVec 5) : RoundTrip.Statement (.mul g rd rs1 rs2) := by
  apply round_trip_hdr rfl (by decide)
  simp (disch := omega) only [raw_hdr_S, rawS, fld_hdr_opcode, fld_hdr_guard, fld_hdr_operands, extract_high, extract_low]
  simp only [Nat.reduceSub, BitVec.extractLsb'_eq_self, BitVec.reduceToNat]

theorem RoundTrip.mulh (g : BitVec 4) (rd : BitVec 5) (rs1 : BitVec 5) (rs2 : BitVec 5) : RoundTrip.Statement (.mulh g rd rs1 rs2) := by
  apply round_trip_hdr rfl (by decide)
  simp (disch := omega) only [raw_hdr_S, rawS, fld_hdr_opcode, fld_hdr_guard, fld_hdr_operands, extract_high, extract_low]
  simp only [Nat.reduceSub, BitVec.extractLsb'_eq_self, BitVec.reduceToNat]

theorem RoundTrip.mulhn (g : BitVec 4) (rd : BitVec 5) (rs1 : BitVec 5) (rs2 : BitVec 5) : RoundTrip.Statement (.mulhn g rd rs1 rs2) := by
  apply round_trip_hdr rfl (by decide)
  simp (disch := omega) only [raw_hdr_S, rawS, fld_hdr_opcode, fld_hdr_guard, fld_hdr_operands, extract_high, extract_low]
  simp only [Nat.reduceSub, BitVec.extractLsb'_eq_self, BitVec.reduceToNat]

theorem RoundTrip.div (g : BitVec 4) (rd : BitVec 5) (rs1 : BitVec 5) (rs2 : BitVec 5) : RoundTrip.Statement (.div g rd rs1 rs2) := by
  apply round_trip_hdr rfl (by decide)
  simp (disch := omega) only [raw_hdr_S, rawS, fld_hdr_opcode, fld_hdr_guard, fld_hdr_operands, extract_high, extract_low]
  simp only [Nat.reduceSub, BitVec.extractLsb'_eq_self, BitVec.reduceToNat]

theorem RoundTrip.divn (g : BitVec 4) (rd : BitVec 5) (rs1 : BitVec 5) (rs2 : BitVec 5) : RoundTrip.Statement (.divn g rd rs1 rs2) := by
  apply round_trip_hdr rfl (by decide)
  simp (disch := omega) only [raw_hdr_S, rawS, fld_hdr_opcode, fld_hdr_guard, fld_hdr_operands, extract_high, extract_low]
  simp only [Nat.reduceSub, BitVec.extractLsb'_eq_self, BitVec.reduceToNat]

theorem RoundTrip.rem (g : BitVec 4) (rd : BitVec 5) (rs1 : BitVec 5) (rs2 : BitVec 5) : RoundTrip.Statement (.rem g rd rs1 rs2) := by
  apply round_trip_hdr rfl (by decide)
  simp (disch := omega) only [raw_hdr_S, rawS, fld_hdr_opcode, fld_hdr_guard, fld_hdr_operands, extract_high, extract_low]
  simp only [Nat.reduceSub, BitVec.extractLsb'_eq_self, BitVec.reduceToNat]

theorem RoundTrip.remn (g : BitVec 4) (rd : BitVec 5) (rs1 : BitVec 5) (rs2 : BitVec 5) : RoundTrip.Statement (.remn g rd rs1 rs2) := by
  apply round_trip_hdr rfl (by decide)
  simp (disch := omega) only [raw_hdr_S, rawS, fld_hdr_opcode, fld_hdr_guard, fld_hdr_operands, extract_high, extract_low]
  simp only [Nat.reduceSub, BitVec.extractLsb'_eq_self, BitVec.reduceToNat]

theorem RoundTrip.and (g : BitVec 4) (rd : BitVec 5) (rs1 : BitVec 5) (rs2 : BitVec 5) : RoundTrip.Statement (.and g rd rs1 rs2) := by
  apply round_trip_hdr rfl (by decide)
  simp (disch := omega) only [raw_hdr_S, rawS, fld_hdr_opcode, fld_hdr_guard, fld_hdr_operands, extract_high, extract_low]
  simp only [Nat.reduceSub, BitVec.extractLsb'_eq_self, BitVec.reduceToNat]

theorem RoundTrip.or (g : BitVec 4) (rd : BitVec 5) (rs1 : BitVec 5) (rs2 : BitVec 5) : RoundTrip.Statement (.or g rd rs1 rs2) := by
  apply round_trip_hdr rfl (by decide)
  simp (disch := omega) only [raw_hdr_S, rawS, fld_hdr_opcode, fld_hdr_guard, fld_hdr_operands, extract_high, extract_low]
  simp only [Nat.reduceSub, BitVec.extractLsb'_eq_self, BitVec.reduceToNat]

theorem RoundTrip.xor (g : BitVec 4) (rd : BitVec 5) (rs1 : BitVec 5) (rs2 : BitVec 5) : RoundTrip.Statement (.xor g rd rs1 rs2) := by
  apply round_trip_hdr rfl (by decide)
  simp (disch := omega) only [raw_hdr_S, rawS, fld_hdr_opcode, fld_hdr_guard, fld_hdr_operands, extract_high, extract_low]
  simp only [Nat.reduceSub, BitVec.extractLsb'_eq_self, BitVec.reduceToNat]

theorem RoundTrip.andn (g : BitVec 4) (rd : BitVec 5) (rs1 : BitVec 5) (rs2 : BitVec 5) : RoundTrip.Statement (.andn g rd rs1 rs2) := by
  apply round_trip_hdr rfl (by decide)
  simp (disch := omega) only [raw_hdr_S, rawS, fld_hdr_opcode, fld_hdr_guard, fld_hdr_operands, extract_high, extract_low]
  simp only [Nat.reduceSub, BitVec.extractLsb'_eq_self, BitVec.reduceToNat]

theorem RoundTrip.shl (g : BitVec 4) (rd : BitVec 5) (rs1 : BitVec 5) (rs2 : BitVec 5) : RoundTrip.Statement (.shl g rd rs1 rs2) := by
  apply round_trip_hdr rfl (by decide)
  simp (disch := omega) only [raw_hdr_S, rawS, fld_hdr_opcode, fld_hdr_guard, fld_hdr_operands, extract_high, extract_low]
  simp only [Nat.reduceSub, BitVec.extractLsb'_eq_self, BitVec.reduceToNat]

theorem RoundTrip.shr (g : BitVec 4) (rd : BitVec 5) (rs1 : BitVec 5) (rs2 : BitVec 5) : RoundTrip.Statement (.shr g rd rs1 rs2) := by
  apply round_trip_hdr rfl (by decide)
  simp (disch := omega) only [raw_hdr_S, rawS, fld_hdr_opcode, fld_hdr_guard, fld_hdr_operands, extract_high, extract_low]
  simp only [Nat.reduceSub, BitVec.extractLsb'_eq_self, BitVec.reduceToNat]

theorem RoundTrip.sar (g : BitVec 4) (rd : BitVec 5) (rs1 : BitVec 5) (rs2 : BitVec 5) : RoundTrip.Statement (.sar g rd rs1 rs2) := by
  apply round_trip_hdr rfl (by decide)
  simp (disch := omega) only [raw_hdr_S, rawS, fld_hdr_opcode, fld_hdr_guard, fld_hdr_operands, extract_high, extract_low]
  simp only [Nat.reduceSub, BitVec.extractLsb'_eq_self, BitVec.reduceToNat]

theorem RoundTrip.rotr (g : BitVec 4) (rd : BitVec 5) (rs1 : BitVec 5) (rs2 : BitVec 5) : RoundTrip.Statement (.rotr g rd rs1 rs2) := by
  apply round_trip_hdr rfl (by decide)
  simp (disch := omega) only [raw_hdr_S, rawS, fld_hdr_opcode, fld_hdr_guard, fld_hdr_operands, extract_high, extract_low]
  simp only [Nat.reduceSub, BitVec.extractLsb'_eq_self, BitVec.reduceToNat]

theorem RoundTrip.min (g : BitVec 4) (rd : BitVec 5) (rs1 : BitVec 5) (rs2 : BitVec 5) : RoundTrip.Statement (.min g rd rs1 rs2) := by
  apply round_trip_hdr rfl (by decide)
  simp (disch := omega) only [raw_hdr_S, rawS, fld_hdr_opcode, fld_hdr_guard, fld_hdr_operands, extract_high, extract_low]
  simp only [Nat.reduceSub, BitVec.extractLsb'_eq_self, BitVec.reduceToNat]

theorem RoundTrip.max (g : BitVec 4) (rd : BitVec 5) (rs1 : BitVec 5) (rs2 : BitVec 5) : RoundTrip.Statement (.max g rd rs1 rs2) := by
  apply round_trip_hdr rfl (by decide)
  simp (disch := omega) only [raw_hdr_S, rawS, fld_hdr_opcode, fld_hdr_guard, fld_hdr_operands, extract_high, extract_low]
  simp only [Nat.reduceSub, BitVec.extractLsb'_eq_self, BitVec.reduceToNat]

theorem RoundTrip.minn (g : BitVec 4) (rd : BitVec 5) (rs1 : BitVec 5) (rs2 : BitVec 5) : RoundTrip.Statement (.minn g rd rs1 rs2) := by
  apply round_trip_hdr rfl (by decide)
  simp (disch := omega) only [raw_hdr_S, rawS, fld_hdr_opcode, fld_hdr_guard, fld_hdr_operands, extract_high, extract_low]
  simp only [Nat.reduceSub, BitVec.extractLsb'_eq_self, BitVec.reduceToNat]

theorem RoundTrip.maxn (g : BitVec 4) (rd : BitVec 5) (rs1 : BitVec 5) (rs2 : BitVec 5) : RoundTrip.Statement (.maxn g rd rs1 rs2) := by
  apply round_trip_hdr rfl (by decide)
  simp (disch := omega) only [raw_hdr_S, rawS, fld_hdr_opcode, fld_hdr_guard, fld_hdr_operands, extract_high, extract_low]
  simp only [Nat.reduceSub, BitVec.extractLsb'_eq_self, BitVec.reduceToNat]

theorem RoundTrip.clz (g : BitVec 4) (rd : BitVec 5) (rs1 : BitVec 5) : RoundTrip.Statement (.clz g rd rs1) := by
  apply round_trip_hdr rfl (by decide)
  simp (disch := omega) only [raw_hdr_S, rawS, fld_hdr_opcode, fld_hdr_guard, fld_hdr_operands, extract_high, extract_low]
  simp only [Nat.reduceSub, BitVec.extractLsb'_eq_self, BitVec.reduceToNat]

theorem RoundTrip.ctz (g : BitVec 4) (rd : BitVec 5) (rs1 : BitVec 5) : RoundTrip.Statement (.ctz g rd rs1) := by
  apply round_trip_hdr rfl (by decide)
  simp (disch := omega) only [raw_hdr_S, rawS, fld_hdr_opcode, fld_hdr_guard, fld_hdr_operands, extract_high, extract_low]
  simp only [Nat.reduceSub, BitVec.extractLsb'_eq_self, BitVec.reduceToNat]

theorem RoundTrip.popc (g : BitVec 4) (rd : BitVec 5) (rs1 : BitVec 5) : RoundTrip.Statement (.popc g rd rs1) := by
  apply round_trip_hdr rfl (by decide)
  simp (disch := omega) only [raw_hdr_S, rawS, fld_hdr_opcode, fld_hdr_guard, fld_hdr_operands, extract_high, extract_low]
  simp only [Nat.reduceSub, BitVec.extractLsb'_eq_self, BitVec.reduceToNat]

theorem RoundTrip.mov (g : BitVec 4) (rd : BitVec 5) (rs1 : BitVec 5) : RoundTrip.Statement (.mov g rd rs1) := by
  apply round_trip_hdr rfl (by decide)
  simp (disch := omega) only [raw_hdr_S, rawS, fld_hdr_opcode, fld_hdr_guard, fld_hdr_operands, extract_high, extract_low]
  simp only [Nat.reduceSub, BitVec.extractLsb'_eq_self, BitVec.reduceToNat]

theorem RoundTrip.sext (g : BitVec 4) (rd : BitVec 5) (rs1 : BitVec 5) (len : BitVec 6) : RoundTrip.Statement (.sext g rd rs1 len) := by
  apply round_trip_hdr rfl (by decide)
  simp (disch := omega) only [raw_hdr_S, rawS, fld_hdr_opcode, fld_hdr_guard, fld_hdr_operands, extract_high, extract_low]
  simp only [Nat.reduceSub, BitVec.extractLsb'_eq_self, BitVec.reduceToNat]

theorem RoundTrip.zext (g : BitVec 4) (rd : BitVec 5) (rs1 : BitVec 5) (len : BitVec 6) : RoundTrip.Statement (.zext g rd rs1 len) := by
  apply round_trip_hdr rfl (by decide)
  simp (disch := omega) only [raw_hdr_S, rawS, fld_hdr_opcode, fld_hdr_guard, fld_hdr_operands, extract_high, extract_low]
  simp only [Nat.reduceSub, BitVec.extractLsb'_eq_self, BitVec.reduceToNat]

theorem RoundTrip.bfx (g : BitVec 4) (rd : BitVec 5) (rs1 : BitVec 5) (pos : BitVec 6) (len : BitVec 6) : RoundTrip.Statement (.bfx g rd rs1 pos len) := by
  apply round_trip_hdr rfl (by decide)
  simp (disch := omega) only [raw_hdr_S, rawS, fld_hdr_opcode, fld_hdr_guard, fld_hdr_operands, extract_high, extract_low]
  simp only [Nat.reduceSub, BitVec.extractLsb'_eq_self, BitVec.reduceToNat]

theorem RoundTrip.bfi (g : BitVec 4) (rd : BitVec 5) (rs1 : BitVec 5) (rs2 : BitVec 5) (pos : BitVec 6) (len : BitVec 6) : RoundTrip.Statement (.bfi g rd rs1 rs2 pos len) := by
  apply round_trip_hdr rfl (by decide)
  simp (disch := omega) only [raw_hdr_S, rawS, fld_hdr_opcode, fld_hdr_guard, fld_hdr_operands, extract_high, extract_low]
  simp only [Nat.reduceSub, BitVec.extractLsb'_eq_self, BitVec.reduceToNat]

theorem RoundTrip.sel (g : BitVec 4) (rd : BitVec 5) (rs1 : BitVec 5) (rs2 : BitVec 5) (cc : BitVec 3) : RoundTrip.Statement (.sel g rd rs1 rs2 cc) := by
  apply round_trip_hdr rfl (by decide)
  simp (disch := omega) only [raw_hdr_S, rawS, fld_hdr_opcode, fld_hdr_guard, fld_hdr_operands, extract_high, extract_low]
  simp only [Nat.reduceSub, BitVec.extractLsb'_eq_self, BitVec.reduceToNat]

theorem RoundTrip.addi (g : BitVec 4) (rd : BitVec 5) (rs1 : BitVec 5) (imm : BitVec 34) : RoundTrip.Statement (.addi g rd rs1 imm) := by
  apply round_trip_hdr rfl (by decide)
  simp (disch := omega) only [raw_hdr_S, rawS, fld_hdr_opcode, fld_hdr_guard, fld_hdr_operands, extract_high, extract_low]
  simp only [Nat.reduceSub, BitVec.extractLsb'_eq_self, BitVec.reduceToNat]

theorem RoundTrip.andi (g : BitVec 4) (rd : BitVec 5) (rs1 : BitVec 5) (imm : BitVec 34) : RoundTrip.Statement (.andi g rd rs1 imm) := by
  apply round_trip_hdr rfl (by decide)
  simp (disch := omega) only [raw_hdr_S, rawS, fld_hdr_opcode, fld_hdr_guard, fld_hdr_operands, extract_high, extract_low]
  simp only [Nat.reduceSub, BitVec.extractLsb'_eq_self, BitVec.reduceToNat]

theorem RoundTrip.ori (g : BitVec 4) (rd : BitVec 5) (rs1 : BitVec 5) (imm : BitVec 34) : RoundTrip.Statement (.ori g rd rs1 imm) := by
  apply round_trip_hdr rfl (by decide)
  simp (disch := omega) only [raw_hdr_S, rawS, fld_hdr_opcode, fld_hdr_guard, fld_hdr_operands, extract_high, extract_low]
  simp only [Nat.reduceSub, BitVec.extractLsb'_eq_self, BitVec.reduceToNat]

theorem RoundTrip.xori (g : BitVec 4) (rd : BitVec 5) (rs1 : BitVec 5) (imm : BitVec 34) : RoundTrip.Statement (.xori g rd rs1 imm) := by
  apply round_trip_hdr rfl (by decide)
  simp (disch := omega) only [raw_hdr_S, rawS, fld_hdr_opcode, fld_hdr_guard, fld_hdr_operands, extract_high, extract_low]
  simp only [Nat.reduceSub, BitVec.extractLsb'_eq_self, BitVec.reduceToNat]

theorem RoundTrip.shli (g : BitVec 4) (rd : BitVec 5) (rs1 : BitVec 5) (n : BitVec 6) : RoundTrip.Statement (.shli g rd rs1 n) := by
  apply round_trip_hdr rfl (by decide)
  simp (disch := omega) only [raw_hdr_S, rawS, fld_hdr_opcode, fld_hdr_guard, fld_hdr_operands, extract_high, extract_low]
  simp only [Nat.reduceSub, BitVec.extractLsb'_eq_self, BitVec.reduceToNat]

theorem RoundTrip.shri (g : BitVec 4) (rd : BitVec 5) (rs1 : BitVec 5) (n : BitVec 6) : RoundTrip.Statement (.shri g rd rs1 n) := by
  apply round_trip_hdr rfl (by decide)
  simp (disch := omega) only [raw_hdr_S, rawS, fld_hdr_opcode, fld_hdr_guard, fld_hdr_operands, extract_high, extract_low]
  simp only [Nat.reduceSub, BitVec.extractLsb'_eq_self, BitVec.reduceToNat]

theorem RoundTrip.sari (g : BitVec 4) (rd : BitVec 5) (rs1 : BitVec 5) (n : BitVec 6) : RoundTrip.Statement (.sari g rd rs1 n) := by
  apply round_trip_hdr rfl (by decide)
  simp (disch := omega) only [raw_hdr_S, rawS, fld_hdr_opcode, fld_hdr_guard, fld_hdr_operands, extract_high, extract_low]
  simp only [Nat.reduceSub, BitVec.extractLsb'_eq_self, BitVec.reduceToNat]

theorem RoundTrip.li (g : BitVec 4) (rd : BitVec 5) (imm : BitVec 32) : RoundTrip.Statement (.li g rd imm) := by
  apply round_trip_hdr rfl (by decide)
  simp (disch := omega) only [raw_hdr_S, rawS, fld_hdr_opcode, fld_hdr_guard, fld_hdr_operands, extract_high, extract_low]
  simp only [Nat.reduceSub, BitVec.extractLsb'_eq_self, BitVec.reduceToNat]

theorem RoundTrip.lih (g : BitVec 4) (rd : BitVec 5) (imm : BitVec 32) : RoundTrip.Statement (.lih g rd imm) := by
  apply round_trip_hdr rfl (by decide)
  simp (disch := omega) only [raw_hdr_S, rawS, fld_hdr_opcode, fld_hdr_guard, fld_hdr_operands, extract_high, extract_low]
  simp only [Nat.reduceSub, BitVec.extractLsb'_eq_self, BitVec.reduceToNat]

theorem RoundTrip.addpc (g : BitVec 4) (rd : BitVec 5) (imm : BitVec 32) : RoundTrip.Statement (.addpc g rd imm) := by
  apply round_trip_hdr rfl (by decide)
  simp (disch := omega) only [raw_hdr_S, rawS, fld_hdr_opcode, fld_hdr_guard, fld_hdr_operands, extract_high, extract_low]
  simp only [Nat.reduceSub, BitVec.extractLsb'_eq_self, BitVec.reduceToNat]

theorem RoundTrip.cmp (g : BitVec 4) (cd : BitVec 3) (rs1 : BitVec 5) (rs2 : BitVec 5) (cond : BitVec 4) : RoundTrip.Statement (.cmp g cd rs1 rs2 cond) := by
  apply round_trip_hdr rfl (by decide)
  simp (disch := omega) only [raw_hdr_S, rawS, fld_hdr_opcode, fld_hdr_guard, fld_hdr_operands, extract_high, extract_low]
  simp only [Nat.reduceSub, BitVec.extractLsb'_eq_self, BitVec.reduceToNat]

theorem RoundTrip.cmpi (g : BitVec 4) (cd : BitVec 3) (rs1 : BitVec 5) (cond : BitVec 4) (imm : BitVec 30) : RoundTrip.Statement (.cmpi g cd rs1 cond imm) := by
  apply round_trip_hdr rfl (by decide)
  simp (disch := omega) only [raw_hdr_S, rawS, fld_hdr_opcode, fld_hdr_guard, fld_hdr_operands, extract_high, extract_low]
  simp only [Nat.reduceSub, BitVec.extractLsb'_eq_self, BitVec.reduceToNat]

theorem half_high (p : BitVec 8) (a b : BitVec 28) (lo n : Nat) (h : lo + n ≤ 28) :
    fld (p ++ a ++ b) (28 + lo) n = a.extractLsb' lo n := by
  unfold fld
  rw [extract_high _ _ _ _ (by omega), extract_low _ _ _ _ (by omega)]
  congr 1
  omega

theorem half_low (p : BitVec 8) (a b : BitVec 28) (lo n : Nat) (h : lo + n ≤ 28) : fld (p ++ a ++ b) lo n = b.extractLsb' lo n :=
  extract_low _ _ _ _ (by omega)

/-- The fields of a twin half are the half. -/
theorem half_fields (h : TwinHalf) :
    h.bits.extractLsb' 23 5 = h.op ∧ h.bits.extractLsb' 18 5 = h.rd ∧ h.bits.extractLsb' 13 5 = h.rs1 ∧ h.bits.extractLsb' 12 1 = h.i ∧
    h.bits.extractLsb' 0 12 = h.low := by
  unfold TwinHalf.bits
  refine ⟨?_, ?_, ?_, ?_, ?_⟩ <;>
    simp (disch := omega) only [extract_high, extract_low, Nat.reduceSub, BitVec.extractLsb'_eq_self]

theorem RoundTrip.twin (a b : TwinHalf) : RoundTrip.Statement (.twin a b) := by
  intro w hw h
  have hp : (0#1 ++ 1#3 ++ 0#4 : BitVec 8) = 0x10#8 := rfl
  have he : encode (.twin a b) = some (0#1 ++ 1#3 ++ 0#4 ++ a.bits ++ b.bits) := rfl
  rw [he] at h
  cases h
  rw [hp] at he ⊢
  obtain ⟨ao, ad, as, ai, al⟩ := half_fields a
  obtain ⟨bo, bd, bs, bi, bl⟩ := half_fields b
  have high : ∀ lo n, lo + n ≤ 8 → fld ((0x10#8 ++ a.bits) ++ b.bits) (56 + lo) n = (0x10#8).extractLsb' lo n := by
    intro lo n _
    unfold fld
    rw [extract_high _ _ _ _ (by omega), extract_high _ _ _ _ (by omega)]
    congr 1
    omega
  have hc : classOf (0x10#8 ++ a.bits ++ b.bits) = 1 := by
    unfold classOf
    rw [high 4 3 (by omega)]
    rfl
  have ha : halfAt (0x10#8 ++ a.bits ++ b.bits) 28 = a := by
    unfold halfAt
    rw [half_high _ _ _ 23 5 (by omega), half_high _ _ _ 18 5 (by omega), half_high _ _ _ 13 5 (by omega), half_high _ _ _ 12 1 (by omega),
      half_high _ _ _ 0 12 (by omega), ao, ad, as, ai, al]
  have hb : halfAt (0x10#8 ++ a.bits ++ b.bits) 0 = b := by
    unfold halfAt
    simp only [Nat.zero_add]
    rw [half_low _ _ _ 23 5 (by omega), half_low _ _ _ 18 5 (by omega), half_low _ _ _ 13 5 (by omega), half_low _ _ _ 12 1 (by omega),
      half_low _ _ _ 0 12 (by omega), bo, bd, bs, bi, bl]
  refine decode_ok (by omega) ?_ he ?_ ?_ hw
  · unfold raw
    rw [hc]
    show rawT _ = _
    unfold rawT
    rw [ha, hb]
  · have := congrArg (fun v => v.getLsbD 0) (high 7 1 (by omega))
    simpa [fld, BitVec.getLsbD_extractLsb'] using this
  · rw [high 0 4 (by omega)]
    rfl

theorem RoundTrip.nop (g : BitVec 4) : RoundTrip.Statement (.nop g) := by
  apply round_trip_hdr rfl (by decide)
  simp (disch := omega) only [raw_hdr_B, rawB, fld_hdr_opcode, fld_hdr_guard, fld_hdr_operands, extract_high, extract_low]
  simp only [Nat.reduceSub, BitVec.extractLsb'_eq_self, BitVec.reduceToNat]

theorem RoundTrip.pbr (g : BitVec 4) (bd : BitVec 3) (off : BitVec 32) : RoundTrip.Statement (.pbr g bd off) := by
  apply round_trip_hdr rfl (by decide)
  simp (disch := omega) only [raw_hdr_B, rawB, fld_hdr_opcode, fld_hdr_guard, fld_hdr_operands, extract_high, extract_low]
  simp only [Nat.reduceSub, BitVec.extractLsb'_eq_self, BitVec.reduceToNat]

theorem RoundTrip.pbrx (g : BitVec 4) (bd : BitVec 3) (rs : BitVec 5) : RoundTrip.Statement (.pbrx g bd rs) := by
  apply round_trip_hdr rfl (by decide)
  simp (disch := omega) only [raw_hdr_B, rawB, fld_hdr_opcode, fld_hdr_guard, fld_hdr_operands, extract_high, extract_low]
  simp only [Nat.reduceSub, BitVec.extractLsb'_eq_self, BitVec.reduceToNat]

theorem RoundTrip.br (g : BitVec 4) (bd : BitVec 3) : RoundTrip.Statement (.br g bd) := by
  apply round_trip_hdr rfl (by decide)
  simp (disch := omega) only [raw_hdr_B, rawB, fld_hdr_opcode, fld_hdr_guard, fld_hdr_operands, extract_high, extract_low]
  simp only [Nat.reduceSub, BitVec.extractLsb'_eq_self, BitVec.reduceToNat]

theorem RoundTrip.call (g : BitVec 4) (bd : BitVec 3) (fr : BitVec 3) : RoundTrip.Statement (.call g bd fr) := by
  apply round_trip_hdr rfl (by decide)
  simp (disch := omega) only [raw_hdr_B, rawB, fld_hdr_opcode, fld_hdr_guard, fld_hdr_operands, extract_high, extract_low]
  simp only [Nat.reduceSub, BitVec.extractLsb'_eq_self, BitVec.reduceToNat]

theorem RoundTrip.ret (g : BitVec 4) : RoundTrip.Statement (.ret g) := by
  apply round_trip_hdr rfl (by decide)
  simp (disch := omega) only [raw_hdr_B, rawB, fld_hdr_opcode, fld_hdr_guard, fld_hdr_operands, extract_high, extract_low]
  simp only [Nat.reduceSub, BitVec.extractLsb'_eq_self, BitVec.reduceToNat]

theorem RoundTrip.loop (g : BitVec 4) (lv : BitVec 3) (stop : BitVec 17) (trip : BitVec 24) : RoundTrip.Statement (.loop g lv stop trip) := by
  apply round_trip_hdr rfl (by decide)
  simp (disch := omega) only [raw_hdr_B, rawB, fld_hdr_opcode, fld_hdr_guard, fld_hdr_operands, extract_high, extract_low]
  simp only [Nat.reduceSub, BitVec.extractLsb'_eq_self, BitVec.reduceToNat]

theorem RoundTrip.loopx (g : BitVec 4) (lv : BitVec 3) (stop : BitVec 17) (rs : BitVec 5) : RoundTrip.Statement (.loopx g lv stop rs) := by
  apply round_trip_hdr rfl (by decide)
  simp (disch := omega) only [raw_hdr_B, rawB, fld_hdr_opcode, fld_hdr_guard, fld_hdr_operands, extract_high, extract_low]
  simp only [Nat.reduceSub, BitVec.extractLsb'_eq_self, BitVec.reduceToNat]

theorem RoundTrip.loopR (g : BitVec 4) (lv : BitVec 3) (stop : BitVec 12) (stg : BitVec 3) (vb : BitVec 10) (sm : BitVec 6) (trip : BitVec 10) : RoundTrip.Statement (.loopR g lv stop stg vb sm trip) := by
  apply round_trip_hdr rfl (by decide)
  simp (disch := omega) only [raw_hdr_B, rawB, fld_hdr_opcode, fld_hdr_guard, fld_hdr_operands, extract_high, extract_low]
  simp only [Nat.reduceSub, BitVec.extractLsb'_eq_self, BitVec.reduceToNat]

theorem RoundTrip.loopxR (g : BitVec 4) (lv : BitVec 3) (stop : BitVec 12) (stg : BitVec 3) (vb : BitVec 10) (sm : BitVec 6) (rs : BitVec 5) : RoundTrip.Statement (.loopxR g lv stop stg vb sm rs) := by
  apply round_trip_hdr rfl (by decide)
  simp (disch := omega) only [raw_hdr_B, rawB, fld_hdr_opcode, fld_hdr_guard, fld_hdr_operands, extract_high, extract_low]
  simp only [Nat.reduceSub, BitVec.extractLsb'_eq_self, BitVec.reduceToNat]

theorem RoundTrip.lexit (g : BitVec 4) (lv : BitVec 3) : RoundTrip.Statement (.lexit g lv) := by
  apply round_trip_hdr rfl (by decide)
  simp (disch := omega) only [raw_hdr_B, rawB, fld_hdr_opcode, fld_hdr_guard, fld_hdr_operands, extract_high, extract_low]
  simp only [Nat.reduceSub, BitVec.extractLsb'_eq_self, BitVec.reduceToNat]

theorem RoundTrip.align (g : BitVec 4) : RoundTrip.Statement (.align g) := by
  apply round_trip_hdr rfl (by decide)
  simp (disch := omega) only [raw_hdr_B, rawB, fld_hdr_opcode, fld_hdr_guard, fld_hdr_operands, extract_high, extract_low]
  simp only [Nat.reduceSub, BitVec.extractLsb'_eq_self, BitVec.reduceToNat]

theorem RoundTrip.contour (g : BitVec 4) (id : BitVec 16) : RoundTrip.Statement (.contour g id) := by
  apply round_trip_hdr rfl (by decide)
  simp (disch := omega) only [raw_hdr_B, rawB, fld_hdr_opcode, fld_hdr_guard, fld_hdr_operands, extract_high, extract_low]
  simp only [Nat.reduceSub, BitVec.extractLsb'_eq_self, BitVec.reduceToNat]

theorem RoundTrip.wait (g : BitVec 4) (n : BitVec 24) : RoundTrip.Statement (.wait g n) := by
  apply round_trip_hdr rfl (by decide)
  simp (disch := omega) only [raw_hdr_B, rawB, fld_hdr_opcode, fld_hdr_guard, fld_hdr_operands, extract_high, extract_low]
  simp only [Nat.reduceSub, BitVec.extractLsb'_eq_self, BitVec.reduceToNat]

theorem RoundTrip.clkdiv (g : BitVec 4) (rs : BitVec 5) : RoundTrip.Statement (.clkdiv g rs) := by
  apply round_trip_hdr rfl (by decide)
  simp (disch := omega) only [raw_hdr_B, rawB, fld_hdr_opcode, fld_hdr_guard, fld_hdr_operands, extract_high, extract_low]
  simp only [Nat.reduceSub, BitVec.extractLsb'_eq_self, BitVec.reduceToNat]

theorem RoundTrip.mfs (g : BitVec 4) (rd : BitVec 5) (sys : BitVec 12) : RoundTrip.Statement (.mfs g rd sys) := by
  apply round_trip_hdr rfl (by decide)
  simp (disch := omega) only [raw_hdr_B, rawB, fld_hdr_opcode, fld_hdr_guard, fld_hdr_operands, extract_high, extract_low]
  simp only [Nat.reduceSub, BitVec.extractLsb'_eq_self, BitVec.reduceToNat]

theorem RoundTrip.mts (g : BitVec 4) (rs : BitVec 5) (sys : BitVec 12) : RoundTrip.Statement (.mts g rs sys) := by
  apply round_trip_hdr rfl (by decide)
  simp (disch := omega) only [raw_hdr_B, rawB, fld_hdr_opcode, fld_hdr_guard, fld_hdr_operands, extract_high, extract_low]
  simp only [Nat.reduceSub, BitVec.extractLsb'_eq_self, BitVec.reduceToNat]

theorem RoundTrip.exit (g : BitVec 4) : RoundTrip.Statement (.exit g) := by
  apply round_trip_hdr rfl (by decide)
  simp (disch := omega) only [raw_hdr_B, rawB, fld_hdr_opcode, fld_hdr_guard, fld_hdr_operands, extract_high, extract_low]
  simp only [Nat.reduceSub, BitVec.extractLsb'_eq_self, BitVec.reduceToNat]

theorem RoundTrip.trap (g : BitVec 4) (code : BitVec 16) : RoundTrip.Statement (.trap g code) := by
  apply round_trip_hdr rfl (by decide)
  simp (disch := omega) only [raw_hdr_B, rawB, fld_hdr_opcode, fld_hdr_guard, fld_hdr_operands, extract_high, extract_low]
  simp only [Nat.reduceSub, BitVec.extractLsb'_eq_self, BitVec.reduceToNat]

theorem RoundTrip.bkpt (g : BitVec 4) (code : BitVec 16) : RoundTrip.Statement (.bkpt g code) := by
  apply round_trip_hdr rfl (by decide)
  simp (disch := omega) only [raw_hdr_B, rawB, fld_hdr_opcode, fld_hdr_guard, fld_hdr_operands, extract_high, extract_low]
  simp only [Nat.reduceSub, BitVec.extractLsb'_eq_self, BitVec.reduceToNat]

theorem RoundTrip.trmark (g : BitVec 4) (tag : BitVec 32) : RoundTrip.Statement (.trmark g tag) := by
  apply round_trip_hdr rfl (by decide)
  simp (disch := omega) only [raw_hdr_B, rawB, fld_hdr_opcode, fld_hdr_guard, fld_hdr_operands, extract_high, extract_low]
  simp only [Nat.reduceSub, BitVec.extractLsb'_eq_self, BitVec.reduceToNat]

theorem RoundTrip.fix (g : BitVec 4) : RoundTrip.Statement (.fix g) := by
  apply round_trip_hdr rfl (by decide)
  simp (disch := omega) only [raw_hdr_B, rawB, fld_hdr_opcode, fld_hdr_guard, fld_hdr_operands, extract_high, extract_low]
  simp only [Nat.reduceSub, BitVec.extractLsb'_eq_self, BitVec.reduceToNat]

theorem RoundTrip.resume (g : BitVec 4) (rs1 : BitVec 5) : RoundTrip.Statement (.resume g rs1) := by
  apply round_trip_hdr rfl (by decide)
  simp (disch := omega) only [raw_hdr_B, rawB, fld_hdr_opcode, fld_hdr_guard, fld_hdr_operands, extract_high, extract_low]
  simp only [Nat.reduceSub, BitVec.extractLsb'_eq_self, BitVec.reduceToNat]

theorem RoundTrip.svchk (g : BitVec 4) (rd : BitVec 5) (rs1 : BitVec 5) : RoundTrip.Statement (.svchk g rd rs1) := by
  apply round_trip_hdr rfl (by decide)
  simp (disch := omega) only [raw_hdr_B, rawB, fld_hdr_opcode, fld_hdr_guard, fld_hdr_operands, extract_high, extract_low]
  simp only [Nat.reduceSub, BitVec.extractLsb'_eq_self, BitVec.reduceToNat]

theorem RoundTrip.vadd (g : BitVec 4) (vd : BitVec 10) (va : BitVec 10) (vb : BitVec 10) (rnd : BitVec 4) : RoundTrip.Statement (.vadd g vd va vb rnd) := by
  apply round_trip_hdr rfl (by decide)
  simp (disch := omega) only [raw_hdr_V, rawV, fld_hdr_opcode, fld_hdr_guard, fld_hdr_operands, extract_high, extract_low]
  simp only [Nat.reduceSub, BitVec.extractLsb'_eq_self, BitVec.reduceToNat]

theorem RoundTrip.vsub (g : BitVec 4) (vd : BitVec 10) (va : BitVec 10) (vb : BitVec 10) (rnd : BitVec 4) : RoundTrip.Statement (.vsub g vd va vb rnd) := by
  apply round_trip_hdr rfl (by decide)
  simp (disch := omega) only [raw_hdr_V, rawV, fld_hdr_opcode, fld_hdr_guard, fld_hdr_operands, extract_high, extract_low]
  simp only [Nat.reduceSub, BitVec.extractLsb'_eq_self, BitVec.reduceToNat]

theorem RoundTrip.vmul (g : BitVec 4) (vd : BitVec 10) (va : BitVec 10) (vb : BitVec 10) (rnd : BitVec 4) : RoundTrip.Statement (.vmul g vd va vb rnd) := by
  apply round_trip_hdr rfl (by decide)
  simp (disch := omega) only [raw_hdr_V, rawV, fld_hdr_opcode, fld_hdr_guard, fld_hdr_operands, extract_high, extract_low]
  simp only [Nat.reduceSub, BitVec.extractLsb'_eq_self, BitVec.reduceToNat]

theorem RoundTrip.vfma (g : BitVec 4) (vd : BitVec 10) (va : BitVec 10) (vb : BitVec 10) (vc : BitVec 10) (rnd : BitVec 4) : RoundTrip.Statement (.vfma g vd va vb vc rnd) := by
  apply round_trip_hdr rfl (by decide)
  simp (disch := omega) only [raw_hdr_V, rawV, fld_hdr_opcode, fld_hdr_guard, fld_hdr_operands, extract_high, extract_low]
  simp only [Nat.reduceSub, BitVec.extractLsb'_eq_self, BitVec.reduceToNat]

theorem RoundTrip.vfms (g : BitVec 4) (vd : BitVec 10) (va : BitVec 10) (vb : BitVec 10) (vc : BitVec 10) (rnd : BitVec 4) : RoundTrip.Statement (.vfms g vd va vb vc rnd) := by
  apply round_trip_hdr rfl (by decide)
  simp (disch := omega) only [raw_hdr_V, rawV, fld_hdr_opcode, fld_hdr_guard, fld_hdr_operands, extract_high, extract_low]
  simp only [Nat.reduceSub, BitVec.extractLsb'_eq_self, BitVec.reduceToNat]

theorem RoundTrip.vmin (g : BitVec 4) (vd : BitVec 10) (va : BitVec 10) (vb : BitVec 10) : RoundTrip.Statement (.vmin g vd va vb) := by
  apply round_trip_hdr rfl (by decide)
  simp (disch := omega) only [raw_hdr_V, rawV, fld_hdr_opcode, fld_hdr_guard, fld_hdr_operands, extract_high, extract_low]
  simp only [Nat.reduceSub, BitVec.extractLsb'_eq_self, BitVec.reduceToNat]

theorem RoundTrip.vmax (g : BitVec 4) (vd : BitVec 10) (va : BitVec 10) (vb : BitVec 10) : RoundTrip.Statement (.vmax g vd va vb) := by
  apply round_trip_hdr rfl (by decide)
  simp (disch := omega) only [raw_hdr_V, rawV, fld_hdr_opcode, fld_hdr_guard, fld_hdr_operands, extract_high, extract_low]
  simp only [Nat.reduceSub, BitVec.extractLsb'_eq_self, BitVec.reduceToNat]

theorem RoundTrip.vabs (g : BitVec 4) (vd : BitVec 10) (va : BitVec 10) : RoundTrip.Statement (.vabs g vd va) := by
  apply round_trip_hdr rfl (by decide)
  simp (disch := omega) only [raw_hdr_V, rawV, fld_hdr_opcode, fld_hdr_guard, fld_hdr_operands, extract_high, extract_low]
  simp only [Nat.reduceSub, BitVec.extractLsb'_eq_self, BitVec.reduceToNat]

theorem RoundTrip.vneg (g : BitVec 4) (vd : BitVec 10) (va : BitVec 10) : RoundTrip.Statement (.vneg g vd va) := by
  apply round_trip_hdr rfl (by decide)
  simp (disch := omega) only [raw_hdr_V, rawV, fld_hdr_opcode, fld_hdr_guard, fld_hdr_operands, extract_high, extract_low]
  simp only [Nat.reduceSub, BitVec.extractLsb'_eq_self, BitVec.reduceToNat]

theorem RoundTrip.vadds (g : BitVec 4) (vd : BitVec 10) (va : BitVec 10) (vb : BitVec 10) (rnd : BitVec 4) : RoundTrip.Statement (.vadds g vd va vb rnd) := by
  apply round_trip_hdr rfl (by decide)
  simp (disch := omega) only [raw_hdr_V, rawV, fld_hdr_opcode, fld_hdr_guard, fld_hdr_operands, extract_high, extract_low]
  simp only [Nat.reduceSub, BitVec.extractLsb'_eq_self, BitVec.reduceToNat]

theorem RoundTrip.vsubs (g : BitVec 4) (vd : BitVec 10) (va : BitVec 10) (vb : BitVec 10) (rnd : BitVec 4) : RoundTrip.Statement (.vsubs g vd va vb rnd) := by
  apply round_trip_hdr rfl (by decide)
  simp (disch := omega) only [raw_hdr_V, rawV, fld_hdr_opcode, fld_hdr_guard, fld_hdr_operands, extract_high, extract_low]
  simp only [Nat.reduceSub, BitVec.extractLsb'_eq_self, BitVec.reduceToNat]

theorem RoundTrip.vmullo (g : BitVec 4) (vd : BitVec 10) (va : BitVec 10) (vb : BitVec 10) : RoundTrip.Statement (.vmullo g vd va vb) := by
  apply round_trip_hdr rfl (by decide)
  simp (disch := omega) only [raw_hdr_V, rawV, fld_hdr_opcode, fld_hdr_guard, fld_hdr_operands, extract_high, extract_low]
  simp only [Nat.reduceSub, BitVec.extractLsb'_eq_self, BitVec.reduceToNat]

theorem RoundTrip.vmulh (g : BitVec 4) (vd : BitVec 10) (va : BitVec 10) (vb : BitVec 10) (u : BitVec 4) : RoundTrip.Statement (.vmulh g vd va vb u) := by
  apply round_trip_hdr rfl (by decide)
  simp (disch := omega) only [raw_hdr_V, rawV, fld_hdr_opcode, fld_hdr_guard, fld_hdr_operands, extract_high, extract_low]
  simp only [Nat.reduceSub, BitVec.extractLsb'_eq_self, BitVec.reduceToNat]

theorem RoundTrip.vrshr (g : BitVec 4) (vd : BitVec 10) (va : BitVec 10) (n : BitVec 6) : RoundTrip.Statement (.vrshr g vd va n) := by
  apply round_trip_hdr rfl (by decide)
  simp (disch := omega) only [raw_hdr_V, rawV, fld_hdr_opcode, fld_hdr_guard, fld_hdr_operands, extract_high, extract_low]
  simp only [Nat.reduceSub, BitVec.extractLsb'_eq_self, BitVec.reduceToNat]

theorem RoundTrip.vshl (g : BitVec 4) (vd : BitVec 10) (va : BitVec 10) (n : BitVec 6) : RoundTrip.Statement (.vshl g vd va n) := by
  apply round_trip_hdr rfl (by decide)
  simp (disch := omega) only [raw_hdr_V, rawV, fld_hdr_opcode, fld_hdr_guard, fld_hdr_operands, extract_high, extract_low]
  simp only [Nat.reduceSub, BitVec.extractLsb'_eq_self, BitVec.reduceToNat]

theorem RoundTrip.vshr (g : BitVec 4) (vd : BitVec 10) (va : BitVec 10) (n : BitVec 6) : RoundTrip.Statement (.vshr g vd va n) := by
  apply round_trip_hdr rfl (by decide)
  simp (disch := omega) only [raw_hdr_V, rawV, fld_hdr_opcode, fld_hdr_guard, fld_hdr_operands, extract_high, extract_low]
  simp only [Nat.reduceSub, BitVec.extractLsb'_eq_self, BitVec.reduceToNat]

theorem RoundTrip.vsar (g : BitVec 4) (vd : BitVec 10) (va : BitVec 10) (n : BitVec 6) : RoundTrip.Statement (.vsar g vd va n) := by
  apply round_trip_hdr rfl (by decide)
  simp (disch := omega) only [raw_hdr_V, rawV, fld_hdr_opcode, fld_hdr_guard, fld_hdr_operands, extract_high, extract_low]
  simp only [Nat.reduceSub, BitVec.extractLsb'_eq_self, BitVec.reduceToNat]

theorem RoundTrip.vand (g : BitVec 4) (vd : BitVec 10) (va : BitVec 10) (vb : BitVec 10) : RoundTrip.Statement (.vand g vd va vb) := by
  apply round_trip_hdr rfl (by decide)
  simp (disch := omega) only [raw_hdr_V, rawV, fld_hdr_opcode, fld_hdr_guard, fld_hdr_operands, extract_high, extract_low]
  simp only [Nat.reduceSub, BitVec.extractLsb'_eq_self, BitVec.reduceToNat]

theorem RoundTrip.vor (g : BitVec 4) (vd : BitVec 10) (va : BitVec 10) (vb : BitVec 10) : RoundTrip.Statement (.vor g vd va vb) := by
  apply round_trip_hdr rfl (by decide)
  simp (disch := omega) only [raw_hdr_V, rawV, fld_hdr_opcode, fld_hdr_guard, fld_hdr_operands, extract_high, extract_low]
  simp only [Nat.reduceSub, BitVec.extractLsb'_eq_self, BitVec.reduceToNat]

theorem RoundTrip.vxor (g : BitVec 4) (vd : BitVec 10) (va : BitVec 10) (vb : BitVec 10) : RoundTrip.Statement (.vxor g vd va vb) := by
  apply round_trip_hdr rfl (by decide)
  simp (disch := omega) only [raw_hdr_V, rawV, fld_hdr_opcode, fld_hdr_guard, fld_hdr_operands, extract_high, extract_low]
  simp only [Nat.reduceSub, BitVec.extractLsb'_eq_self, BitVec.reduceToNat]

theorem RoundTrip.vnot (g : BitVec 4) (vd : BitVec 10) (va : BitVec 10) : RoundTrip.Statement (.vnot g vd va) := by
  apply round_trip_hdr rfl (by decide)
  simp (disch := omega) only [raw_hdr_V, rawV, fld_hdr_opcode, fld_hdr_guard, fld_hdr_operands, extract_high, extract_low]
  simp only [Nat.reduceSub, BitVec.extractLsb'_eq_self, BitVec.reduceToNat]

theorem RoundTrip.vcmp (g : BitVec 4) (pd : BitVec 4) (va : BitVec 10) (vb : BitVec 10) (cond : BitVec 4) : RoundTrip.Statement (.vcmp g pd va vb cond) := by
  apply round_trip_hdr rfl (by decide)
  simp (disch := omega) only [raw_hdr_V, rawV, fld_hdr_opcode, fld_hdr_guard, fld_hdr_operands, extract_high, extract_low]
  simp only [Nat.reduceSub, BitVec.extractLsb'_eq_self, BitVec.reduceToNat]

theorem RoundTrip.vsel (g : BitVec 4) (vd : BitVec 10) (va : BitVec 10) (vb : BitVec 10) (ps : BitVec 4) : RoundTrip.Statement (.vsel g vd va vb ps) := by
  apply round_trip_hdr rfl (by decide)
  simp (disch := omega) only [raw_hdr_V, rawV, fld_hdr_opcode, fld_hdr_guard, fld_hdr_operands, extract_high, extract_low]
  simp only [Nat.reduceSub, BitVec.extractLsb'_eq_self, BitVec.reduceToNat]

theorem RoundTrip.vmov (g : BitVec 4) (vd : BitVec 10) (va : BitVec 10) : RoundTrip.Statement (.vmov g vd va) := by
  apply round_trip_hdr rfl (by decide)
  simp (disch := omega) only [raw_hdr_V, rawV, fld_hdr_opcode, fld_hdr_guard, fld_hdr_operands, extract_high, extract_low]
  simp only [Nat.reduceSub, BitVec.extractLsb'_eq_self, BitVec.reduceToNat]

theorem RoundTrip.vmovi (g : BitVec 4) (vd : BitVec 10) (imm : BitVec 24) : RoundTrip.Statement (.vmovi g vd imm) := by
  apply round_trip_hdr rfl (by decide)
  simp (disch := omega) only [raw_hdr_V, rawV, fld_hdr_opcode, fld_hdr_guard, fld_hdr_operands, extract_high, extract_low]
  simp only [Nat.reduceSub, BitVec.extractLsb'_eq_self, BitVec.reduceToNat]

theorem RoundTrip.vbc (g : BitVec 4) (vd : BitVec 10) (rs : BitVec 5) : RoundTrip.Statement (.vbc g vd rs) := by
  apply round_trip_hdr rfl (by decide)
  simp (disch := omega) only [raw_hdr_V, rawV, fld_hdr_opcode, fld_hdr_guard, fld_hdr_operands, extract_high, extract_low]
  simp only [Nat.reduceSub, BitVec.extractLsb'_eq_self, BitVec.reduceToNat]

theorem RoundTrip.viota (g : BitVec 4) (vd : BitVec 10) (imm : BitVec 24) : RoundTrip.Statement (.viota g vd imm) := by
  apply round_trip_hdr rfl (by decide)
  simp (disch := omega) only [raw_hdr_V, rawV, fld_hdr_opcode, fld_hdr_guard, fld_hdr_operands, extract_high, extract_low]
  simp only [Nat.reduceSub, BitVec.extractLsb'_eq_self, BitVec.reduceToNat]

theorem RoundTrip.vperm (g : BitVec 4) (vd : BitVec 10) (va : BitVec 10) (vi : BitVec 10) (vb : BitVec 10) : RoundTrip.Statement (.vperm g vd va vi vb) := by
  apply round_trip_hdr rfl (by decide)
  simp (disch := omega) only [raw_hdr_V, rawV, fld_hdr_opcode, fld_hdr_guard, fld_hdr_operands, extract_high, extract_low]
  simp only [Nat.reduceSub, BitVec.extractLsb'_eq_self, BitVec.reduceToNat]

theorem RoundTrip.vrotl (g : BitVec 4) (vd : BitVec 10) (va : BitVec 10) (n : BitVec 6) : RoundTrip.Statement (.vrotl g vd va n) := by
  apply round_trip_hdr rfl (by decide)
  simp (disch := omega) only [raw_hdr_V, rawV, fld_hdr_opcode, fld_hdr_guard, fld_hdr_operands, extract_high, extract_low]
  simp only [Nat.reduceSub, BitVec.extractLsb'_eq_self, BitVec.reduceToNat]

theorem RoundTrip.vcvt (g : BitVec 4) (vd : BitVec 10) (va : BitVec 10) (rnd : BitVec 4) : RoundTrip.Statement (.vcvt g vd va rnd) := by
  apply round_trip_hdr rfl (by decide)
  simp (disch := omega) only [raw_hdr_V, rawV, fld_hdr_opcode, fld_hdr_guard, fld_hdr_operands, extract_high, extract_low]
  simp only [Nat.reduceSub, BitVec.extractLsb'_eq_self, BitVec.reduceToNat]

theorem RoundTrip.vpack (g : BitVec 4) (vd : BitVec 10) (va : BitVec 10) (vb : BitVec 10) (tg : BitVec 4) (rnd : BitVec 4) : RoundTrip.Statement (.vpack g vd va vb tg rnd) := by
  apply round_trip_hdr rfl (by decide)
  simp (disch := omega) only [raw_hdr_V, rawV, fld_hdr_opcode, fld_hdr_guard, fld_hdr_operands, extract_high, extract_low]
  simp only [Nat.reduceSub, BitVec.extractLsb'_eq_self, BitVec.reduceToNat]

theorem RoundTrip.vunpk (g : BitVec 4) (vd : BitVec 10) (va : BitVec 10) (pt : BitVec 2) (tg : BitVec 4) (rnd : BitVec 4) : RoundTrip.Statement (.vunpk g vd va pt tg rnd) := by
  apply round_trip_hdr rfl (by decide)
  simp (disch := omega) only [raw_hdr_V, rawV, fld_hdr_opcode, fld_hdr_guard, fld_hdr_operands, extract_high, extract_low]
  simp only [Nat.reduceSub, BitVec.extractLsb'_eq_self, BitVec.reduceToNat]

theorem RoundTrip.vqbx (g : BitVec 4) (vd : BitVec 10) (va : BitVec 10) (bf : BitVec 4) (rnd : BitVec 4) : RoundTrip.Statement (.vqbx g vd va bf rnd) := by
  apply round_trip_hdr rfl (by decide)
  simp (disch := omega) only [raw_hdr_V, rawV, fld_hdr_opcode, fld_hdr_guard, fld_hdr_operands, extract_high, extract_low]
  simp only [Nat.reduceSub, BitVec.extractLsb'_eq_self, BitVec.reduceToNat]

theorem RoundTrip.vdqbx (g : BitVec 4) (vd : BitVec 10) (va : BitVec 10) (bf : BitVec 4) : RoundTrip.Statement (.vdqbx g vd va bf) := by
  apply round_trip_hdr rfl (by decide)
  simp (disch := omega) only [raw_hdr_V, rawV, fld_hdr_opcode, fld_hdr_guard, fld_hdr_operands, extract_high, extract_low]
  simp only [Nat.reduceSub, BitVec.extractLsb'_eq_self, BitVec.reduceToNat]

theorem RoundTrip.vred (g : BitVec 4) (vd : BitVec 10) (va : BitVec 10) (op : BitVec 2) (rnd : BitVec 4) : RoundTrip.Statement (.vred g vd va op rnd) := by
  apply round_trip_hdr rfl (by decide)
  simp (disch := omega) only [raw_hdr_V, rawV, fld_hdr_opcode, fld_hdr_guard, fld_hdr_operands, extract_high, extract_low]
  simp only [Nat.reduceSub, BitVec.extractLsb'_eq_self, BitVec.reduceToNat]

theorem RoundTrip.vflag (g : BitVec 4) (dst : BitVec 5) (ps : BitVec 4) (kd : BitVec 2) : RoundTrip.Statement (.vflag g dst ps kd) := by
  apply round_trip_hdr rfl (by decide)
  simp (disch := omega) only [raw_hdr_V, rawV, fld_hdr_opcode, fld_hdr_guard, fld_hdr_operands, extract_high, extract_low]
  simp only [Nat.reduceSub, BitVec.extractLsb'_eq_self, BitVec.reduceToNat]

theorem RoundTrip.vclamp (g : BitVec 4) (vd : BitVec 10) (va : BitVec 10) (vb : BitVec 10) (vc : BitVec 10) : RoundTrip.Statement (.vclamp g vd va vb vc) := by
  apply round_trip_hdr rfl (by decide)
  simp (disch := omega) only [raw_hdr_V, rawV, fld_hdr_opcode, fld_hdr_guard, fld_hdr_operands, extract_high, extract_low]
  simp only [Nat.reduceSub, BitVec.extractLsb'_eq_self, BitVec.reduceToNat]

theorem RoundTrip.vsend (g : BitVec 4) (va : BitVec 10) (dir : BitVec 3) : RoundTrip.Statement (.vsend g va dir) := by
  apply round_trip_hdr rfl (by decide)
  simp (disch := omega) only [raw_hdr_V, rawV, fld_hdr_opcode, fld_hdr_guard, fld_hdr_operands, extract_high, extract_low]
  simp only [Nat.reduceSub, BitVec.extractLsb'_eq_self, BitVec.reduceToNat]

theorem RoundTrip.fmt (g : BitVec 4) (rs : BitVec 5) : RoundTrip.Statement (.fmt g rs) := by
  apply round_trip_hdr rfl (by decide)
  simp (disch := omega) only [raw_hdr_M, rawM, fld_hdr_opcode, fld_hdr_guard, fld_hdr_operands, extract_high, extract_low]
  simp only [Nat.reduceSub, BitVec.extractLsb'_eq_self, BitVec.reduceToNat]

theorem RoundTrip.fmti (g : BitVec 4) (t : BitVec 4) : RoundTrip.Statement (.fmti g t) := by
  apply round_trip_hdr rfl (by decide)
  simp (disch := omega) only [raw_hdr_M, rawM, fld_hdr_opcode, fld_hdr_guard, fld_hdr_operands, extract_high, extract_low]
  simp only [Nat.reduceSub, BitVec.extractLsb'_eq_self, BitVec.reduceToNat]

theorem RoundTrip.acq (g : BitVec 4) (n : BitVec 6) (ty : BitVec 2) (z : BitVec 1) : RoundTrip.Statement (.acq g n ty z) := by
  apply round_trip_hdr rfl (by decide)
  simp (disch := omega) only [raw_hdr_M, rawM, fld_hdr_opcode, fld_hdr_guard, fld_hdr_operands, extract_high, extract_low]
  simp only [Nat.reduceSub, BitVec.extractLsb'_eq_self, BitVec.reduceToNat]

theorem RoundTrip.arel (g : BitVec 4) (n : BitVec 6) : RoundTrip.Statement (.arel g n) := by
  apply round_trip_hdr rfl (by decide)
  simp (disch := omega) only [raw_hdr_M, rawM, fld_hdr_opcode, fld_hdr_guard, fld_hdr_operands, extract_high, extract_low]
  simp only [Nat.reduceSub, BitVec.extractLsb'_eq_self, BitVec.reduceToNat]

theorem RoundTrip.oclaim (g : BitVec 4) (n : BitVec 6) : RoundTrip.Statement (.oclaim g n) := by
  apply round_trip_hdr rfl (by decide)
  simp (disch := omega) only [raw_hdr_M, rawM, fld_hdr_opcode, fld_hdr_guard, fld_hdr_operands, extract_high, extract_low]
  simp only [Nat.reduceSub, BitVec.extractLsb'_eq_self, BitVec.reduceToNat]

theorem RoundTrip.orel (g : BitVec 4) (n : BitVec 6) : RoundTrip.Statement (.orel g n) := by
  apply round_trip_hdr rfl (by decide)
  simp (disch := omega) only [raw_hdr_M, rawM, fld_hdr_opcode, fld_hdr_guard, fld_hdr_operands, extract_high, extract_low]
  simp only [Nat.reduceSub, BitVec.extractLsb'_eq_self, BitVec.reduceToNat]

theorem RoundTrip.owr (g : BitVec 4) (o : BitVec 6) (row : BitVec 6) (vs : BitVec 10) : RoundTrip.Statement (.owr g o row vs) := by
  apply round_trip_hdr rfl (by decide)
  simp (disch := omega) only [raw_hdr_M, rawM, fld_hdr_opcode, fld_hdr_guard, fld_hdr_operands, extract_high, extract_low]
  simp only [Nat.reduceSub, BitVec.extractLsb'_eq_self, BitVec.reduceToNat]

theorem RoundTrip.lgb (g : BitVec 4) (w : BitVec 1) (dl : BitVec 12) (l : BitVec 8) (sk : BitVec 1) (src : BitVec 10) (tkop : BitVec 2) (tkch : BitVec 4) : RoundTrip.Statement (.lgb g w dl l sk src tkop tkch) := by
  apply round_trip_hdr rfl (by decide)
  simp (disch := omega) only [raw_hdr_M, rawM, fld_hdr_opcode, fld_hdr_guard, fld_hdr_operands, extract_high, extract_low]
  simp only [Nat.reduceSub, BitVec.extractLsb'_eq_self, BitVec.reduceToNat]

theorem RoundTrip.lgbc (g : BitVec 4) (w : BitVec 1) (dl : BitVec 12) (l : BitVec 8) (sk : BitVec 1) (src : BitVec 10) (tkop : BitVec 2) (tkch : BitVec 4) : RoundTrip.Statement (.lgbc g w dl l sk src tkop tkch) := by
  apply round_trip_hdr rfl (by decide)
  simp (disch := omega) only [raw_hdr_M, rawM, fld_hdr_opcode, fld_hdr_guard, fld_hdr_operands, extract_high, extract_low]
  simp only [Nat.reduceSub, BitVec.extractLsb'_eq_self, BitVec.reduceToNat]

theorem RoundTrip.lginv (g : BitVec 4) (l : BitVec 8) (n : BitVec 8) : RoundTrip.Statement (.lginv g l n) := by
  apply round_trip_hdr rfl (by decide)
  simp (disch := omega) only [raw_hdr_M, rawM, fld_hdr_opcode, fld_hdr_guard, fld_hdr_operands, extract_high, extract_low]
  simp only [Nat.reduceSub, BitVec.extractLsb'_eq_self, BitVec.reduceToNat]

theorem RoundTrip.lgsave (g : BitVec 4) (l : BitVec 8) (n : BitVec 8) (o : BitVec 6) (pos : BitVec 3) : RoundTrip.Statement (.lgsave g l n o pos) := by
  apply round_trip_hdr rfl (by decide)
  simp (disch := omega) only [raw_hdr_M, rawM, fld_hdr_opcode, fld_hdr_guard, fld_hdr_operands, extract_high, extract_low]
  simp only [Nat.reduceSub, BitVec.extractLsb'_eq_self, BitVec.reduceToNat]

theorem RoundTrip.lgload (g : BitVec 4) (l : BitVec 8) (n : BitVec 8) (o : BitVec 6) (pos : BitVec 3) : RoundTrip.Statement (.lgload g l n o pos) := by
  apply round_trip_hdr rfl (by decide)
  simp (disch := omega) only [raw_hdr_M, rawM, fld_hdr_opcode, fld_hdr_guard, fld_hdr_operands, extract_high, extract_low]
  simp only [Nat.reduceSub, BitVec.extractLsb'_eq_self, BitVec.reduceToNat]

theorem RoundTrip.lgsum (g : BitVec 4) (l : BitVec 8) (n : BitVec 8) (vd : BitVec 10) : RoundTrip.Statement (.lgsum g l n vd) := by
  apply round_trip_hdr rfl (by decide)
  simp (disch := omega) only [raw_hdr_M, rawM, fld_hdr_opcode, fld_hdr_guard, fld_hdr_operands, extract_high, extract_low]
  simp only [Nat.reduceSub, BitVec.extractLsb'_eq_self, BitVec.reduceToNat]

theorem RoundTrip.mlu (g : BitVec 4) (w : BitVec 1) (dl : BitVec 12) (a : BitVec 6) (l : BitVec 8) (o : BitVec 6) (seg : BitVec 5) (tkop : BitVec 2) (tkch : BitVec 4) : RoundTrip.Statement (.mlu g w dl a l o seg tkop tkch) := by
  apply round_trip_hdr rfl (by decide)
  simp (disch := omega) only [raw_hdr_M, rawM, fld_hdr_opcode, fld_hdr_guard, fld_hdr_operands, extract_high, extract_low]
  simp only [Nat.reduceSub, BitVec.extractLsb'_eq_self, BitVec.reduceToNat]

theorem RoundTrip.mluc (g : BitVec 4) (w : BitVec 1) (dl : BitVec 12) (a : BitVec 6) (l : BitVec 8) (o : BitVec 6) (seg : BitVec 5) (tkop : BitVec 2) (tkch : BitVec 4) : RoundTrip.Statement (.mluc g w dl a l o seg tkop tkch) := by
  apply round_trip_hdr rfl (by decide)
  simp (disch := omega) only [raw_hdr_M, rawM, fld_hdr_opcode, fld_hdr_guard, fld_hdr_operands, extract_high, extract_low]
  simp only [Nat.reduceSub, BitVec.extractLsb'_eq_self, BitVec.reduceToNat]

theorem RoundTrip.mzero (g : BitVec 4) (w : BitVec 1) (dl : BitVec 12) (a : BitVec 6) (tkop : BitVec 2) (tkch : BitVec 4) : RoundTrip.Statement (.mzero g w dl a tkop tkch) := by
  apply round_trip_hdr rfl (by decide)
  simp (disch := omega) only [raw_hdr_M, rawM, fld_hdr_opcode, fld_hdr_guard, fld_hdr_operands, extract_high, extract_low]
  simp only [Nat.reduceSub, BitVec.extractLsb'_eq_self, BitVec.reduceToNat]

theorem RoundTrip.mdrain (g : BitVec 4) (w : BitVec 1) (dl : BitVec 12) (a : BitVec 6) (vb : BitVec 10) (tkop : BitVec 2) (tkch : BitVec 4) : RoundTrip.Statement (.mdrain g w dl a vb tkop tkch) := by
  apply round_trip_hdr rfl (by decide)
  simp (disch := omega) only [raw_hdr_M, rawM, fld_hdr_opcode, fld_hdr_guard, fld_hdr_operands, extract_high, extract_low]
  simp only [Nat.reduceSub, BitVec.extractLsb'_eq_self, BitVec.reduceToNat]
  rfl

theorem RoundTrip.mdrainSt (g : BitVec 4) (w : BitVec 1) (dl : BitVec 12) (a : BitVec 6) (k : BitVec 2) (tkop : BitVec 2) (tkch : BitVec 4) : RoundTrip.Statement (.mdrainSt g w dl a k tkop tkch) := by
  apply round_trip_hdr rfl (by decide)
  simp (disch := omega) only [raw_hdr_M, rawM, fld_hdr_opcode, fld_hdr_guard, fld_hdr_operands, extract_high, extract_low]
  simp only [Nat.reduceSub, BitVec.extractLsb'_eq_self, BitVec.reduceToNat]
  exact if_pos trivial

theorem RoundTrip.vpop (g : BitVec 4) (vr : BitVec 10) (q : BitVec 4) (md : BitVec 2) (pk : BitVec 1) (cf : BitVec 3) (tkop : BitVec 2) (tkch : BitVec 4) : RoundTrip.Statement (.vpop g vr q md pk cf tkop tkch) := by
  apply round_trip_hdr rfl (by decide)
  simp (disch := omega) only [raw_hdr_I, rawI, fld_hdr_opcode, fld_hdr_guard, fld_hdr_operands, extract_high, extract_low]
  simp only [Nat.reduceSub, BitVec.extractLsb'_eq_self, BitVec.reduceToNat]

theorem RoundTrip.vpush (g : BitVec 4) (vr : BitVec 10) (q : BitVec 4) (md : BitVec 2) (tkop : BitVec 2) (tkch : BitVec 4) : RoundTrip.Statement (.vpush g vr q md tkop tkch) := by
  apply round_trip_hdr rfl (by decide)
  simp (disch := omega) only [raw_hdr_I, rawI, fld_hdr_opcode, fld_hdr_guard, fld_hdr_operands, extract_high, extract_low]
  simp only [Nat.reduceSub, BitVec.extractLsb'_eq_self, BitVec.reduceToNat]

theorem RoundTrip.spop (g : BitVec 4) (sg : BitVec 5) (q : BitVec 4) (md : BitVec 2) (pk : BitVec 1) (cf : BitVec 3) (tkop : BitVec 2) (tkch : BitVec 4) : RoundTrip.Statement (.spop g sg q md pk cf tkop tkch) := by
  apply round_trip_hdr rfl (by decide)
  simp (disch := omega) only [raw_hdr_I, rawI, fld_hdr_opcode, fld_hdr_guard, fld_hdr_operands, extract_high, extract_low]
  simp only [Nat.reduceSub, BitVec.extractLsb'_eq_self, BitVec.reduceToNat]

theorem RoundTrip.ypop (g : BitVec 4) (vr : BitVec 10) (md : BitVec 2) (pk : BitVec 1) (cf : BitVec 3) (tkop : BitVec 2) (tkch : BitVec 4) : RoundTrip.Statement (.ypop g vr md pk cf tkop tkch) := by
  apply round_trip_hdr rfl (by decide)
  simp (disch := omega) only [raw_hdr_I, rawI, fld_hdr_opcode, fld_hdr_guard, fld_hdr_operands, extract_high, extract_low]
  simp only [Nat.reduceSub, BitVec.extractLsb'_eq_self, BitVec.reduceToNat]

theorem RoundTrip.cpop (g : BitVec 4) (sg : BitVec 5) (md : BitVec 2) (pk : BitVec 1) (cf : BitVec 3) (tkop : BitVec 2) (tkch : BitVec 4) : RoundTrip.Statement (.cpop g sg md pk cf tkop tkch) := by
  apply round_trip_hdr rfl (by decide)
  simp (disch := omega) only [raw_hdr_I, rawI, fld_hdr_opcode, fld_hdr_guard, fld_hdr_operands, extract_high, extract_low]
  simp only [Nat.reduceSub, BitVec.extractLsb'_eq_self, BitVec.reduceToNat]

theorem RoundTrip.apush (g : BitVec 4) (sg : BitVec 5) (q : BitVec 4) (md : BitVec 2) (tkop : BitVec 2) (tkch : BitVec 4) : RoundTrip.Statement (.apush g sg q md tkop tkch) := by
  apply round_trip_hdr rfl (by decide)
  simp (disch := omega) only [raw_hdr_I, rawI, fld_hdr_opcode, fld_hdr_guard, fld_hdr_operands, extract_high, extract_low]
  simp only [Nat.reduceSub, BitVec.extractLsb'_eq_self, BitVec.reduceToNat]

theorem RoundTrip.ipsel (g : BitVec 4) (fn : BitVec 4) (tkop : BitVec 2) (tkch : BitVec 4) : RoundTrip.Statement (.ipsel g fn tkop tkch) := by
  apply round_trip_hdr rfl (by decide)
  simp (disch := omega) only [raw_hdr_I, rawI, fld_hdr_opcode, fld_hdr_guard, fld_hdr_operands, extract_high, extract_low]
  simp only [Nat.reduceSub, BitVec.extractLsb'_eq_self, BitVec.reduceToNat]

theorem RoundTrip.ipld (g : BitVec 4) (fn : BitVec 4) (o : BitVec 6) (tkop : BitVec 2) (tkch : BitVec 4) : RoundTrip.Statement (.ipld g fn o tkop tkch) := by
  apply round_trip_hdr rfl (by decide)
  simp (disch := omega) only [raw_hdr_I, rawI, fld_hdr_opcode, fld_hdr_guard, fld_hdr_operands, extract_high, extract_low]
  simp only [Nat.reduceSub, BitVec.extractLsb'_eq_self, BitVec.reduceToNat]

theorem RoundTrip.ipf (g : BitVec 4) (vs : BitVec 10) (tkop : BitVec 2) (tkch : BitVec 4) : RoundTrip.Statement (.ipf g vs tkop tkch) := by
  apply round_trip_hdr rfl (by decide)
  simp (disch := omega) only [raw_hdr_I, rawI, fld_hdr_opcode, fld_hdr_guard, fld_hdr_operands, extract_high, extract_low]
  simp only [Nat.reduceSub, BitVec.extractLsb'_eq_self, BitVec.reduceToNat]

theorem RoundTrip.ld (g : BitVec 4) (rd : BitVec 5) (b : BitVec 5) (imm : BitVec 24) (sz : BitVec 2) (sx : BitVec 1) (ord : BitVec 2) (scp : BitVec 3) : RoundTrip.Statement (.ld g rd b imm sz sx ord scp) := by
  apply round_trip_hdr rfl (by decide)
  simp (disch := omega) only [raw_hdr_A, rawA, fld_hdr_opcode, fld_hdr_guard, fld_hdr_operands, extract_high, extract_low]
  simp only [Nat.reduceSub, BitVec.extractLsb'_eq_self, BitVec.reduceToNat]

theorem RoundTrip.ldx (g : BitVec 4) (rd : BitVec 5) (b : BitVec 5) (ix : BitVec 5) (sh : BitVec 2) (sz : BitVec 2) (sx : BitVec 1) (ord : BitVec 2) (scp : BitVec 3) : RoundTrip.Statement (.ldx g rd b ix sh sz sx ord scp) := by
  apply round_trip_hdr rfl (by decide)
  simp (disch := omega) only [raw_hdr_A, rawA, fld_hdr_opcode, fld_hdr_guard, fld_hdr_operands, extract_high, extract_low]
  simp only [Nat.reduceSub, BitVec.extractLsb'_eq_self, BitVec.reduceToNat]

theorem RoundTrip.st (g : BitVec 4) (rd : BitVec 5) (b : BitVec 5) (imm : BitVec 24) (sz : BitVec 2) (ord : BitVec 2) (scp : BitVec 3) : RoundTrip.Statement (.st g rd b imm sz ord scp) := by
  apply round_trip_hdr rfl (by decide)
  simp (disch := omega) only [raw_hdr_A, rawA, fld_hdr_opcode, fld_hdr_guard, fld_hdr_operands, extract_high, extract_low]
  simp only [Nat.reduceSub, BitVec.extractLsb'_eq_self, BitVec.reduceToNat]

theorem RoundTrip.stx (g : BitVec 4) (rd : BitVec 5) (b : BitVec 5) (ix : BitVec 5) (sh : BitVec 2) (sz : BitVec 2) (ord : BitVec 2) (scp : BitVec 3) : RoundTrip.Statement (.stx g rd b ix sh sz ord scp) := by
  apply round_trip_hdr rfl (by decide)
  simp (disch := omega) only [raw_hdr_A, rawA, fld_hdr_opcode, fld_hdr_guard, fld_hdr_operands, extract_high, extract_low]
  simp only [Nat.reduceSub, BitVec.extractLsb'_eq_self, BitVec.reduceToNat]

theorem RoundTrip.pref (g : BitVec 4) (b : BitVec 5) (imm : BitVec 24) : RoundTrip.Statement (.pref g b imm) := by
  apply round_trip_hdr rfl (by decide)
  simp (disch := omega) only [raw_hdr_A, rawA, fld_hdr_opcode, fld_hdr_guard, fld_hdr_operands, extract_high, extract_low]
  simp only [Nat.reduceSub, BitVec.extractLsb'_eq_self, BitVec.reduceToNat]

theorem RoundTrip.ldq (g : BitVec 4) (q : BitVec 4) (b : BitVec 5) (imm : BitVec 24) (md : BitVec 2) : RoundTrip.Statement (.ldq g q b imm md) := by
  apply round_trip_hdr rfl (by decide)
  simp (disch := omega) only [raw_hdr_A, rawA, fld_hdr_opcode, fld_hdr_guard, fld_hdr_operands, extract_high, extract_low]
  simp only [Nat.reduceSub, BitVec.extractLsb'_eq_self, BitVec.reduceToNat]

theorem RoundTrip.stq (g : BitVec 4) (q : BitVec 4) (b : BitVec 5) (imm : BitVec 24) (md : BitVec 2) : RoundTrip.Statement (.stq g q b imm md) := by
  apply round_trip_hdr rfl (by decide)
  simp (disch := omega) only [raw_hdr_A, rawA, fld_hdr_opcode, fld_hdr_guard, fld_hdr_operands, extract_high, extract_low]
  simp only [Nat.reduceSub, BitVec.extractLsb'_eq_self, BitVec.reduceToNat]

theorem RoundTrip.sqpush (g : BitVec 4) (q : BitVec 4) (b : BitVec 5) (md : BitVec 2) : RoundTrip.Statement (.sqpush g q b md) := by
  apply round_trip_hdr rfl (by decide)
  simp (disch := omega) only [raw_hdr_A, rawA, fld_hdr_opcode, fld_hdr_guard, fld_hdr_operands, extract_high, extract_low]
  simp only [Nat.reduceSub, BitVec.extractLsb'_eq_self, BitVec.reduceToNat]

theorem RoundTrip.ldq2 (g : BitVec 4) (q : BitVec 5) (a : BitVec 5) (len : BitVec 5) (aux : BitVec 5) : RoundTrip.Statement (.ldq2 g q a len aux) := by
  apply round_trip_hdr rfl (by decide)
  simp (disch := omega) only [raw_hdr_A, rawA, fld_hdr_opcode, fld_hdr_guard, fld_hdr_operands, extract_high, extract_low]
  simp only [Nat.reduceSub, BitVec.extractLsb'_eq_self, BitVec.reduceToNat]

theorem RoundTrip.copy (g : BitVec 4) (dst : BitVec 5) (src : BitVec 5) (len : BitVec 5) (aux : BitVec 5) (dh : BitVec 1) (shd : BitVec 1) (tkop : BitVec 2) (tkch : BitVec 4) : RoundTrip.Statement (.copy g dst src len aux dh shd tkop tkch) := by
  apply round_trip_hdr rfl (by decide)
  simp (disch := omega) only [raw_hdr_A, rawA, fld_hdr_opcode, fld_hdr_guard, fld_hdr_operands, extract_high, extract_low]
  simp only [Nat.reduceSub, BitVec.extractLsb'_eq_self, BitVec.reduceToNat]

theorem RoundTrip.gather (g : BitVec 4) (dst : BitVec 5) (src : BitVec 5) (len : BitVec 5) (aux : BitVec 5) (dh : BitVec 1) (shd : BitVec 1) : RoundTrip.Statement (.gather g dst src len aux dh shd) := by
  apply round_trip_hdr rfl (by decide)
  simp (disch := omega) only [raw_hdr_A, rawA, fld_hdr_opcode, fld_hdr_guard, fld_hdr_operands, extract_high, extract_low]
  simp only [Nat.reduceSub, BitVec.extractLsb'_eq_self, BitVec.reduceToNat]

theorem RoundTrip.scatter (g : BitVec 4) (dst : BitVec 5) (src : BitVec 5) (len : BitVec 5) (aux : BitVec 5) (dh : BitVec 1) (shd : BitVec 1) : RoundTrip.Statement (.scatter g dst src len aux dh shd) := by
  apply round_trip_hdr rfl (by decide)
  simp (disch := omega) only [raw_hdr_A, rawA, fld_hdr_opcode, fld_hdr_guard, fld_hdr_operands, extract_high, extract_low]
  simp only [Nat.reduceSub, BitVec.extractLsb'_eq_self, BitVec.reduceToNat]

theorem RoundTrip.cwait (g : BitVec 4) (rd : BitVec 5) (s1 : BitVec 5) : RoundTrip.Statement (.cwait g rd s1) := by
  apply round_trip_hdr rfl (by decide)
  simp (disch := omega) only [raw_hdr_A, rawA, fld_hdr_opcode, fld_hdr_guard, fld_hdr_operands, extract_high, extract_low]
  simp only [Nat.reduceSub, BitVec.extractLsb'_eq_self, BitVec.reduceToNat]

theorem RoundTrip.fence (g : BitVec 4) (ord : BitVec 2) (scp : BitVec 3) : RoundTrip.Statement (.fence g ord scp) := by
  apply round_trip_hdr rfl (by decide)
  simp (disch := omega) only [raw_hdr_A, rawA, fld_hdr_opcode, fld_hdr_guard, fld_hdr_operands, extract_high, extract_low]
  simp only [Nat.reduceSub, BitVec.extractLsb'_eq_self, BitVec.reduceToNat]

theorem RoundTrip.tfence (g : BitVec 4) (scp : BitVec 3) : RoundTrip.Statement (.tfence g scp) := by
  apply round_trip_hdr rfl (by decide)
  simp (disch := omega) only [raw_hdr_A, rawA, fld_hdr_opcode, fld_hdr_guard, fld_hdr_operands, extract_high, extract_low]
  simp only [Nat.reduceSub, BitVec.extractLsb'_eq_self, BitVec.reduceToNat]

theorem RoundTrip.bara (g : BitVec 4) (n : BitVec 5) : RoundTrip.Statement (.bara g n) := by
  apply round_trip_hdr rfl (by decide)
  simp (disch := omega) only [raw_hdr_A, rawA, fld_hdr_opcode, fld_hdr_guard, fld_hdr_operands, extract_high, extract_low]
  simp only [Nat.reduceSub, BitVec.extractLsb'_eq_self, BitVec.reduceToNat]

theorem RoundTrip.barw (g : BitVec 4) (n : BitVec 5) : RoundTrip.Statement (.barw g n) := by
  apply round_trip_hdr rfl (by decide)
  simp (disch := omega) only [raw_hdr_A, rawA, fld_hdr_opcode, fld_hdr_guard, fld_hdr_operands, extract_high, extract_low]
  simp only [Nat.reduceSub, BitVec.extractLsb'_eq_self, BitVec.reduceToNat]

theorem RoundTrip.tkpush (g : BitVec 4) (n : BitVec 5) : RoundTrip.Statement (.tkpush g n) := by
  apply round_trip_hdr rfl (by decide)
  simp (disch := omega) only [raw_hdr_A, rawA, fld_hdr_opcode, fld_hdr_guard, fld_hdr_operands, extract_high, extract_low]
  simp only [Nat.reduceSub, BitVec.extractLsb'_eq_self, BitVec.reduceToNat]

theorem RoundTrip.tkwait (g : BitVec 4) (n : BitVec 5) : RoundTrip.Statement (.tkwait g n) := by
  apply round_trip_hdr rfl (by decide)
  simp (disch := omega) only [raw_hdr_A, rawA, fld_hdr_opcode, fld_hdr_guard, fld_hdr_operands, extract_high, extract_low]
  simp only [Nat.reduceSub, BitVec.extractLsb'_eq_self, BitVec.reduceToNat]

theorem RoundTrip.spalloc (g : BitVec 4) (rd : BitVec 5) (s1 : BitVec 5) : RoundTrip.Statement (.spalloc g rd s1) := by
  apply round_trip_hdr rfl (by decide)
  simp (disch := omega) only [raw_hdr_A, rawA, fld_hdr_opcode, fld_hdr_guard, fld_hdr_operands, extract_high, extract_low]
  simp only [Nat.reduceSub, BitVec.extractLsb'_eq_self, BitVec.reduceToNat]

theorem RoundTrip.spfree (g : BitVec 4) (s1 : BitVec 5) : RoundTrip.Statement (.spfree g s1) := by
  apply round_trip_hdr rfl (by decide)
  simp (disch := omega) only [raw_hdr_A, rawA, fld_hdr_opcode, fld_hdr_guard, fld_hdr_operands, extract_high, extract_low]
  simp only [Nat.reduceSub, BitVec.extractLsb'_eq_self, BitVec.reduceToNat]

theorem RoundTrip.launchB (g : BitVec 4) (rd : BitVec 5) (s1 : BitVec 5) (q : BitVec 5) : RoundTrip.Statement (.launchB g rd s1 q) := by
  apply round_trip_hdr rfl (by decide)
  simp (disch := omega) only [raw_hdr_A, rawA, fld_hdr_opcode, fld_hdr_guard, fld_hdr_operands, extract_high, extract_low]
  simp only [Nat.reduceSub, BitVec.extractLsb'_eq_self, BitVec.reduceToNat]
  exact if_pos trivial

theorem RoundTrip.launchN (g : BitVec 4) (rd : BitVec 5) (s1 : BitVec 5) (q : BitVec 5) : RoundTrip.Statement (.launchN g rd s1 q) := by
  apply round_trip_hdr rfl (by decide)
  simp (disch := omega) only [raw_hdr_A, rawA, fld_hdr_opcode, fld_hdr_guard, fld_hdr_operands, extract_high, extract_low]
  simp only [Nat.reduceSub, BitVec.extractLsb'_eq_self, BitVec.reduceToNat]
  rfl

theorem RoundTrip.hld (g : BitVec 4) (h : BitVec 4) (s1 : BitVec 5) : RoundTrip.Statement (.hld g h s1) := by
  apply round_trip_hdr rfl (by decide)
  simp (disch := omega) only [raw_hdr_A, rawA, fld_hdr_opcode, fld_hdr_guard, fld_hdr_operands, extract_high, extract_low]
  simp only [Nat.reduceSub, BitVec.extractLsb'_eq_self, BitVec.reduceToNat]

theorem RoundTrip.hnew (g : BitVec 4) (h : BitVec 4) (s1 : BitVec 5) : RoundTrip.Statement (.hnew g h s1) := by
  apply round_trip_hdr rfl (by decide)
  simp (disch := omega) only [raw_hdr_A, rawA, fld_hdr_opcode, fld_hdr_guard, fld_hdr_operands, extract_high, extract_low]
  simp only [Nat.reduceSub, BitVec.extractLsb'_eq_self, BitVec.reduceToNat]

theorem RoundTrip.publish (g : BitVec 4) (h : BitVec 4) (scp : BitVec 3) : RoundTrip.Statement (.publish g h scp) := by
  apply round_trip_hdr rfl (by decide)
  simp (disch := omega) only [raw_hdr_A, rawA, fld_hdr_opcode, fld_hdr_guard, fld_hdr_operands, extract_high, extract_low]
  simp only [Nat.reduceSub, BitVec.extractLsb'_eq_self, BitVec.reduceToNat]

theorem RoundTrip.hfree (g : BitVec 4) (h : BitVec 4) : RoundTrip.Statement (.hfree g h) := by
  apply round_trip_hdr rfl (by decide)
  simp (disch := omega) only [raw_hdr_A, rawA, fld_hdr_opcode, fld_hdr_guard, fld_hdr_operands, extract_high, extract_low]
  simp only [Nat.reduceSub, BitVec.extractLsb'_eq_self, BitVec.reduceToNat]

theorem RoundTrip.aadd (g : BitVec 4) (rd : BitVec 5) (b : BitVec 5) (s2 : BitVec 5) (sz : BitVec 2) (ord : BitVec 2) (scp : BitVec 3) : RoundTrip.Statement (.aadd g rd b s2 sz ord scp) := by
  apply round_trip_hdr rfl (by decide)
  simp (disch := omega) only [raw_hdr_A, rawA, fld_hdr_opcode, fld_hdr_guard, fld_hdr_operands, extract_high, extract_low]
  simp only [Nat.reduceSub, BitVec.extractLsb'_eq_self, BitVec.reduceToNat]

theorem RoundTrip.amin (g : BitVec 4) (rd : BitVec 5) (b : BitVec 5) (s2 : BitVec 5) (sz : BitVec 2) (ord : BitVec 2) (scp : BitVec 3) : RoundTrip.Statement (.amin g rd b s2 sz ord scp) := by
  apply round_trip_hdr rfl (by decide)
  simp (disch := omega) only [raw_hdr_A, rawA, fld_hdr_opcode, fld_hdr_guard, fld_hdr_operands, extract_high, extract_low]
  simp only [Nat.reduceSub, BitVec.extractLsb'_eq_self, BitVec.reduceToNat]

theorem RoundTrip.amax (g : BitVec 4) (rd : BitVec 5) (b : BitVec 5) (s2 : BitVec 5) (sz : BitVec 2) (ord : BitVec 2) (scp : BitVec 3) : RoundTrip.Statement (.amax g rd b s2 sz ord scp) := by
  apply round_trip_hdr rfl (by decide)
  simp (disch := omega) only [raw_hdr_A, rawA, fld_hdr_opcode, fld_hdr_guard, fld_hdr_operands, extract_high, extract_low]
  simp only [Nat.reduceSub, BitVec.extractLsb'_eq_self, BitVec.reduceToNat]

theorem RoundTrip.aand (g : BitVec 4) (rd : BitVec 5) (b : BitVec 5) (s2 : BitVec 5) (sz : BitVec 2) (ord : BitVec 2) (scp : BitVec 3) : RoundTrip.Statement (.aand g rd b s2 sz ord scp) := by
  apply round_trip_hdr rfl (by decide)
  simp (disch := omega) only [raw_hdr_A, rawA, fld_hdr_opcode, fld_hdr_guard, fld_hdr_operands, extract_high, extract_low]
  simp only [Nat.reduceSub, BitVec.extractLsb'_eq_self, BitVec.reduceToNat]

theorem RoundTrip.aor (g : BitVec 4) (rd : BitVec 5) (b : BitVec 5) (s2 : BitVec 5) (sz : BitVec 2) (ord : BitVec 2) (scp : BitVec 3) : RoundTrip.Statement (.aor g rd b s2 sz ord scp) := by
  apply round_trip_hdr rfl (by decide)
  simp (disch := omega) only [raw_hdr_A, rawA, fld_hdr_opcode, fld_hdr_guard, fld_hdr_operands, extract_high, extract_low]
  simp only [Nat.reduceSub, BitVec.extractLsb'_eq_self, BitVec.reduceToNat]

theorem RoundTrip.axor (g : BitVec 4) (rd : BitVec 5) (b : BitVec 5) (s2 : BitVec 5) (sz : BitVec 2) (ord : BitVec 2) (scp : BitVec 3) : RoundTrip.Statement (.axor g rd b s2 sz ord scp) := by
  apply round_trip_hdr rfl (by decide)
  simp (disch := omega) only [raw_hdr_A, rawA, fld_hdr_opcode, fld_hdr_guard, fld_hdr_operands, extract_high, extract_low]
  simp only [Nat.reduceSub, BitVec.extractLsb'_eq_self, BitVec.reduceToNat]

theorem RoundTrip.axchg (g : BitVec 4) (rd : BitVec 5) (b : BitVec 5) (s2 : BitVec 5) (sz : BitVec 2) (ord : BitVec 2) (scp : BitVec 3) : RoundTrip.Statement (.axchg g rd b s2 sz ord scp) := by
  apply round_trip_hdr rfl (by decide)
  simp (disch := omega) only [raw_hdr_A, rawA, fld_hdr_opcode, fld_hdr_guard, fld_hdr_operands, extract_high, extract_low]
  simp only [Nat.reduceSub, BitVec.extractLsb'_eq_self, BitVec.reduceToNat]

theorem RoundTrip.acas (g : BitVec 4) (rd : BitVec 5) (b : BitVec 5) (s2 : BitVec 5) (s3 : BitVec 5) (sz : BitVec 2) (ord : BitVec 2) (scp : BitVec 3) : RoundTrip.Statement (.acas g rd b s2 s3 sz ord scp) := by
  apply round_trip_hdr rfl (by decide)
  simp (disch := omega) only [raw_hdr_A, rawA, fld_hdr_opcode, fld_hdr_guard, fld_hdr_operands, extract_high, extract_low]
  simp only [Nat.reduceSub, BitVec.extractLsb'_eq_self, BitVec.reduceToNat]

theorem RoundTrip.await (g : BitVec 4) (rd : BitVec 5) (b : BitVec 5) (s2 : BitVec 5) (cond : BitVec 4) (sz : BitVec 2) (ord : BitVec 2) (scp : BitVec 3) : RoundTrip.Statement (.await g rd b s2 cond sz ord scp) := by
  apply round_trip_hdr rfl (by decide)
  simp (disch := omega) only [raw_hdr_A, rawA, fld_hdr_opcode, fld_hdr_guard, fld_hdr_operands, extract_high, extract_low]
  simp only [Nat.reduceSub, BitVec.extractLsb'_eq_self, BitVec.reduceToNat]

theorem RoundTrip.resultLanding (core : Nat) : RoundTrip.Statement (.resultLanding core) := by
  intro w _ h
  cases h

theorem RoundTrip.mxStart (core : Nat) : RoundTrip.Statement (.mxStart core) := by
  intro w _ h
  cases h

theorem RoundTrip.aClassResult (core : Nat) (iseq : Nat) : RoundTrip.Statement (.aClassResult core iseq) := by
  intro w _ h
  cases h

theorem RoundTrip.queueFill (core : Nat) (iseq : Nat) : RoundTrip.Statement (.queueFill core iseq) := by
  intro w _ h
  cases h

theorem RoundTrip.vsendArrival (core : Nat) : RoundTrip.Statement (.vsendArrival core) := by
  intro w _ h
  cases h

theorem RoundTrip.targetFetch (core : Nat) (stream : Strm) (bd : Nat) : RoundTrip.Statement (.targetFetch core stream bd) := by
  intro w _ h
  cases h

theorem RoundTrip.slipEnd (ctx : Nat) : RoundTrip.Statement (.slipEnd ctx) := by
  intro w _ h
  cases h

theorem RoundTrip.windowSpillFill (core : Nat) : RoundTrip.Statement (.windowSpillFill core) := by
  intro w _ h
  cases h

theorem RoundTrip.meridianPulse (ctx : Nat) : RoundTrip.Statement (.meridianPulse ctx) := by
  intro w _ h
  cases h

theorem RoundTrip.barrierPhaseComplete (core : Nat) : RoundTrip.Statement (.barrierPhaseComplete core) := by
  intro w _ h
  cases h

theorem RoundTrip.awaitSatisfied (core : Nat) : RoundTrip.Statement (.awaitSatisfied core) := by
  intro w _ h
  cases h

theorem RoundTrip.publishSwap (core : Nat) : RoundTrip.Statement (.publishSwap core) := by
  intro w _ h
  cases h

theorem RoundTrip.tfenceComplete (core : Nat) : RoundTrip.Statement (.tfenceComplete core) := by
  intro w _ h
  cases h

theorem RoundTrip.translationWalkEnd (core : Nat) (iseq : Nat) : RoundTrip.Statement (.translationWalkEnd core iseq) := by
  intro w _ h
  cases h

theorem RoundTrip.commandRetire (core : Nat) : RoundTrip.Statement (.commandRetire core) := by
  intro w _ h
  cases h

theorem RoundTrip.watchCopyFreeze (core : Nat) (skid : Nat) : RoundTrip.Statement (.watchCopyFreeze core skid) := by
  intro w _ h
  cases h

theorem RoundTrip.peerWatchReport (part : Nat) : RoundTrip.Statement (.peerWatchReport part) := by
  intro w _ h
  cases h

theorem RoundTrip.bankWakeComplete (core : Nat) (bank : Nat) : RoundTrip.Statement (.bankWakeComplete core bank) := by
  intro w _ h
  cases h

theorem RoundTrip.bankIdleWarm (core : Nat) (bank : Nat) : RoundTrip.Statement (.bankIdleWarm core bank) := by
  intro w _ h
  cases h

theorem RoundTrip.accBankIdleWarm (core : Nat) (bank : Nat) : RoundTrip.Statement (.accBankIdleWarm core bank) := by
  intro w _ h
  cases h

theorem RoundTrip.bankScrubComplete (core : Nat) (bank : Nat) : RoundTrip.Statement (.bankScrubComplete core bank) := by
  intro w _ h
  cases h

theorem RoundTrip.qseqAdvance : RoundTrip.Statement (.qseqAdvance) := by
  intro w _ h
  cases h

theorem RoundTrip.lqtailWrite (part : Nat) (q : Nat) (value : Word) : RoundTrip.Statement (.lqtailWrite part q value) := by
  intro w _ h
  cases h

theorem RoundTrip.queueRecordRead (part : Nat) (q : Nat) : RoundTrip.Statement (.queueRecordRead part q) := by
  intro w _ h
  cases h

theorem RoundTrip.lqcfgErrClear (part : Nat) (q : Nat) : RoundTrip.Statement (.lqcfgErrClear part q) := by
  intro w _ h
  cases h

theorem RoundTrip.firmwareLaunch (part : Nat) (record : Bytes) : RoundTrip.Statement (.firmwareLaunch part record) := by
  intro w _ h
  cases h

theorem RoundTrip.dispatchPassTimer (part : Nat) : RoundTrip.Statement (.dispatchPassTimer part) := by
  intro w _ h
  cases h

theorem RoundTrip.priorityAging (part : Nat) : RoundTrip.Statement (.priorityAging part) := by
  intro w _ h
  cases h

theorem RoundTrip.launchWaitTimeout (core : Nat) : RoundTrip.Statement (.launchWaitTimeout core) := by
  intro w _ h
  cases h

theorem RoundTrip.stopDelivery (ctx : Nat) : RoundTrip.Statement (.stopDelivery ctx) := by
  intro w _ h
  cases h

theorem RoundTrip.saveImageComplete (ctx : Nat) : RoundTrip.Statement (.saveImageComplete ctx) := by
  intro w _ h
  cases h

theorem RoundTrip.supervisorStop (ctx : Nat) : RoundTrip.Statement (.supervisorStop ctx) := by
  intro w _ h
  cases h

theorem RoundTrip.supervisorPlace (ctx : Nat) (edits : Edits) : RoundTrip.Statement (.supervisorPlace ctx edits) := by
  intro w _ h
  cases h

theorem RoundTrip.aStreamExitComplete (core : Nat) : RoundTrip.Statement (.aStreamExitComplete core) := by
  intro w _ h
  cases h

theorem RoundTrip.xExitCheck (core : Nat) : RoundTrip.Statement (.xExitCheck core) := by
  intro w _ h
  cases h

theorem RoundTrip.deferredUnmap (part : Nat) (obj : Nat) : RoundTrip.Statement (.deferredUnmap part obj) := by
  intro w _ h
  cases h

theorem RoundTrip.crtailWrite (part : Nat) (value : Word) : RoundTrip.Statement (.crtailWrite part value) := by
  intro w _ h
  cases h

theorem RoundTrip.teardownContext (ctx : Nat) : RoundTrip.Statement (.teardownContext ctx) := by
  intro w _ h
  cases h

theorem RoundTrip.teardownPartition (part : Nat) : RoundTrip.Statement (.teardownPartition part) := by
  intro w _ h
  cases h

theorem RoundTrip.load (part : Nat) (place : Placement) : RoundTrip.Statement (.load part place) := by
  intro w _ h
  cases h

theorem RoundTrip.unload (part : Nat) : RoundTrip.Statement (.unload part) := by
  intro w _ h
  cases h

theorem RoundTrip.unloadF (part : Nat) : RoundTrip.Statement (.unloadF part) := by
  intro w _ h
  cases h

theorem RoundTrip.patch (part : Nat) : RoundTrip.Statement (.patch part) := by
  intro w _ h
  cases h

theorem RoundTrip.cstailWrite (part : Nat) (value : Word) : RoundTrip.Statement (.cstailWrite part value) := by
  intro w _ h
  cases h

theorem RoundTrip.qpushWrite (part : Nat) (value : Word) : RoundTrip.Statement (.qpushWrite part value) := by
  intro w _ h
  cases h

theorem RoundTrip.qpopRead (part : Nat) : RoundTrip.Statement (.qpopRead part) := by
  intro w _ h
  cases h

theorem RoundTrip.watchpointArm (part : Nat) (n : Nat) (ctl : Word) : RoundTrip.Statement (.watchpointArm part n ctl) := by
  intro w _ h
  cases h

theorem RoundTrip.fixCommand : RoundTrip.Statement (.fixCommand) := by
  intro w _ h
  cases h

theorem RoundTrip.fixinEdge : RoundTrip.Statement (.fixinEdge) := by
  intro w _ h
  cases h

theorem RoundTrip.peerAccessArrival (access : PeerAccess) : RoundTrip.Statement (.peerAccessArrival access) := by
  intro w _ h
  cases h

theorem RoundTrip.routeLossTimeout (node : Nat) : RoundTrip.Statement (.routeLossTimeout node) := by
  intro w _ h
  cases h

theorem RoundTrip.rdmaWrite (part : Nat) (window : Bool) (addr : Word) (data : Bytes) : RoundTrip.Statement (.rdmaWrite part window addr data) := by
  intro w _ h
  cases h

theorem RoundTrip.rdmaRead (part : Nat) (window : Bool) (addr : Word) (len : Nat) : RoundTrip.Statement (.rdmaRead part window addr len) := by
  intro w _ h
  cases h

theorem RoundTrip.rdmaInvalidOperation (part : Nat) : RoundTrip.Statement (.rdmaInvalidOperation part) := by
  intro w _ h
  cases h

theorem RoundTrip.refsetWrite (value : Word) : RoundTrip.Statement (.refsetWrite value) := by
  intro w _ h
  cases h

theorem RoundTrip.referenceFrequencyChange : RoundTrip.Statement (.referenceFrequencyChange) := by
  intro w _ h
  cases h

theorem RoundTrip.currentExcess : RoundTrip.Statement (.currentExcess) := by
  intro w _ h
  cases h

theorem RoundTrip.currentExcessEnd : RoundTrip.Statement (.currentExcessEnd) := by
  intro w _ h
  cases h

theorem RoundTrip.stretchTimeout : RoundTrip.Statement (.stretchTimeout) := by
  intro w _ h
  cases h

theorem RoundTrip.thermalTrip (die : Nat) : RoundTrip.Statement (.thermalTrip die) := by
  intro w _ h
  cases h

theorem RoundTrip.thermalRecovery : RoundTrip.Statement (.thermalRecovery) := by
  intro w _ h
  cases h

theorem RoundTrip.pchbWrite (value : Word) : RoundTrip.Statement (.pchbWrite value) := by
  intro w _ h
  cases h

theorem RoundTrip.pwstatUpdateWrite (value : Word) : RoundTrip.Statement (.pwstatUpdateWrite value) := by
  intro w _ h
  cases h

theorem RoundTrip.heartbeatTimeout : RoundTrip.Statement (.heartbeatTimeout) := by
  intro w _ h
  cases h

theorem RoundTrip.vvoteWrite (part : Nat) (value : Word) : RoundTrip.Statement (.vvoteWrite part value) := by
  intro w _ h
  cases h

theorem RoundTrip.railFallStart (rail : Nat) : RoundTrip.Statement (.railFallStart rail) := by
  intro w _ h
  cases h

theorem RoundTrip.railAtTarget (rail : Nat) : RoundTrip.Statement (.railAtTarget rail) := by
  intro w _ h
  cases h

theorem RoundTrip.qreqReq (cluster : Nat) (value : Word) : RoundTrip.Statement (.qreqReq cluster value) := by
  intro w _ h
  cases h

theorem RoundTrip.qreqEvict (cluster : Nat) : RoundTrip.Statement (.qreqEvict cluster) := by
  intro w _ h
  cases h

theorem RoundTrip.retsaveSave (cluster : Nat) (value : Word) : RoundTrip.Statement (.retsaveSave cluster value) := by
  intro w _ h
  cases h

theorem RoundTrip.retsaveRestore (cluster : Nat) (value : Word) : RoundTrip.Statement (.retsaveRestore cluster value) := by
  intro w _ h
  cases h

theorem RoundTrip.retsaveDone (cluster : Nat) : RoundTrip.Statement (.retsaveDone cluster) := by
  intro w _ h
  cases h

theorem RoundTrip.clkgateSet (cluster : Nat) : RoundTrip.Statement (.clkgateSet cluster) := by
  intro w _ h
  cases h

theorem RoundTrip.clkgateClear (cluster : Nat) : RoundTrip.Statement (.clkgateClear cluster) := by
  intro w _ h
  cases h

theorem RoundTrip.clockGateComplete (cluster : Nat) : RoundTrip.Statement (.clockGateComplete cluster) := by
  intro w _ h
  cases h

theorem RoundTrip.railgateOff (cluster : Nat) : RoundTrip.Statement (.railgateOff cluster) := by
  intro w _ h
  cases h

theorem RoundTrip.railgateOn (cluster : Nat) : RoundTrip.Statement (.railgateOn cluster) := by
  intro w _ h
  cases h

theorem RoundTrip.railSwitchComplete (cluster : Nat) : RoundTrip.Statement (.railSwitchComplete cluster) := by
  intro w _ h
  cases h

theorem RoundTrip.wakeSet (cluster : Nat) (client : ClientId) : RoundTrip.Statement (.wakeSet cluster client) := by
  intro w _ h
  cases h

theorem RoundTrip.wakeackAck (cluster : Nat) : RoundTrip.Statement (.wakeackAck cluster) := by
  intro w _ h
  cases h

theorem RoundTrip.packageReset (image : StageImage) : RoundTrip.Statement (.packageReset image) := by
  intro w _ h
  cases h

theorem RoundTrip.stageLoad (image : StageImage) : RoundTrip.Statement (.stageLoad image) := by
  intro w _ h
  cases h

theorem RoundTrip.attgoWrite (part : Nat) (value : Word) : RoundTrip.Statement (.attgoWrite part value) := by
  intro w _ h
  cases h

theorem RoundTrip.mcctlRestart (writer : Nat) (value : Word) : RoundTrip.Statement (.mcctlRestart writer value) := by
  intro w _ h
  cases h

theorem RoundTrip.channelRetire (channel : Nat) : RoundTrip.Statement (.channelRetire channel) := by
  intro w _ h
  cases h

theorem RoundTrip.channelCopyComplete (channel : Nat) : RoundTrip.Statement (.channelCopyComplete channel) := by
  intro w _ h
  cases h

theorem RoundTrip.coreRetire (core : Nat) : RoundTrip.Statement (.coreRetire core) := by
  intro w _ h
  cases h

theorem RoundTrip.registerWrite (target : RegTarget) (value : Word) : RoundTrip.Statement (.registerWrite target value) := by
  intro w _ h
  cases h

theorem RoundTrip.accessPerformed (core : Nat) (iseq : Nat) : RoundTrip.Statement (.accessPerformed core iseq) := by
  intro w _ h
  cases h

theorem RoundTrip.partitionConfiguration (part : Nat) (config : PartConfig) : RoundTrip.Statement (.partitionConfiguration part config) := by
  intro w _ h
  cases h

end Sys2Proof.Laws
end

