-- ==== Sys2Proof/Laws/State.lean ====
section
/-! SUPPORT. One lemma per field per named update of the state: what the update leaves alone, and the issue context it sets. -/

namespace Sys2Proof.Machine

@[simp] theorem State.setCore_groups (s : State) (c : Nat) (v : Core) : (s.setCore c v).groups = s.groups := rfl
@[simp] theorem State.setCore_parts (s : State) (c : Nat) (v : Core) : (s.setCore c v).parts = s.parts := rfl
@[simp] theorem State.setCore_hbm (s : State) (c : Nat) (v : Core) : (s.setCore c v).hbm = s.hbm := rfl
@[simp] theorem State.setCore_peer (s : State) (c : Nat) (v : Core) : (s.setCore c v).peer = s.peer := rfl
@[simp] theorem State.setCore_order (s : State) (c : Nat) (v : Core) : (s.setCore c v).order = s.order := rfl
@[simp] theorem State.setCore_lostNodes (s : State) (c : Nat) (v : Core) : (s.setCore c v).lostNodes = s.lostNodes := rfl
@[simp] theorem State.setCore_bad (s : State) (c : Nat) (v : Core) : (s.setCore c v).bad = s.bad := rfl
@[simp] theorem State.setCore_copying (s : State) (c : Nat) (v : Core) : (s.setCore c v).copying = s.copying := rfl
@[simp] theorem State.setCore_remapped (s : State) (c : Nat) (v : Core) : (s.setCore c v).remapped = s.remapped := rfl
@[simp] theorem State.setCore_dead (s : State) (c : Nat) (v : Core) : (s.setCore c v).dead = s.dead := rfl
@[simp] theorem State.setCore_delayed (s : State) (c : Nat) (v : Core) : (s.setCore c v).delayed = s.delayed := rfl
@[simp] theorem State.setCore_power (s : State) (c : Nat) (v : Core) : (s.setCore c v).power = s.power := rfl
@[simp] theorem State.setCore_meters (s : State) (c : Nat) (v : Core) : (s.setCore c v).meters = s.meters := rfl
@[simp] theorem State.setCore_clusters (s : State) (c : Nat) (v : Core) : (s.setCore c v).clusters = s.clusters := rfl
@[simp] theorem State.setCore_balore (s : State) (c : Nat) (v : Core) : (s.setCore c v).balore = s.balore := rfl
@[simp] theorem State.setCore_mgmt (s : State) (c : Nat) (v : Core) : (s.setCore c v).mgmt = s.mgmt := rfl
@[simp] theorem State.setCore_wall (s : State) (c : Nat) (v : Core) : (s.setCore c v).wall = s.wall := rfl
@[simp] theorem State.setCore_fixId (s : State) (c : Nat) (v : Core) : (s.setCore c v).fixId = s.fixId := rfl
@[simp] theorem State.setCore_fixes (s : State) (c : Nat) (v : Core) : (s.setCore c v).fixes = s.fixes := rfl
@[simp] theorem State.setCore_nextCtx (s : State) (c : Nat) (v : Core) : (s.setCore c v).nextCtx = s.nextCtx := rfl
@[simp] theorem State.setCore_qseq (s : State) (c : Nat) (v : Core) : (s.setCore c v).qseq = s.qseq := rfl
@[simp] theorem State.setCore_qAlive (s : State) (c : Nat) (v : Core) : (s.setCore c v).qAlive = s.qAlive := rfl
@[simp] theorem State.setCore_qStamp (s : State) (c : Nat) (v : Core) : (s.setCore c v).qStamp = s.qStamp := rfl
@[simp] theorem State.setCore_stamp (s : State) (c : Nat) (v : Core) : (s.setCore c v).stamp = s.stamp := rfl
@[simp] theorem State.setCore_reply (s : State) (c : Nat) (v : Core) : (s.setCore c v).reply = s.reply := rfl
@[simp] theorem State.setCore_free (s : State) (c : Nat) (v : Core) : (s.setCore c v).free = s.free := rfl
@[simp] theorem State.setCore_ctx (s : State) (c : Nat) (v : Core) : (s.setCore c v).ctx = s.ctx := rfl
@[simp] theorem State.setCore_turns (s : State) (c : Nat) (v : Core) : (s.setCore c v).turns = s.turns := rfl

@[simp] theorem State.modCore_groups (s : State) (c : Nat) (f : Core → Core) : (s.modCore c f).groups = s.groups := rfl
@[simp] theorem State.modCore_parts (s : State) (c : Nat) (f : Core → Core) : (s.modCore c f).parts = s.parts := rfl
@[simp] theorem State.modCore_hbm (s : State) (c : Nat) (f : Core → Core) : (s.modCore c f).hbm = s.hbm := rfl
@[simp] theorem State.modCore_peer (s : State) (c : Nat) (f : Core → Core) : (s.modCore c f).peer = s.peer := rfl
@[simp] theorem State.modCore_order (s : State) (c : Nat) (f : Core → Core) : (s.modCore c f).order = s.order := rfl
@[simp] theorem State.modCore_lostNodes (s : State) (c : Nat) (f : Core → Core) : (s.modCore c f).lostNodes = s.lostNodes := rfl
@[simp] theorem State.modCore_bad (s : State) (c : Nat) (f : Core → Core) : (s.modCore c f).bad = s.bad := rfl
@[simp] theorem State.modCore_copying (s : State) (c : Nat) (f : Core → Core) : (s.modCore c f).copying = s.copying := rfl
@[simp] theorem State.modCore_remapped (s : State) (c : Nat) (f : Core → Core) : (s.modCore c f).remapped = s.remapped := rfl
@[simp] theorem State.modCore_dead (s : State) (c : Nat) (f : Core → Core) : (s.modCore c f).dead = s.dead := rfl
@[simp] theorem State.modCore_delayed (s : State) (c : Nat) (f : Core → Core) : (s.modCore c f).delayed = s.delayed := rfl
@[simp] theorem State.modCore_power (s : State) (c : Nat) (f : Core → Core) : (s.modCore c f).power = s.power := rfl
@[simp] theorem State.modCore_meters (s : State) (c : Nat) (f : Core → Core) : (s.modCore c f).meters = s.meters := rfl
@[simp] theorem State.modCore_clusters (s : State) (c : Nat) (f : Core → Core) : (s.modCore c f).clusters = s.clusters := rfl
@[simp] theorem State.modCore_balore (s : State) (c : Nat) (f : Core → Core) : (s.modCore c f).balore = s.balore := rfl
@[simp] theorem State.modCore_mgmt (s : State) (c : Nat) (f : Core → Core) : (s.modCore c f).mgmt = s.mgmt := rfl
@[simp] theorem State.modCore_wall (s : State) (c : Nat) (f : Core → Core) : (s.modCore c f).wall = s.wall := rfl
@[simp] theorem State.modCore_fixId (s : State) (c : Nat) (f : Core → Core) : (s.modCore c f).fixId = s.fixId := rfl
@[simp] theorem State.modCore_fixes (s : State) (c : Nat) (f : Core → Core) : (s.modCore c f).fixes = s.fixes := rfl
@[simp] theorem State.modCore_nextCtx (s : State) (c : Nat) (f : Core → Core) : (s.modCore c f).nextCtx = s.nextCtx := rfl
@[simp] theorem State.modCore_qseq (s : State) (c : Nat) (f : Core → Core) : (s.modCore c f).qseq = s.qseq := rfl
@[simp] theorem State.modCore_qAlive (s : State) (c : Nat) (f : Core → Core) : (s.modCore c f).qAlive = s.qAlive := rfl
@[simp] theorem State.modCore_qStamp (s : State) (c : Nat) (f : Core → Core) : (s.modCore c f).qStamp = s.qStamp := rfl
@[simp] theorem State.modCore_stamp (s : State) (c : Nat) (f : Core → Core) : (s.modCore c f).stamp = s.stamp := rfl
@[simp] theorem State.modCore_reply (s : State) (c : Nat) (f : Core → Core) : (s.modCore c f).reply = s.reply := rfl
@[simp] theorem State.modCore_free (s : State) (c : Nat) (f : Core → Core) : (s.modCore c f).free = s.free := rfl
@[simp] theorem State.modCore_ctx (s : State) (c : Nat) (f : Core → Core) : (s.modCore c f).ctx = s.ctx := rfl
@[simp] theorem State.modCore_turns (s : State) (c : Nat) (f : Core → Core) : (s.modCore c f).turns = s.turns := rfl

@[simp] theorem State.modMe_groups (s : State) (f : Core → Core) : (s.modMe f).groups = s.groups := rfl
@[simp] theorem State.modMe_parts (s : State) (f : Core → Core) : (s.modMe f).parts = s.parts := rfl
@[simp] theorem State.modMe_hbm (s : State) (f : Core → Core) : (s.modMe f).hbm = s.hbm := rfl
@[simp] theorem State.modMe_peer (s : State) (f : Core → Core) : (s.modMe f).peer = s.peer := rfl
@[simp] theorem State.modMe_order (s : State) (f : Core → Core) : (s.modMe f).order = s.order := rfl
@[simp] theorem State.modMe_lostNodes (s : State) (f : Core → Core) : (s.modMe f).lostNodes = s.lostNodes := rfl
@[simp] theorem State.modMe_bad (s : State) (f : Core → Core) : (s.modMe f).bad = s.bad := rfl
@[simp] theorem State.modMe_copying (s : State) (f : Core → Core) : (s.modMe f).copying = s.copying := rfl
@[simp] theorem State.modMe_remapped (s : State) (f : Core → Core) : (s.modMe f).remapped = s.remapped := rfl
@[simp] theorem State.modMe_dead (s : State) (f : Core → Core) : (s.modMe f).dead = s.dead := rfl
@[simp] theorem State.modMe_delayed (s : State) (f : Core → Core) : (s.modMe f).delayed = s.delayed := rfl
@[simp] theorem State.modMe_power (s : State) (f : Core → Core) : (s.modMe f).power = s.power := rfl
@[simp] theorem State.modMe_meters (s : State) (f : Core → Core) : (s.modMe f).meters = s.meters := rfl
@[simp] theorem State.modMe_clusters (s : State) (f : Core → Core) : (s.modMe f).clusters = s.clusters := rfl
@[simp] theorem State.modMe_balore (s : State) (f : Core → Core) : (s.modMe f).balore = s.balore := rfl
@[simp] theorem State.modMe_mgmt (s : State) (f : Core → Core) : (s.modMe f).mgmt = s.mgmt := rfl
@[simp] theorem State.modMe_wall (s : State) (f : Core → Core) : (s.modMe f).wall = s.wall := rfl
@[simp] theorem State.modMe_fixId (s : State) (f : Core → Core) : (s.modMe f).fixId = s.fixId := rfl
@[simp] theorem State.modMe_fixes (s : State) (f : Core → Core) : (s.modMe f).fixes = s.fixes := rfl
@[simp] theorem State.modMe_nextCtx (s : State) (f : Core → Core) : (s.modMe f).nextCtx = s.nextCtx := rfl
@[simp] theorem State.modMe_qseq (s : State) (f : Core → Core) : (s.modMe f).qseq = s.qseq := rfl
@[simp] theorem State.modMe_qAlive (s : State) (f : Core → Core) : (s.modMe f).qAlive = s.qAlive := rfl
@[simp] theorem State.modMe_qStamp (s : State) (f : Core → Core) : (s.modMe f).qStamp = s.qStamp := rfl
@[simp] theorem State.modMe_stamp (s : State) (f : Core → Core) : (s.modMe f).stamp = s.stamp := rfl
@[simp] theorem State.modMe_reply (s : State) (f : Core → Core) : (s.modMe f).reply = s.reply := rfl
@[simp] theorem State.modMe_free (s : State) (f : Core → Core) : (s.modMe f).free = s.free := rfl
@[simp] theorem State.modMe_ctx (s : State) (f : Core → Core) : (s.modMe f).ctx = s.ctx := rfl
@[simp] theorem State.modMe_turns (s : State) (f : Core → Core) : (s.modMe f).turns = s.turns := rfl

@[simp] theorem State.fly_groups (s : State) (o : Op) : (s.fly o).groups = s.groups := rfl
@[simp] theorem State.fly_parts (s : State) (o : Op) : (s.fly o).parts = s.parts := rfl
@[simp] theorem State.fly_hbm (s : State) (o : Op) : (s.fly o).hbm = s.hbm := rfl
@[simp] theorem State.fly_peer (s : State) (o : Op) : (s.fly o).peer = s.peer := rfl
@[simp] theorem State.fly_order (s : State) (o : Op) : (s.fly o).order = s.order := rfl
@[simp] theorem State.fly_lostNodes (s : State) (o : Op) : (s.fly o).lostNodes = s.lostNodes := rfl
@[simp] theorem State.fly_bad (s : State) (o : Op) : (s.fly o).bad = s.bad := rfl
@[simp] theorem State.fly_copying (s : State) (o : Op) : (s.fly o).copying = s.copying := rfl
@[simp] theorem State.fly_remapped (s : State) (o : Op) : (s.fly o).remapped = s.remapped := rfl
@[simp] theorem State.fly_dead (s : State) (o : Op) : (s.fly o).dead = s.dead := rfl
@[simp] theorem State.fly_delayed (s : State) (o : Op) : (s.fly o).delayed = s.delayed := rfl
@[simp] theorem State.fly_power (s : State) (o : Op) : (s.fly o).power = s.power := rfl
@[simp] theorem State.fly_meters (s : State) (o : Op) : (s.fly o).meters = s.meters := rfl
@[simp] theorem State.fly_clusters (s : State) (o : Op) : (s.fly o).clusters = s.clusters := rfl
@[simp] theorem State.fly_balore (s : State) (o : Op) : (s.fly o).balore = s.balore := rfl
@[simp] theorem State.fly_mgmt (s : State) (o : Op) : (s.fly o).mgmt = s.mgmt := rfl
@[simp] theorem State.fly_wall (s : State) (o : Op) : (s.fly o).wall = s.wall := rfl
@[simp] theorem State.fly_fixId (s : State) (o : Op) : (s.fly o).fixId = s.fixId := rfl
@[simp] theorem State.fly_fixes (s : State) (o : Op) : (s.fly o).fixes = s.fixes := rfl
@[simp] theorem State.fly_nextCtx (s : State) (o : Op) : (s.fly o).nextCtx = s.nextCtx := rfl
@[simp] theorem State.fly_qseq (s : State) (o : Op) : (s.fly o).qseq = s.qseq := rfl
@[simp] theorem State.fly_qAlive (s : State) (o : Op) : (s.fly o).qAlive = s.qAlive := rfl
@[simp] theorem State.fly_qStamp (s : State) (o : Op) : (s.fly o).qStamp = s.qStamp := rfl
@[simp] theorem State.fly_stamp (s : State) (o : Op) : (s.fly o).stamp = s.stamp := rfl
@[simp] theorem State.fly_reply (s : State) (o : Op) : (s.fly o).reply = s.reply := rfl
@[simp] theorem State.fly_free (s : State) (o : Op) : (s.fly o).free = s.free := rfl
@[simp] theorem State.fly_ctx (s : State) (o : Op) : (s.fly o).ctx = s.ctx := rfl
@[simp] theorem State.fly_turns (s : State) (o : Op) : (s.fly o).turns = s.turns := rfl

@[simp] theorem State.setPart_cores (s : State) (p : Nat) (v : Part) : (s.setPart p v).cores = s.cores := rfl
@[simp] theorem State.setPart_groups (s : State) (p : Nat) (v : Part) : (s.setPart p v).groups = s.groups := rfl
@[simp] theorem State.setPart_hbm (s : State) (p : Nat) (v : Part) : (s.setPart p v).hbm = s.hbm := rfl
@[simp] theorem State.setPart_peer (s : State) (p : Nat) (v : Part) : (s.setPart p v).peer = s.peer := rfl
@[simp] theorem State.setPart_order (s : State) (p : Nat) (v : Part) : (s.setPart p v).order = s.order := rfl
@[simp] theorem State.setPart_lostNodes (s : State) (p : Nat) (v : Part) : (s.setPart p v).lostNodes = s.lostNodes := rfl
@[simp] theorem State.setPart_bad (s : State) (p : Nat) (v : Part) : (s.setPart p v).bad = s.bad := rfl
@[simp] theorem State.setPart_copying (s : State) (p : Nat) (v : Part) : (s.setPart p v).copying = s.copying := rfl
@[simp] theorem State.setPart_remapped (s : State) (p : Nat) (v : Part) : (s.setPart p v).remapped = s.remapped := rfl
@[simp] theorem State.setPart_dead (s : State) (p : Nat) (v : Part) : (s.setPart p v).dead = s.dead := rfl
@[simp] theorem State.setPart_delayed (s : State) (p : Nat) (v : Part) : (s.setPart p v).delayed = s.delayed := rfl
@[simp] theorem State.setPart_power (s : State) (p : Nat) (v : Part) : (s.setPart p v).power = s.power := rfl
@[simp] theorem State.setPart_meters (s : State) (p : Nat) (v : Part) : (s.setPart p v).meters = s.meters := rfl
@[simp] theorem State.setPart_clusters (s : State) (p : Nat) (v : Part) : (s.setPart p v).clusters = s.clusters := rfl
@[simp] theorem State.setPart_balore (s : State) (p : Nat) (v : Part) : (s.setPart p v).balore = s.balore := rfl
@[simp] theorem State.setPart_mgmt (s : State) (p : Nat) (v : Part) : (s.setPart p v).mgmt = s.mgmt := rfl
@[simp] theorem State.setPart_wall (s : State) (p : Nat) (v : Part) : (s.setPart p v).wall = s.wall := rfl
@[simp] theorem State.setPart_fixId (s : State) (p : Nat) (v : Part) : (s.setPart p v).fixId = s.fixId := rfl
@[simp] theorem State.setPart_fixes (s : State) (p : Nat) (v : Part) : (s.setPart p v).fixes = s.fixes := rfl
@[simp] theorem State.setPart_nextCtx (s : State) (p : Nat) (v : Part) : (s.setPart p v).nextCtx = s.nextCtx := rfl
@[simp] theorem State.setPart_qseq (s : State) (p : Nat) (v : Part) : (s.setPart p v).qseq = s.qseq := rfl
@[simp] theorem State.setPart_qAlive (s : State) (p : Nat) (v : Part) : (s.setPart p v).qAlive = s.qAlive := rfl
@[simp] theorem State.setPart_qStamp (s : State) (p : Nat) (v : Part) : (s.setPart p v).qStamp = s.qStamp := rfl
@[simp] theorem State.setPart_stamp (s : State) (p : Nat) (v : Part) : (s.setPart p v).stamp = s.stamp := rfl
@[simp] theorem State.setPart_reply (s : State) (p : Nat) (v : Part) : (s.setPart p v).reply = s.reply := rfl
@[simp] theorem State.setPart_free (s : State) (p : Nat) (v : Part) : (s.setPart p v).free = s.free := rfl
@[simp] theorem State.setPart_ctx (s : State) (p : Nat) (v : Part) : (s.setPart p v).ctx = s.ctx := rfl
@[simp] theorem State.setPart_turns (s : State) (p : Nat) (v : Part) : (s.setPart p v).turns = s.turns := rfl

@[simp] theorem State.modPart_cores (s : State) (p : Nat) (f : Part → Part) : (s.modPart p f).cores = s.cores := rfl
@[simp] theorem State.modPart_groups (s : State) (p : Nat) (f : Part → Part) : (s.modPart p f).groups = s.groups := rfl
@[simp] theorem State.modPart_hbm (s : State) (p : Nat) (f : Part → Part) : (s.modPart p f).hbm = s.hbm := rfl
@[simp] theorem State.modPart_peer (s : State) (p : Nat) (f : Part → Part) : (s.modPart p f).peer = s.peer := rfl
@[simp] theorem State.modPart_order (s : State) (p : Nat) (f : Part → Part) : (s.modPart p f).order = s.order := rfl
@[simp] theorem State.modPart_lostNodes (s : State) (p : Nat) (f : Part → Part) : (s.modPart p f).lostNodes = s.lostNodes := rfl
@[simp] theorem State.modPart_bad (s : State) (p : Nat) (f : Part → Part) : (s.modPart p f).bad = s.bad := rfl
@[simp] theorem State.modPart_copying (s : State) (p : Nat) (f : Part → Part) : (s.modPart p f).copying = s.copying := rfl
@[simp] theorem State.modPart_remapped (s : State) (p : Nat) (f : Part → Part) : (s.modPart p f).remapped = s.remapped := rfl
@[simp] theorem State.modPart_dead (s : State) (p : Nat) (f : Part → Part) : (s.modPart p f).dead = s.dead := rfl
@[simp] theorem State.modPart_delayed (s : State) (p : Nat) (f : Part → Part) : (s.modPart p f).delayed = s.delayed := rfl
@[simp] theorem State.modPart_power (s : State) (p : Nat) (f : Part → Part) : (s.modPart p f).power = s.power := rfl
@[simp] theorem State.modPart_meters (s : State) (p : Nat) (f : Part → Part) : (s.modPart p f).meters = s.meters := rfl
@[simp] theorem State.modPart_clusters (s : State) (p : Nat) (f : Part → Part) : (s.modPart p f).clusters = s.clusters := rfl
@[simp] theorem State.modPart_balore (s : State) (p : Nat) (f : Part → Part) : (s.modPart p f).balore = s.balore := rfl
@[simp] theorem State.modPart_mgmt (s : State) (p : Nat) (f : Part → Part) : (s.modPart p f).mgmt = s.mgmt := rfl
@[simp] theorem State.modPart_wall (s : State) (p : Nat) (f : Part → Part) : (s.modPart p f).wall = s.wall := rfl
@[simp] theorem State.modPart_fixId (s : State) (p : Nat) (f : Part → Part) : (s.modPart p f).fixId = s.fixId := rfl
@[simp] theorem State.modPart_fixes (s : State) (p : Nat) (f : Part → Part) : (s.modPart p f).fixes = s.fixes := rfl
@[simp] theorem State.modPart_nextCtx (s : State) (p : Nat) (f : Part → Part) : (s.modPart p f).nextCtx = s.nextCtx := rfl
@[simp] theorem State.modPart_qseq (s : State) (p : Nat) (f : Part → Part) : (s.modPart p f).qseq = s.qseq := rfl
@[simp] theorem State.modPart_qAlive (s : State) (p : Nat) (f : Part → Part) : (s.modPart p f).qAlive = s.qAlive := rfl
@[simp] theorem State.modPart_qStamp (s : State) (p : Nat) (f : Part → Part) : (s.modPart p f).qStamp = s.qStamp := rfl
@[simp] theorem State.modPart_stamp (s : State) (p : Nat) (f : Part → Part) : (s.modPart p f).stamp = s.stamp := rfl
@[simp] theorem State.modPart_reply (s : State) (p : Nat) (f : Part → Part) : (s.modPart p f).reply = s.reply := rfl
@[simp] theorem State.modPart_free (s : State) (p : Nat) (f : Part → Part) : (s.modPart p f).free = s.free := rfl
@[simp] theorem State.modPart_ctx (s : State) (p : Nat) (f : Part → Part) : (s.modPart p f).ctx = s.ctx := rfl
@[simp] theorem State.modPart_turns (s : State) (p : Nat) (f : Part → Part) : (s.modPart p f).turns = s.turns := rfl

@[simp] theorem State.setGrp_cores (s : State) (g : Grp) : (s.setGrp g).cores = s.cores := rfl
@[simp] theorem State.setGrp_parts (s : State) (g : Grp) : (s.setGrp g).parts = s.parts := rfl
@[simp] theorem State.setGrp_hbm (s : State) (g : Grp) : (s.setGrp g).hbm = s.hbm := rfl
@[simp] theorem State.setGrp_peer (s : State) (g : Grp) : (s.setGrp g).peer = s.peer := rfl
@[simp] theorem State.setGrp_order (s : State) (g : Grp) : (s.setGrp g).order = s.order := rfl
@[simp] theorem State.setGrp_lostNodes (s : State) (g : Grp) : (s.setGrp g).lostNodes = s.lostNodes := rfl
@[simp] theorem State.setGrp_bad (s : State) (g : Grp) : (s.setGrp g).bad = s.bad := rfl
@[simp] theorem State.setGrp_copying (s : State) (g : Grp) : (s.setGrp g).copying = s.copying := rfl
@[simp] theorem State.setGrp_remapped (s : State) (g : Grp) : (s.setGrp g).remapped = s.remapped := rfl
@[simp] theorem State.setGrp_dead (s : State) (g : Grp) : (s.setGrp g).dead = s.dead := rfl
@[simp] theorem State.setGrp_delayed (s : State) (g : Grp) : (s.setGrp g).delayed = s.delayed := rfl
@[simp] theorem State.setGrp_power (s : State) (g : Grp) : (s.setGrp g).power = s.power := rfl
@[simp] theorem State.setGrp_meters (s : State) (g : Grp) : (s.setGrp g).meters = s.meters := rfl
@[simp] theorem State.setGrp_clusters (s : State) (g : Grp) : (s.setGrp g).clusters = s.clusters := rfl
@[simp] theorem State.setGrp_balore (s : State) (g : Grp) : (s.setGrp g).balore = s.balore := rfl
@[simp] theorem State.setGrp_mgmt (s : State) (g : Grp) : (s.setGrp g).mgmt = s.mgmt := rfl
@[simp] theorem State.setGrp_wall (s : State) (g : Grp) : (s.setGrp g).wall = s.wall := rfl
@[simp] theorem State.setGrp_fixId (s : State) (g : Grp) : (s.setGrp g).fixId = s.fixId := rfl
@[simp] theorem State.setGrp_fixes (s : State) (g : Grp) : (s.setGrp g).fixes = s.fixes := rfl
@[simp] theorem State.setGrp_nextCtx (s : State) (g : Grp) : (s.setGrp g).nextCtx = s.nextCtx := rfl
@[simp] theorem State.setGrp_qseq (s : State) (g : Grp) : (s.setGrp g).qseq = s.qseq := rfl
@[simp] theorem State.setGrp_qAlive (s : State) (g : Grp) : (s.setGrp g).qAlive = s.qAlive := rfl
@[simp] theorem State.setGrp_qStamp (s : State) (g : Grp) : (s.setGrp g).qStamp = s.qStamp := rfl
@[simp] theorem State.setGrp_stamp (s : State) (g : Grp) : (s.setGrp g).stamp = s.stamp := rfl
@[simp] theorem State.setGrp_reply (s : State) (g : Grp) : (s.setGrp g).reply = s.reply := rfl
@[simp] theorem State.setGrp_free (s : State) (g : Grp) : (s.setGrp g).free = s.free := rfl
@[simp] theorem State.setGrp_ctx (s : State) (g : Grp) : (s.setGrp g).ctx = s.ctx := rfl
@[simp] theorem State.setGrp_turns (s : State) (g : Grp) : (s.setGrp g).turns = s.turns := rfl

@[simp] theorem State.modGrp_cores (s : State) (n : Nat) (f : Grp → Grp) : (s.modGrp n f).cores = s.cores := rfl
@[simp] theorem State.modGrp_parts (s : State) (n : Nat) (f : Grp → Grp) : (s.modGrp n f).parts = s.parts := rfl
@[simp] theorem State.modGrp_hbm (s : State) (n : Nat) (f : Grp → Grp) : (s.modGrp n f).hbm = s.hbm := rfl
@[simp] theorem State.modGrp_peer (s : State) (n : Nat) (f : Grp → Grp) : (s.modGrp n f).peer = s.peer := rfl
@[simp] theorem State.modGrp_order (s : State) (n : Nat) (f : Grp → Grp) : (s.modGrp n f).order = s.order := rfl
@[simp] theorem State.modGrp_lostNodes (s : State) (n : Nat) (f : Grp → Grp) : (s.modGrp n f).lostNodes = s.lostNodes := rfl
@[simp] theorem State.modGrp_bad (s : State) (n : Nat) (f : Grp → Grp) : (s.modGrp n f).bad = s.bad := rfl
@[simp] theorem State.modGrp_copying (s : State) (n : Nat) (f : Grp → Grp) : (s.modGrp n f).copying = s.copying := rfl
@[simp] theorem State.modGrp_remapped (s : State) (n : Nat) (f : Grp → Grp) : (s.modGrp n f).remapped = s.remapped := rfl
@[simp] theorem State.modGrp_dead (s : State) (n : Nat) (f : Grp → Grp) : (s.modGrp n f).dead = s.dead := rfl
@[simp] theorem State.modGrp_delayed (s : State) (n : Nat) (f : Grp → Grp) : (s.modGrp n f).delayed = s.delayed := rfl
@[simp] theorem State.modGrp_power (s : State) (n : Nat) (f : Grp → Grp) : (s.modGrp n f).power = s.power := rfl
@[simp] theorem State.modGrp_meters (s : State) (n : Nat) (f : Grp → Grp) : (s.modGrp n f).meters = s.meters := rfl
@[simp] theorem State.modGrp_clusters (s : State) (n : Nat) (f : Grp → Grp) : (s.modGrp n f).clusters = s.clusters := rfl
@[simp] theorem State.modGrp_balore (s : State) (n : Nat) (f : Grp → Grp) : (s.modGrp n f).balore = s.balore := rfl
@[simp] theorem State.modGrp_mgmt (s : State) (n : Nat) (f : Grp → Grp) : (s.modGrp n f).mgmt = s.mgmt := rfl
@[simp] theorem State.modGrp_wall (s : State) (n : Nat) (f : Grp → Grp) : (s.modGrp n f).wall = s.wall := rfl
@[simp] theorem State.modGrp_fixId (s : State) (n : Nat) (f : Grp → Grp) : (s.modGrp n f).fixId = s.fixId := rfl
@[simp] theorem State.modGrp_fixes (s : State) (n : Nat) (f : Grp → Grp) : (s.modGrp n f).fixes = s.fixes := rfl
@[simp] theorem State.modGrp_nextCtx (s : State) (n : Nat) (f : Grp → Grp) : (s.modGrp n f).nextCtx = s.nextCtx := rfl
@[simp] theorem State.modGrp_qseq (s : State) (n : Nat) (f : Grp → Grp) : (s.modGrp n f).qseq = s.qseq := rfl
@[simp] theorem State.modGrp_qAlive (s : State) (n : Nat) (f : Grp → Grp) : (s.modGrp n f).qAlive = s.qAlive := rfl
@[simp] theorem State.modGrp_qStamp (s : State) (n : Nat) (f : Grp → Grp) : (s.modGrp n f).qStamp = s.qStamp := rfl
@[simp] theorem State.modGrp_stamp (s : State) (n : Nat) (f : Grp → Grp) : (s.modGrp n f).stamp = s.stamp := rfl
@[simp] theorem State.modGrp_reply (s : State) (n : Nat) (f : Grp → Grp) : (s.modGrp n f).reply = s.reply := rfl
@[simp] theorem State.modGrp_free (s : State) (n : Nat) (f : Grp → Grp) : (s.modGrp n f).free = s.free := rfl
@[simp] theorem State.modGrp_ctx (s : State) (n : Nat) (f : Grp → Grp) : (s.modGrp n f).ctx = s.ctx := rfl
@[simp] theorem State.modGrp_turns (s : State) (n : Nat) (f : Grp → Grp) : (s.modGrp n f).turns = s.turns := rfl

@[simp] theorem State.setMcore_cores (s : State) (n : Nat) (v : Mgmt) : (s.setMcore n v).cores = s.cores := rfl
@[simp] theorem State.setMcore_groups (s : State) (n : Nat) (v : Mgmt) : (s.setMcore n v).groups = s.groups := rfl
@[simp] theorem State.setMcore_parts (s : State) (n : Nat) (v : Mgmt) : (s.setMcore n v).parts = s.parts := rfl
@[simp] theorem State.setMcore_hbm (s : State) (n : Nat) (v : Mgmt) : (s.setMcore n v).hbm = s.hbm := rfl
@[simp] theorem State.setMcore_peer (s : State) (n : Nat) (v : Mgmt) : (s.setMcore n v).peer = s.peer := rfl
@[simp] theorem State.setMcore_order (s : State) (n : Nat) (v : Mgmt) : (s.setMcore n v).order = s.order := rfl
@[simp] theorem State.setMcore_lostNodes (s : State) (n : Nat) (v : Mgmt) : (s.setMcore n v).lostNodes = s.lostNodes := rfl
@[simp] theorem State.setMcore_bad (s : State) (n : Nat) (v : Mgmt) : (s.setMcore n v).bad = s.bad := rfl
@[simp] theorem State.setMcore_copying (s : State) (n : Nat) (v : Mgmt) : (s.setMcore n v).copying = s.copying := rfl
@[simp] theorem State.setMcore_remapped (s : State) (n : Nat) (v : Mgmt) : (s.setMcore n v).remapped = s.remapped := rfl
@[simp] theorem State.setMcore_dead (s : State) (n : Nat) (v : Mgmt) : (s.setMcore n v).dead = s.dead := rfl
@[simp] theorem State.setMcore_delayed (s : State) (n : Nat) (v : Mgmt) : (s.setMcore n v).delayed = s.delayed := rfl
@[simp] theorem State.setMcore_power (s : State) (n : Nat) (v : Mgmt) : (s.setMcore n v).power = s.power := rfl
@[simp] theorem State.setMcore_meters (s : State) (n : Nat) (v : Mgmt) : (s.setMcore n v).meters = s.meters := rfl
@[simp] theorem State.setMcore_clusters (s : State) (n : Nat) (v : Mgmt) : (s.setMcore n v).clusters = s.clusters := rfl
@[simp] theorem State.setMcore_balore (s : State) (n : Nat) (v : Mgmt) : (s.setMcore n v).balore = s.balore := rfl
@[simp] theorem State.setMcore_wall (s : State) (n : Nat) (v : Mgmt) : (s.setMcore n v).wall = s.wall := rfl
@[simp] theorem State.setMcore_fixId (s : State) (n : Nat) (v : Mgmt) : (s.setMcore n v).fixId = s.fixId := rfl
@[simp] theorem State.setMcore_fixes (s : State) (n : Nat) (v : Mgmt) : (s.setMcore n v).fixes = s.fixes := rfl
@[simp] theorem State.setMcore_nextCtx (s : State) (n : Nat) (v : Mgmt) : (s.setMcore n v).nextCtx = s.nextCtx := rfl
@[simp] theorem State.setMcore_qseq (s : State) (n : Nat) (v : Mgmt) : (s.setMcore n v).qseq = s.qseq := rfl
@[simp] theorem State.setMcore_qAlive (s : State) (n : Nat) (v : Mgmt) : (s.setMcore n v).qAlive = s.qAlive := rfl
@[simp] theorem State.setMcore_qStamp (s : State) (n : Nat) (v : Mgmt) : (s.setMcore n v).qStamp = s.qStamp := rfl
@[simp] theorem State.setMcore_stamp (s : State) (n : Nat) (v : Mgmt) : (s.setMcore n v).stamp = s.stamp := rfl
@[simp] theorem State.setMcore_reply (s : State) (n : Nat) (v : Mgmt) : (s.setMcore n v).reply = s.reply := rfl
@[simp] theorem State.setMcore_free (s : State) (n : Nat) (v : Mgmt) : (s.setMcore n v).free = s.free := rfl
@[simp] theorem State.setMcore_ctx (s : State) (n : Nat) (v : Mgmt) : (s.setMcore n v).ctx = s.ctx := rfl
@[simp] theorem State.setMcore_turns (s : State) (n : Nat) (v : Mgmt) : (s.setMcore n v).turns = s.turns := rfl

@[simp] theorem State.setCluster_cores (s : State) (k : Nat) (v : Cluster) : (s.setCluster k v).cores = s.cores := rfl
@[simp] theorem State.setCluster_groups (s : State) (k : Nat) (v : Cluster) : (s.setCluster k v).groups = s.groups := rfl
@[simp] theorem State.setCluster_parts (s : State) (k : Nat) (v : Cluster) : (s.setCluster k v).parts = s.parts := rfl
@[simp] theorem State.setCluster_hbm (s : State) (k : Nat) (v : Cluster) : (s.setCluster k v).hbm = s.hbm := rfl
@[simp] theorem State.setCluster_peer (s : State) (k : Nat) (v : Cluster) : (s.setCluster k v).peer = s.peer := rfl
@[simp] theorem State.setCluster_order (s : State) (k : Nat) (v : Cluster) : (s.setCluster k v).order = s.order := rfl
@[simp] theorem State.setCluster_lostNodes (s : State) (k : Nat) (v : Cluster) : (s.setCluster k v).lostNodes = s.lostNodes := rfl
@[simp] theorem State.setCluster_bad (s : State) (k : Nat) (v : Cluster) : (s.setCluster k v).bad = s.bad := rfl
@[simp] theorem State.setCluster_copying (s : State) (k : Nat) (v : Cluster) : (s.setCluster k v).copying = s.copying := rfl
@[simp] theorem State.setCluster_remapped (s : State) (k : Nat) (v : Cluster) : (s.setCluster k v).remapped = s.remapped := rfl
@[simp] theorem State.setCluster_dead (s : State) (k : Nat) (v : Cluster) : (s.setCluster k v).dead = s.dead := rfl
@[simp] theorem State.setCluster_delayed (s : State) (k : Nat) (v : Cluster) : (s.setCluster k v).delayed = s.delayed := rfl
@[simp] theorem State.setCluster_power (s : State) (k : Nat) (v : Cluster) : (s.setCluster k v).power = s.power := rfl
@[simp] theorem State.setCluster_meters (s : State) (k : Nat) (v : Cluster) : (s.setCluster k v).meters = s.meters := rfl
@[simp] theorem State.setCluster_balore (s : State) (k : Nat) (v : Cluster) : (s.setCluster k v).balore = s.balore := rfl
@[simp] theorem State.setCluster_mgmt (s : State) (k : Nat) (v : Cluster) : (s.setCluster k v).mgmt = s.mgmt := rfl
@[simp] theorem State.setCluster_wall (s : State) (k : Nat) (v : Cluster) : (s.setCluster k v).wall = s.wall := rfl
@[simp] theorem State.setCluster_fixId (s : State) (k : Nat) (v : Cluster) : (s.setCluster k v).fixId = s.fixId := rfl
@[simp] theorem State.setCluster_fixes (s : State) (k : Nat) (v : Cluster) : (s.setCluster k v).fixes = s.fixes := rfl
@[simp] theorem State.setCluster_nextCtx (s : State) (k : Nat) (v : Cluster) : (s.setCluster k v).nextCtx = s.nextCtx := rfl
@[simp] theorem State.setCluster_qseq (s : State) (k : Nat) (v : Cluster) : (s.setCluster k v).qseq = s.qseq := rfl
@[simp] theorem State.setCluster_qAlive (s : State) (k : Nat) (v : Cluster) : (s.setCluster k v).qAlive = s.qAlive := rfl
@[simp] theorem State.setCluster_qStamp (s : State) (k : Nat) (v : Cluster) : (s.setCluster k v).qStamp = s.qStamp := rfl
@[simp] theorem State.setCluster_stamp (s : State) (k : Nat) (v : Cluster) : (s.setCluster k v).stamp = s.stamp := rfl
@[simp] theorem State.setCluster_reply (s : State) (k : Nat) (v : Cluster) : (s.setCluster k v).reply = s.reply := rfl
@[simp] theorem State.setCluster_free (s : State) (k : Nat) (v : Cluster) : (s.setCluster k v).free = s.free := rfl
@[simp] theorem State.setCluster_ctx (s : State) (k : Nat) (v : Cluster) : (s.setCluster k v).ctx = s.ctx := rfl
@[simp] theorem State.setCluster_turns (s : State) (k : Nat) (v : Cluster) : (s.setCluster k v).turns = s.turns := rfl

@[simp] theorem State.waiting_cores (s : State) (why : Slip) : (s.waiting why).cores = s.cores := rfl
@[simp] theorem State.waiting_groups (s : State) (why : Slip) : (s.waiting why).groups = s.groups := rfl
@[simp] theorem State.waiting_parts (s : State) (why : Slip) : (s.waiting why).parts = s.parts := rfl
@[simp] theorem State.waiting_hbm (s : State) (why : Slip) : (s.waiting why).hbm = s.hbm := rfl
@[simp] theorem State.waiting_peer (s : State) (why : Slip) : (s.waiting why).peer = s.peer := rfl
@[simp] theorem State.waiting_order (s : State) (why : Slip) : (s.waiting why).order = s.order := rfl
@[simp] theorem State.waiting_lostNodes (s : State) (why : Slip) : (s.waiting why).lostNodes = s.lostNodes := rfl
@[simp] theorem State.waiting_bad (s : State) (why : Slip) : (s.waiting why).bad = s.bad := rfl
@[simp] theorem State.waiting_copying (s : State) (why : Slip) : (s.waiting why).copying = s.copying := rfl
@[simp] theorem State.waiting_remapped (s : State) (why : Slip) : (s.waiting why).remapped = s.remapped := rfl
@[simp] theorem State.waiting_dead (s : State) (why : Slip) : (s.waiting why).dead = s.dead := rfl
@[simp] theorem State.waiting_delayed (s : State) (why : Slip) : (s.waiting why).delayed = s.delayed := rfl
@[simp] theorem State.waiting_power (s : State) (why : Slip) : (s.waiting why).power = s.power := rfl
@[simp] theorem State.waiting_meters (s : State) (why : Slip) : (s.waiting why).meters = s.meters := rfl
@[simp] theorem State.waiting_clusters (s : State) (why : Slip) : (s.waiting why).clusters = s.clusters := rfl
@[simp] theorem State.waiting_balore (s : State) (why : Slip) : (s.waiting why).balore = s.balore := rfl
@[simp] theorem State.waiting_mgmt (s : State) (why : Slip) : (s.waiting why).mgmt = s.mgmt := rfl
@[simp] theorem State.waiting_wall (s : State) (why : Slip) : (s.waiting why).wall = s.wall := rfl
@[simp] theorem State.waiting_fixId (s : State) (why : Slip) : (s.waiting why).fixId = s.fixId := rfl
@[simp] theorem State.waiting_fixes (s : State) (why : Slip) : (s.waiting why).fixes = s.fixes := rfl
@[simp] theorem State.waiting_nextCtx (s : State) (why : Slip) : (s.waiting why).nextCtx = s.nextCtx := rfl
@[simp] theorem State.waiting_qseq (s : State) (why : Slip) : (s.waiting why).qseq = s.qseq := rfl
@[simp] theorem State.waiting_qAlive (s : State) (why : Slip) : (s.waiting why).qAlive = s.qAlive := rfl
@[simp] theorem State.waiting_qStamp (s : State) (why : Slip) : (s.waiting why).qStamp = s.qStamp := rfl
@[simp] theorem State.waiting_stamp (s : State) (why : Slip) : (s.waiting why).stamp = s.stamp := rfl
@[simp] theorem State.waiting_reply (s : State) (why : Slip) : (s.waiting why).reply = s.reply := rfl
@[simp] theorem State.waiting_free (s : State) (why : Slip) : (s.waiting why).free = s.free := rfl
@[simp] theorem State.waiting_turns (s : State) (why : Slip) : (s.waiting why).turns = s.turns := rfl

@[simp] theorem State.leave_cores (s : State) (c : Ctl) : (s.leave c).cores = s.cores := rfl
@[simp] theorem State.leave_groups (s : State) (c : Ctl) : (s.leave c).groups = s.groups := rfl
@[simp] theorem State.leave_parts (s : State) (c : Ctl) : (s.leave c).parts = s.parts := rfl
@[simp] theorem State.leave_hbm (s : State) (c : Ctl) : (s.leave c).hbm = s.hbm := rfl
@[simp] theorem State.leave_peer (s : State) (c : Ctl) : (s.leave c).peer = s.peer := rfl
@[simp] theorem State.leave_order (s : State) (c : Ctl) : (s.leave c).order = s.order := rfl
@[simp] theorem State.leave_lostNodes (s : State) (c : Ctl) : (s.leave c).lostNodes = s.lostNodes := rfl
@[simp] theorem State.leave_bad (s : State) (c : Ctl) : (s.leave c).bad = s.bad := rfl
@[simp] theorem State.leave_copying (s : State) (c : Ctl) : (s.leave c).copying = s.copying := rfl
@[simp] theorem State.leave_remapped (s : State) (c : Ctl) : (s.leave c).remapped = s.remapped := rfl
@[simp] theorem State.leave_dead (s : State) (c : Ctl) : (s.leave c).dead = s.dead := rfl
@[simp] theorem State.leave_delayed (s : State) (c : Ctl) : (s.leave c).delayed = s.delayed := rfl
@[simp] theorem State.leave_power (s : State) (c : Ctl) : (s.leave c).power = s.power := rfl
@[simp] theorem State.leave_meters (s : State) (c : Ctl) : (s.leave c).meters = s.meters := rfl
@[simp] theorem State.leave_clusters (s : State) (c : Ctl) : (s.leave c).clusters = s.clusters := rfl
@[simp] theorem State.leave_balore (s : State) (c : Ctl) : (s.leave c).balore = s.balore := rfl
@[simp] theorem State.leave_mgmt (s : State) (c : Ctl) : (s.leave c).mgmt = s.mgmt := rfl
@[simp] theorem State.leave_wall (s : State) (c : Ctl) : (s.leave c).wall = s.wall := rfl
@[simp] theorem State.leave_fixId (s : State) (c : Ctl) : (s.leave c).fixId = s.fixId := rfl
@[simp] theorem State.leave_fixes (s : State) (c : Ctl) : (s.leave c).fixes = s.fixes := rfl
@[simp] theorem State.leave_nextCtx (s : State) (c : Ctl) : (s.leave c).nextCtx = s.nextCtx := rfl
@[simp] theorem State.leave_qseq (s : State) (c : Ctl) : (s.leave c).qseq = s.qseq := rfl
@[simp] theorem State.leave_qAlive (s : State) (c : Ctl) : (s.leave c).qAlive = s.qAlive := rfl
@[simp] theorem State.leave_qStamp (s : State) (c : Ctl) : (s.leave c).qStamp = s.qStamp := rfl
@[simp] theorem State.leave_stamp (s : State) (c : Ctl) : (s.leave c).stamp = s.stamp := rfl
@[simp] theorem State.leave_reply (s : State) (c : Ctl) : (s.leave c).reply = s.reply := rfl
@[simp] theorem State.leave_free (s : State) (c : Ctl) : (s.leave c).free = s.free := rfl
@[simp] theorem State.leave_turns (s : State) (c : Ctl) : (s.leave c).turns = s.turns := rfl

@[simp] theorem State.defer_cores (s : State) (w : AWrite) : (s.defer w).cores = s.cores := rfl
@[simp] theorem State.defer_groups (s : State) (w : AWrite) : (s.defer w).groups = s.groups := rfl
@[simp] theorem State.defer_parts (s : State) (w : AWrite) : (s.defer w).parts = s.parts := rfl
@[simp] theorem State.defer_hbm (s : State) (w : AWrite) : (s.defer w).hbm = s.hbm := rfl
@[simp] theorem State.defer_peer (s : State) (w : AWrite) : (s.defer w).peer = s.peer := rfl
@[simp] theorem State.defer_order (s : State) (w : AWrite) : (s.defer w).order = s.order := rfl
@[simp] theorem State.defer_lostNodes (s : State) (w : AWrite) : (s.defer w).lostNodes = s.lostNodes := rfl
@[simp] theorem State.defer_bad (s : State) (w : AWrite) : (s.defer w).bad = s.bad := rfl
@[simp] theorem State.defer_copying (s : State) (w : AWrite) : (s.defer w).copying = s.copying := rfl
@[simp] theorem State.defer_remapped (s : State) (w : AWrite) : (s.defer w).remapped = s.remapped := rfl
@[simp] theorem State.defer_dead (s : State) (w : AWrite) : (s.defer w).dead = s.dead := rfl
@[simp] theorem State.defer_delayed (s : State) (w : AWrite) : (s.defer w).delayed = s.delayed := rfl
@[simp] theorem State.defer_power (s : State) (w : AWrite) : (s.defer w).power = s.power := rfl
@[simp] theorem State.defer_meters (s : State) (w : AWrite) : (s.defer w).meters = s.meters := rfl
@[simp] theorem State.defer_clusters (s : State) (w : AWrite) : (s.defer w).clusters = s.clusters := rfl
@[simp] theorem State.defer_balore (s : State) (w : AWrite) : (s.defer w).balore = s.balore := rfl
@[simp] theorem State.defer_mgmt (s : State) (w : AWrite) : (s.defer w).mgmt = s.mgmt := rfl
@[simp] theorem State.defer_wall (s : State) (w : AWrite) : (s.defer w).wall = s.wall := rfl
@[simp] theorem State.defer_fixId (s : State) (w : AWrite) : (s.defer w).fixId = s.fixId := rfl
@[simp] theorem State.defer_fixes (s : State) (w : AWrite) : (s.defer w).fixes = s.fixes := rfl
@[simp] theorem State.defer_nextCtx (s : State) (w : AWrite) : (s.defer w).nextCtx = s.nextCtx := rfl
@[simp] theorem State.defer_qseq (s : State) (w : AWrite) : (s.defer w).qseq = s.qseq := rfl
@[simp] theorem State.defer_qAlive (s : State) (w : AWrite) : (s.defer w).qAlive = s.qAlive := rfl
@[simp] theorem State.defer_qStamp (s : State) (w : AWrite) : (s.defer w).qStamp = s.qStamp := rfl
@[simp] theorem State.defer_stamp (s : State) (w : AWrite) : (s.defer w).stamp = s.stamp := rfl
@[simp] theorem State.defer_reply (s : State) (w : AWrite) : (s.defer w).reply = s.reply := rfl
@[simp] theorem State.defer_free (s : State) (w : AWrite) : (s.defer w).free = s.free := rfl
@[simp] theorem State.defer_turns (s : State) (w : AWrite) : (s.defer w).turns = s.turns := rfl

@[simp] theorem State.waiting_ctx_who (s : State) (why : Slip) : (s.waiting why).ctx.who = s.ctx.who := rfl
@[simp] theorem State.waiting_ctx_core (s : State) (why : Slip) : (s.waiting why).ctx.core = s.ctx.core := rfl
@[simp] theorem State.waiting_ctx_pc (s : State) (why : Slip) : (s.waiting why).ctx.pc = s.ctx.pc := rfl
@[simp] theorem State.waiting_ctx_word (s : State) (why : Slip) : (s.waiting why).ctx.word = s.ctx.word := rfl
@[simp] theorem State.waiting_ctx_past (s : State) (why : Slip) : (s.waiting why).ctx.past = s.ctx.past := rfl
@[simp] theorem State.waiting_ctx_iseq (s : State) (why : Slip) : (s.waiting why).ctx.iseq = s.ctx.iseq := rfl
@[simp] theorem State.waiting_ctx_first (s : State) (why : Slip) : (s.waiting why).ctx.first = s.ctx.first := rfl
@[simp] theorem State.waiting_ctx_tick (s : State) (why : Slip) : (s.waiting why).ctx.tick = s.ctx.tick := rfl
@[simp] theorem State.waiting_ctx_room (s : State) (why : Slip) : (s.waiting why).ctx.room = s.ctx.room := rfl
@[simp] theorem State.waiting_ctx_ctl (s : State) (why : Slip) : (s.waiting why).ctx.ctl = s.ctx.ctl := rfl
@[simp] theorem State.waiting_ctx_writes (s : State) (why : Slip) : (s.waiting why).ctx.writes = s.ctx.writes := rfl
@[simp] theorem State.leave_ctx_who (s : State) (c : Ctl) : (s.leave c).ctx.who = s.ctx.who := rfl
@[simp] theorem State.leave_ctx_core (s : State) (c : Ctl) : (s.leave c).ctx.core = s.ctx.core := rfl
@[simp] theorem State.leave_ctx_pc (s : State) (c : Ctl) : (s.leave c).ctx.pc = s.ctx.pc := rfl
@[simp] theorem State.leave_ctx_word (s : State) (c : Ctl) : (s.leave c).ctx.word = s.ctx.word := rfl
@[simp] theorem State.leave_ctx_past (s : State) (c : Ctl) : (s.leave c).ctx.past = s.ctx.past := rfl
@[simp] theorem State.leave_ctx_iseq (s : State) (c : Ctl) : (s.leave c).ctx.iseq = s.ctx.iseq := rfl
@[simp] theorem State.leave_ctx_first (s : State) (c : Ctl) : (s.leave c).ctx.first = s.ctx.first := rfl
@[simp] theorem State.leave_ctx_tick (s : State) (c : Ctl) : (s.leave c).ctx.tick = s.ctx.tick := rfl
@[simp] theorem State.leave_ctx_room (s : State) (c : Ctl) : (s.leave c).ctx.room = s.ctx.room := rfl
@[simp] theorem State.leave_ctx_out (s : State) (c : Ctl) : (s.leave c).ctx.out = s.ctx.out := rfl
@[simp] theorem State.leave_ctx_writes (s : State) (c : Ctl) : (s.leave c).ctx.writes = s.ctx.writes := rfl
@[simp] theorem State.defer_ctx_who (s : State) (w : AWrite) : (s.defer w).ctx.who = s.ctx.who := rfl
@[simp] theorem State.defer_ctx_core (s : State) (w : AWrite) : (s.defer w).ctx.core = s.ctx.core := rfl
@[simp] theorem State.defer_ctx_pc (s : State) (w : AWrite) : (s.defer w).ctx.pc = s.ctx.pc := rfl
@[simp] theorem State.defer_ctx_word (s : State) (w : AWrite) : (s.defer w).ctx.word = s.ctx.word := rfl
@[simp] theorem State.defer_ctx_past (s : State) (w : AWrite) : (s.defer w).ctx.past = s.ctx.past := rfl
@[simp] theorem State.defer_ctx_iseq (s : State) (w : AWrite) : (s.defer w).ctx.iseq = s.ctx.iseq := rfl
@[simp] theorem State.defer_ctx_first (s : State) (w : AWrite) : (s.defer w).ctx.first = s.ctx.first := rfl
@[simp] theorem State.defer_ctx_tick (s : State) (w : AWrite) : (s.defer w).ctx.tick = s.ctx.tick := rfl
@[simp] theorem State.defer_ctx_room (s : State) (w : AWrite) : (s.defer w).ctx.room = s.ctx.room := rfl
@[simp] theorem State.defer_ctx_out (s : State) (w : AWrite) : (s.defer w).ctx.out = s.ctx.out := rfl
@[simp] theorem State.defer_ctx_ctl (s : State) (w : AWrite) : (s.defer w).ctx.ctl = s.ctx.ctl := rfl
@[simp] theorem State.waiting_ctx_out (s : State) (why : Slip) : (s.waiting why).ctx.out = .waits why := rfl
@[simp] theorem State.leave_ctx_ctl (s : State) (c : Ctl) : (s.leave c).ctx.ctl = c := rfl
@[simp] theorem State.defer_ctx_writes (s : State) (w : AWrite) : (s.defer w).ctx.writes = s.ctx.writes ++ [w] := rfl

/-! What a named update of one core leaves alone. -/

@[simp] theorem Core.setQueue_owner (c : Core) (k : Nat) (q : Queue) : (c.setQueue k q).owner = c.owner := rfl
@[simp] theorem Core.setQueue_part (c : Core) (k : Nat) (q : Queue) : (c.setQueue k q).part = c.part := rfl
@[simp] theorem Core.setQueue_failed (c : Core) (k : Nat) (q : Queue) : (c.setQueue k q).failed = c.failed := rfl
@[simp] theorem Core.setQueue_x (c : Core) (k : Nat) (q : Queue) : (c.setQueue k q).x = c.x := rfl
@[simp] theorem Core.setQueue_a (c : Core) (k : Nat) (q : Queue) : (c.setQueue k q).a = c.a := rfl
@[simp] theorem Core.setQueue_saved (c : Core) (k : Nat) (q : Queue) : (c.setQueue k q).saved = c.saved := rfl
@[simp] theorem Core.setQueue_resumed (c : Core) (k : Nat) (q : Queue) : (c.setQueue k q).resumed = c.resumed := rfl
@[simp] theorem Core.setQueue_h (c : Core) (k : Nat) (q : Queue) : (c.setQueue k q).h = c.h := rfl
@[simp] theorem Core.setQueue_freed7 (c : Core) (k : Nat) (q : Queue) : (c.setQueue k q).freed7 = c.freed7 := rfl
@[simp] theorem Core.setQueue_early (c : Core) (k : Nat) (q : Queue) : (c.setQueue k q).early = c.early := rfl
@[simp] theorem Core.setQueue_seen (c : Core) (k : Nat) (q : Queue) : (c.setQueue k q).seen = c.seen := rfl
@[simp] theorem Core.setQueue_tk (c : Core) (k : Nat) (q : Queue) : (c.setQueue k q).tk = c.tk := rfl
@[simp] theorem Core.setQueue_e (c : Core) (k : Nat) (q : Queue) : (c.setQueue k q).e = c.e := rfl
@[simp] theorem Core.setQueue_sys (c : Core) (k : Nat) (q : Queue) : (c.setQueue k q).sys = c.sys := rfl
@[simp] theorem Core.setQueue_sp (c : Core) (k : Nat) (q : Queue) : (c.setQueue k q).sp = c.sp := rfl
@[simp] theorem Core.setQueue_banks (c : Core) (k : Nat) (q : Queue) : (c.setQueue k q).banks = c.banks := rfl
@[simp] theorem Core.setQueue_lines (c : Core) (k : Nat) (q : Queue) : (c.setQueue k q).lines = c.lines := rfl
@[simp] theorem Core.setQueue_race (c : Core) (k : Nat) (q : Queue) : (c.setQueue k q).race = c.race := rfl
@[simp] theorem Core.setQueue_barA (c : Core) (k : Nat) (q : Queue) : (c.setQueue k q).barA = c.barA := rfl
@[simp] theorem Core.setQueue_barW (c : Core) (k : Nat) (q : Queue) : (c.setQueue k q).barW = c.barW := rfl
@[simp] theorem Core.setQueue_carried (c : Core) (k : Nat) (q : Queue) : (c.setQueue k q).carried = c.carried := rfl
@[simp] theorem Core.setQueue_ops (c : Core) (k : Nat) (q : Queue) : (c.setQueue k q).ops = c.ops := rfl
@[simp] theorem Core.setQueue_aops (c : Core) (k : Nat) (q : Queue) : (c.setQueue k q).aops = c.aops := rfl
@[simp] theorem Core.setQueue_heldA (c : Core) (k : Nat) (q : Queue) : (c.setQueue k q).heldA = c.heldA := rfl
@[simp] theorem Core.setQueue_cmds (c : Core) (k : Nat) (q : Queue) : (c.setQueue k q).cmds = c.cmds := rfl
@[simp] theorem Core.setQueue_heldC (c : Core) (k : Nat) (q : Queue) : (c.setQueue k q).heldC = c.heldC := rfl
@[simp] theorem Core.setQueue_inserted (c : Core) (k : Nat) (q : Queue) : (c.setQueue k q).inserted = c.inserted := rfl
@[simp] theorem Core.setQueue_cycle (c : Core) (k : Nat) (q : Queue) : (c.setQueue k q).cycle = c.cycle := rfl
@[simp] theorem Core.setQueue_covered (c : Core) (k : Nat) (q : Queue) : (c.setQueue k q).covered = c.covered := rfl
@[simp] theorem Core.setQueue_fences (c : Core) (k : Nat) (q : Queue) : (c.setQueue k q).fences = c.fences := rfl
@[simp] theorem Core.setQueue_heard (c : Core) (k : Nat) (q : Queue) : (c.setQueue k q).heard = c.heard := rfl
@[simp] theorem Core.setQueue_iseq (c : Core) (k : Nat) (q : Queue) : (c.setQueue k q).iseq = c.iseq := rfl
@[simp] theorem Core.setQueue_copySeq (c : Core) (k : Nat) (q : Queue) : (c.setQueue k q).copySeq = c.copySeq := rfl
@[simp] theorem Core.setQueue_tick (c : Core) (k : Nat) (q : Queue) : (c.setQueue k q).tick = c.tick := rfl
@[simp] theorem Core.setQueue_cache (c : Core) (k : Nat) (q : Queue) : (c.setQueue k q).cache = c.cache := rfl
@[simp] theorem Core.setQueue_cause (c : Core) (k : Nat) (q : Queue) : (c.setQueue k q).cause = c.cause := rfl
@[simp] theorem Core.setQueue_code (c : Core) (k : Nat) (q : Queue) : (c.setQueue k q).code = c.code := rfl
@[simp] theorem Core.setQueue_causeEngine (c : Core) (k : Nat) (q : Queue) : (c.setQueue k q).causeEngine = c.causeEngine := rfl
@[simp] theorem Core.setQueue_causeIseq (c : Core) (k : Nat) (q : Queue) : (c.setQueue k q).causeIseq = c.causeIseq := rfl
@[simp] theorem Core.setQueue_detailAddr (c : Core) (k : Nat) (q : Queue) : (c.setQueue k q).detailAddr = c.detailAddr := rfl
@[simp] theorem Core.setQueue_detail (c : Core) (k : Nat) (q : Queue) : (c.setQueue k q).detail = c.detail := rfl
@[simp] theorem Core.setQueue_detailLegend (c : Core) (k : Nat) (q : Queue) : (c.setQueue k q).detailLegend = c.detailLegend := rfl
@[simp] theorem Core.setQueue_ts (c : Core) (k : Nat) (q : Queue) : (c.setQueue k q).ts = c.ts := rfl
@[simp] theorem Core.setQueue_asWritten (c : Core) (k : Nat) (q : Queue) : (c.setQueue k q).asWritten = c.asWritten := rfl
@[simp] theorem Core.setQueue_edited (c : Core) (k : Nat) (q : Queue) : (c.setQueue k q).edited = c.edited := rfl
@[simp] theorem Core.setQueue_image (c : Core) (k : Nat) (q : Queue) : (c.setQueue k q).image = c.image := rfl
@[simp] theorem Core.setQueue_imageHas (c : Core) (k : Nat) (q : Queue) : (c.setQueue k q).imageHas = c.imageHas := rfl
@[simp] theorem Core.setQueue_frozen (c : Core) (k : Nat) (q : Queue) : (c.setQueue k q).frozen = c.frozen := rfl
@[simp] theorem Core.setQueue_finished (c : Core) (k : Nat) (q : Queue) : (c.setQueue k q).finished = c.finished := rfl
@[simp] theorem Core.setQueue_toSupv (c : Core) (k : Nat) (q : Queue) : (c.setQueue k q).toSupv = c.toSupv := rfl
@[simp] theorem Core.setQueue_spared (c : Core) (k : Nat) (q : Queue) : (c.setQueue k q).spared = c.spared := rfl
@[simp] theorem Core.setQueue_retiring (c : Core) (k : Nat) (q : Queue) : (c.setQueue k q).retiring = c.retiring := rfl

@[simp] theorem Core.setTokens_owner (c : Core) (k v : Nat) : (c.setTokens k v).owner = c.owner := rfl
@[simp] theorem Core.setTokens_part (c : Core) (k v : Nat) : (c.setTokens k v).part = c.part := rfl
@[simp] theorem Core.setTokens_failed (c : Core) (k v : Nat) : (c.setTokens k v).failed = c.failed := rfl
@[simp] theorem Core.setTokens_x (c : Core) (k v : Nat) : (c.setTokens k v).x = c.x := rfl
@[simp] theorem Core.setTokens_a (c : Core) (k v : Nat) : (c.setTokens k v).a = c.a := rfl
@[simp] theorem Core.setTokens_saved (c : Core) (k v : Nat) : (c.setTokens k v).saved = c.saved := rfl
@[simp] theorem Core.setTokens_resumed (c : Core) (k v : Nat) : (c.setTokens k v).resumed = c.resumed := rfl
@[simp] theorem Core.setTokens_h (c : Core) (k v : Nat) : (c.setTokens k v).h = c.h := rfl
@[simp] theorem Core.setTokens_q (c : Core) (k v : Nat) : (c.setTokens k v).q = c.q := rfl
@[simp] theorem Core.setTokens_freed7 (c : Core) (k v : Nat) : (c.setTokens k v).freed7 = c.freed7 := rfl
@[simp] theorem Core.setTokens_early (c : Core) (k v : Nat) : (c.setTokens k v).early = c.early := rfl
@[simp] theorem Core.setTokens_seen (c : Core) (k v : Nat) : (c.setTokens k v).seen = c.seen := rfl
@[simp] theorem Core.setTokens_e (c : Core) (k v : Nat) : (c.setTokens k v).e = c.e := rfl
@[simp] theorem Core.setTokens_sys (c : Core) (k v : Nat) : (c.setTokens k v).sys = c.sys := rfl
@[simp] theorem Core.setTokens_sp (c : Core) (k v : Nat) : (c.setTokens k v).sp = c.sp := rfl
@[simp] theorem Core.setTokens_banks (c : Core) (k v : Nat) : (c.setTokens k v).banks = c.banks := rfl
@[simp] theorem Core.setTokens_lines (c : Core) (k v : Nat) : (c.setTokens k v).lines = c.lines := rfl
@[simp] theorem Core.setTokens_race (c : Core) (k v : Nat) : (c.setTokens k v).race = c.race := rfl
@[simp] theorem Core.setTokens_barA (c : Core) (k v : Nat) : (c.setTokens k v).barA = c.barA := rfl
@[simp] theorem Core.setTokens_barW (c : Core) (k v : Nat) : (c.setTokens k v).barW = c.barW := rfl
@[simp] theorem Core.setTokens_carried (c : Core) (k v : Nat) : (c.setTokens k v).carried = c.carried := rfl
@[simp] theorem Core.setTokens_ops (c : Core) (k v : Nat) : (c.setTokens k v).ops = c.ops := rfl
@[simp] theorem Core.setTokens_aops (c : Core) (k v : Nat) : (c.setTokens k v).aops = c.aops := rfl
@[simp] theorem Core.setTokens_heldA (c : Core) (k v : Nat) : (c.setTokens k v).heldA = c.heldA := rfl
@[simp] theorem Core.setTokens_cmds (c : Core) (k v : Nat) : (c.setTokens k v).cmds = c.cmds := rfl
@[simp] theorem Core.setTokens_heldC (c : Core) (k v : Nat) : (c.setTokens k v).heldC = c.heldC := rfl
@[simp] theorem Core.setTokens_inserted (c : Core) (k v : Nat) : (c.setTokens k v).inserted = c.inserted := rfl
@[simp] theorem Core.setTokens_cycle (c : Core) (k v : Nat) : (c.setTokens k v).cycle = c.cycle := rfl
@[simp] theorem Core.setTokens_covered (c : Core) (k v : Nat) : (c.setTokens k v).covered = c.covered := rfl
@[simp] theorem Core.setTokens_fences (c : Core) (k v : Nat) : (c.setTokens k v).fences = c.fences := rfl
@[simp] theorem Core.setTokens_heard (c : Core) (k v : Nat) : (c.setTokens k v).heard = c.heard := rfl
@[simp] theorem Core.setTokens_iseq (c : Core) (k v : Nat) : (c.setTokens k v).iseq = c.iseq := rfl
@[simp] theorem Core.setTokens_copySeq (c : Core) (k v : Nat) : (c.setTokens k v).copySeq = c.copySeq := rfl
@[simp] theorem Core.setTokens_tick (c : Core) (k v : Nat) : (c.setTokens k v).tick = c.tick := rfl
@[simp] theorem Core.setTokens_cache (c : Core) (k v : Nat) : (c.setTokens k v).cache = c.cache := rfl
@[simp] theorem Core.setTokens_cause (c : Core) (k v : Nat) : (c.setTokens k v).cause = c.cause := rfl
@[simp] theorem Core.setTokens_code (c : Core) (k v : Nat) : (c.setTokens k v).code = c.code := rfl
@[simp] theorem Core.setTokens_causeEngine (c : Core) (k v : Nat) : (c.setTokens k v).causeEngine = c.causeEngine := rfl
@[simp] theorem Core.setTokens_causeIseq (c : Core) (k v : Nat) : (c.setTokens k v).causeIseq = c.causeIseq := rfl
@[simp] theorem Core.setTokens_detailAddr (c : Core) (k v : Nat) : (c.setTokens k v).detailAddr = c.detailAddr := rfl
@[simp] theorem Core.setTokens_detail (c : Core) (k v : Nat) : (c.setTokens k v).detail = c.detail := rfl
@[simp] theorem Core.setTokens_detailLegend (c : Core) (k v : Nat) : (c.setTokens k v).detailLegend = c.detailLegend := rfl
@[simp] theorem Core.setTokens_ts (c : Core) (k v : Nat) : (c.setTokens k v).ts = c.ts := rfl
@[simp] theorem Core.setTokens_asWritten (c : Core) (k v : Nat) : (c.setTokens k v).asWritten = c.asWritten := rfl
@[simp] theorem Core.setTokens_edited (c : Core) (k v : Nat) : (c.setTokens k v).edited = c.edited := rfl
@[simp] theorem Core.setTokens_image (c : Core) (k v : Nat) : (c.setTokens k v).image = c.image := rfl
@[simp] theorem Core.setTokens_imageHas (c : Core) (k v : Nat) : (c.setTokens k v).imageHas = c.imageHas := rfl
@[simp] theorem Core.setTokens_frozen (c : Core) (k v : Nat) : (c.setTokens k v).frozen = c.frozen := rfl
@[simp] theorem Core.setTokens_finished (c : Core) (k v : Nat) : (c.setTokens k v).finished = c.finished := rfl
@[simp] theorem Core.setTokens_toSupv (c : Core) (k v : Nat) : (c.setTokens k v).toSupv = c.toSupv := rfl
@[simp] theorem Core.setTokens_spared (c : Core) (k v : Nat) : (c.setTokens k v).spared = c.spared := rfl
@[simp] theorem Core.setTokens_retiring (c : Core) (k v : Nat) : (c.setTokens k v).retiring = c.retiring := rfl

@[simp] theorem Core.setBank_owner (c : Core) (a : Nat) (b : AccBank) : (c.setBank a b).owner = c.owner := rfl
@[simp] theorem Core.setBank_part (c : Core) (a : Nat) (b : AccBank) : (c.setBank a b).part = c.part := rfl
@[simp] theorem Core.setBank_failed (c : Core) (a : Nat) (b : AccBank) : (c.setBank a b).failed = c.failed := rfl
@[simp] theorem Core.setBank_x (c : Core) (a : Nat) (b : AccBank) : (c.setBank a b).x = c.x := rfl
@[simp] theorem Core.setBank_a (c : Core) (a : Nat) (b : AccBank) : (c.setBank a b).a = c.a := rfl
@[simp] theorem Core.setBank_saved (c : Core) (a : Nat) (b : AccBank) : (c.setBank a b).saved = c.saved := rfl
@[simp] theorem Core.setBank_resumed (c : Core) (a : Nat) (b : AccBank) : (c.setBank a b).resumed = c.resumed := rfl
@[simp] theorem Core.setBank_h (c : Core) (a : Nat) (b : AccBank) : (c.setBank a b).h = c.h := rfl
@[simp] theorem Core.setBank_q (c : Core) (a : Nat) (b : AccBank) : (c.setBank a b).q = c.q := rfl
@[simp] theorem Core.setBank_freed7 (c : Core) (a : Nat) (b : AccBank) : (c.setBank a b).freed7 = c.freed7 := rfl
@[simp] theorem Core.setBank_early (c : Core) (a : Nat) (b : AccBank) : (c.setBank a b).early = c.early := rfl
@[simp] theorem Core.setBank_seen (c : Core) (a : Nat) (b : AccBank) : (c.setBank a b).seen = c.seen := rfl
@[simp] theorem Core.setBank_tk (c : Core) (a : Nat) (b : AccBank) : (c.setBank a b).tk = c.tk := rfl
@[simp] theorem Core.setBank_sys (c : Core) (a : Nat) (b : AccBank) : (c.setBank a b).sys = c.sys := rfl
@[simp] theorem Core.setBank_sp (c : Core) (a : Nat) (b : AccBank) : (c.setBank a b).sp = c.sp := rfl
@[simp] theorem Core.setBank_banks (c : Core) (a : Nat) (b : AccBank) : (c.setBank a b).banks = c.banks := rfl
@[simp] theorem Core.setBank_lines (c : Core) (a : Nat) (b : AccBank) : (c.setBank a b).lines = c.lines := rfl
@[simp] theorem Core.setBank_race (c : Core) (a : Nat) (b : AccBank) : (c.setBank a b).race = c.race := rfl
@[simp] theorem Core.setBank_barA (c : Core) (a : Nat) (b : AccBank) : (c.setBank a b).barA = c.barA := rfl
@[simp] theorem Core.setBank_barW (c : Core) (a : Nat) (b : AccBank) : (c.setBank a b).barW = c.barW := rfl
@[simp] theorem Core.setBank_carried (c : Core) (a : Nat) (b : AccBank) : (c.setBank a b).carried = c.carried := rfl
@[simp] theorem Core.setBank_ops (c : Core) (a : Nat) (b : AccBank) : (c.setBank a b).ops = c.ops := rfl
@[simp] theorem Core.setBank_aops (c : Core) (a : Nat) (b : AccBank) : (c.setBank a b).aops = c.aops := rfl
@[simp] theorem Core.setBank_heldA (c : Core) (a : Nat) (b : AccBank) : (c.setBank a b).heldA = c.heldA := rfl
@[simp] theorem Core.setBank_cmds (c : Core) (a : Nat) (b : AccBank) : (c.setBank a b).cmds = c.cmds := rfl
@[simp] theorem Core.setBank_heldC (c : Core) (a : Nat) (b : AccBank) : (c.setBank a b).heldC = c.heldC := rfl
@[simp] theorem Core.setBank_inserted (c : Core) (a : Nat) (b : AccBank) : (c.setBank a b).inserted = c.inserted := rfl
@[simp] theorem Core.setBank_cycle (c : Core) (a : Nat) (b : AccBank) : (c.setBank a b).cycle = c.cycle := rfl
@[simp] theorem Core.setBank_covered (c : Core) (a : Nat) (b : AccBank) : (c.setBank a b).covered = c.covered := rfl
@[simp] theorem Core.setBank_fences (c : Core) (a : Nat) (b : AccBank) : (c.setBank a b).fences = c.fences := rfl
@[simp] theorem Core.setBank_heard (c : Core) (a : Nat) (b : AccBank) : (c.setBank a b).heard = c.heard := rfl
@[simp] theorem Core.setBank_iseq (c : Core) (a : Nat) (b : AccBank) : (c.setBank a b).iseq = c.iseq := rfl
@[simp] theorem Core.setBank_copySeq (c : Core) (a : Nat) (b : AccBank) : (c.setBank a b).copySeq = c.copySeq := rfl
@[simp] theorem Core.setBank_tick (c : Core) (a : Nat) (b : AccBank) : (c.setBank a b).tick = c.tick := rfl
@[simp] theorem Core.setBank_cache (c : Core) (a : Nat) (b : AccBank) : (c.setBank a b).cache = c.cache := rfl
@[simp] theorem Core.setBank_cause (c : Core) (a : Nat) (b : AccBank) : (c.setBank a b).cause = c.cause := rfl
@[simp] theorem Core.setBank_code (c : Core) (a : Nat) (b : AccBank) : (c.setBank a b).code = c.code := rfl
@[simp] theorem Core.setBank_causeEngine (c : Core) (a : Nat) (b : AccBank) : (c.setBank a b).causeEngine = c.causeEngine := rfl
@[simp] theorem Core.setBank_causeIseq (c : Core) (a : Nat) (b : AccBank) : (c.setBank a b).causeIseq = c.causeIseq := rfl
@[simp] theorem Core.setBank_detailAddr (c : Core) (a : Nat) (b : AccBank) : (c.setBank a b).detailAddr = c.detailAddr := rfl
@[simp] theorem Core.setBank_detail (c : Core) (a : Nat) (b : AccBank) : (c.setBank a b).detail = c.detail := rfl
@[simp] theorem Core.setBank_detailLegend (c : Core) (a : Nat) (b : AccBank) : (c.setBank a b).detailLegend = c.detailLegend := rfl
@[simp] theorem Core.setBank_ts (c : Core) (a : Nat) (b : AccBank) : (c.setBank a b).ts = c.ts := rfl
@[simp] theorem Core.setBank_asWritten (c : Core) (a : Nat) (b : AccBank) : (c.setBank a b).asWritten = c.asWritten := rfl
@[simp] theorem Core.setBank_edited (c : Core) (a : Nat) (b : AccBank) : (c.setBank a b).edited = c.edited := rfl
@[simp] theorem Core.setBank_image (c : Core) (a : Nat) (b : AccBank) : (c.setBank a b).image = c.image := rfl
@[simp] theorem Core.setBank_imageHas (c : Core) (a : Nat) (b : AccBank) : (c.setBank a b).imageHas = c.imageHas := rfl
@[simp] theorem Core.setBank_frozen (c : Core) (a : Nat) (b : AccBank) : (c.setBank a b).frozen = c.frozen := rfl
@[simp] theorem Core.setBank_finished (c : Core) (a : Nat) (b : AccBank) : (c.setBank a b).finished = c.finished := rfl
@[simp] theorem Core.setBank_toSupv (c : Core) (a : Nat) (b : AccBank) : (c.setBank a b).toSupv = c.toSupv := rfl
@[simp] theorem Core.setBank_spared (c : Core) (a : Nat) (b : AccBank) : (c.setBank a b).spared = c.spared := rfl
@[simp] theorem Core.setBank_retiring (c : Core) (a : Nat) (b : AccBank) : (c.setBank a b).retiring = c.retiring := rfl

@[simp] theorem Core.setSlot_owner (c : Core) (o : Nat) (v : Slot) : (c.setSlot o v).owner = c.owner := rfl
@[simp] theorem Core.setSlot_part (c : Core) (o : Nat) (v : Slot) : (c.setSlot o v).part = c.part := rfl
@[simp] theorem Core.setSlot_failed (c : Core) (o : Nat) (v : Slot) : (c.setSlot o v).failed = c.failed := rfl
@[simp] theorem Core.setSlot_x (c : Core) (o : Nat) (v : Slot) : (c.setSlot o v).x = c.x := rfl
@[simp] theorem Core.setSlot_a (c : Core) (o : Nat) (v : Slot) : (c.setSlot o v).a = c.a := rfl
@[simp] theorem Core.setSlot_saved (c : Core) (o : Nat) (v : Slot) : (c.setSlot o v).saved = c.saved := rfl
@[simp] theorem Core.setSlot_resumed (c : Core) (o : Nat) (v : Slot) : (c.setSlot o v).resumed = c.resumed := rfl
@[simp] theorem Core.setSlot_h (c : Core) (o : Nat) (v : Slot) : (c.setSlot o v).h = c.h := rfl
@[simp] theorem Core.setSlot_q (c : Core) (o : Nat) (v : Slot) : (c.setSlot o v).q = c.q := rfl
@[simp] theorem Core.setSlot_freed7 (c : Core) (o : Nat) (v : Slot) : (c.setSlot o v).freed7 = c.freed7 := rfl
@[simp] theorem Core.setSlot_early (c : Core) (o : Nat) (v : Slot) : (c.setSlot o v).early = c.early := rfl
@[simp] theorem Core.setSlot_seen (c : Core) (o : Nat) (v : Slot) : (c.setSlot o v).seen = c.seen := rfl
@[simp] theorem Core.setSlot_tk (c : Core) (o : Nat) (v : Slot) : (c.setSlot o v).tk = c.tk := rfl
@[simp] theorem Core.setSlot_sys (c : Core) (o : Nat) (v : Slot) : (c.setSlot o v).sys = c.sys := rfl
@[simp] theorem Core.setSlot_sp (c : Core) (o : Nat) (v : Slot) : (c.setSlot o v).sp = c.sp := rfl
@[simp] theorem Core.setSlot_banks (c : Core) (o : Nat) (v : Slot) : (c.setSlot o v).banks = c.banks := rfl
@[simp] theorem Core.setSlot_lines (c : Core) (o : Nat) (v : Slot) : (c.setSlot o v).lines = c.lines := rfl
@[simp] theorem Core.setSlot_race (c : Core) (o : Nat) (v : Slot) : (c.setSlot o v).race = c.race := rfl
@[simp] theorem Core.setSlot_barA (c : Core) (o : Nat) (v : Slot) : (c.setSlot o v).barA = c.barA := rfl
@[simp] theorem Core.setSlot_barW (c : Core) (o : Nat) (v : Slot) : (c.setSlot o v).barW = c.barW := rfl
@[simp] theorem Core.setSlot_carried (c : Core) (o : Nat) (v : Slot) : (c.setSlot o v).carried = c.carried := rfl
@[simp] theorem Core.setSlot_ops (c : Core) (o : Nat) (v : Slot) : (c.setSlot o v).ops = c.ops := rfl
@[simp] theorem Core.setSlot_aops (c : Core) (o : Nat) (v : Slot) : (c.setSlot o v).aops = c.aops := rfl
@[simp] theorem Core.setSlot_heldA (c : Core) (o : Nat) (v : Slot) : (c.setSlot o v).heldA = c.heldA := rfl
@[simp] theorem Core.setSlot_cmds (c : Core) (o : Nat) (v : Slot) : (c.setSlot o v).cmds = c.cmds := rfl
@[simp] theorem Core.setSlot_heldC (c : Core) (o : Nat) (v : Slot) : (c.setSlot o v).heldC = c.heldC := rfl
@[simp] theorem Core.setSlot_inserted (c : Core) (o : Nat) (v : Slot) : (c.setSlot o v).inserted = c.inserted := rfl
@[simp] theorem Core.setSlot_cycle (c : Core) (o : Nat) (v : Slot) : (c.setSlot o v).cycle = c.cycle := rfl
@[simp] theorem Core.setSlot_covered (c : Core) (o : Nat) (v : Slot) : (c.setSlot o v).covered = c.covered := rfl
@[simp] theorem Core.setSlot_fences (c : Core) (o : Nat) (v : Slot) : (c.setSlot o v).fences = c.fences := rfl
@[simp] theorem Core.setSlot_heard (c : Core) (o : Nat) (v : Slot) : (c.setSlot o v).heard = c.heard := rfl
@[simp] theorem Core.setSlot_iseq (c : Core) (o : Nat) (v : Slot) : (c.setSlot o v).iseq = c.iseq := rfl
@[simp] theorem Core.setSlot_copySeq (c : Core) (o : Nat) (v : Slot) : (c.setSlot o v).copySeq = c.copySeq := rfl
@[simp] theorem Core.setSlot_tick (c : Core) (o : Nat) (v : Slot) : (c.setSlot o v).tick = c.tick := rfl
@[simp] theorem Core.setSlot_cache (c : Core) (o : Nat) (v : Slot) : (c.setSlot o v).cache = c.cache := rfl
@[simp] theorem Core.setSlot_cause (c : Core) (o : Nat) (v : Slot) : (c.setSlot o v).cause = c.cause := rfl
@[simp] theorem Core.setSlot_code (c : Core) (o : Nat) (v : Slot) : (c.setSlot o v).code = c.code := rfl
@[simp] theorem Core.setSlot_causeEngine (c : Core) (o : Nat) (v : Slot) : (c.setSlot o v).causeEngine = c.causeEngine := rfl
@[simp] theorem Core.setSlot_causeIseq (c : Core) (o : Nat) (v : Slot) : (c.setSlot o v).causeIseq = c.causeIseq := rfl
@[simp] theorem Core.setSlot_detailAddr (c : Core) (o : Nat) (v : Slot) : (c.setSlot o v).detailAddr = c.detailAddr := rfl
@[simp] theorem Core.setSlot_detail (c : Core) (o : Nat) (v : Slot) : (c.setSlot o v).detail = c.detail := rfl
@[simp] theorem Core.setSlot_detailLegend (c : Core) (o : Nat) (v : Slot) : (c.setSlot o v).detailLegend = c.detailLegend := rfl
@[simp] theorem Core.setSlot_ts (c : Core) (o : Nat) (v : Slot) : (c.setSlot o v).ts = c.ts := rfl
@[simp] theorem Core.setSlot_asWritten (c : Core) (o : Nat) (v : Slot) : (c.setSlot o v).asWritten = c.asWritten := rfl
@[simp] theorem Core.setSlot_edited (c : Core) (o : Nat) (v : Slot) : (c.setSlot o v).edited = c.edited := rfl
@[simp] theorem Core.setSlot_image (c : Core) (o : Nat) (v : Slot) : (c.setSlot o v).image = c.image := rfl
@[simp] theorem Core.setSlot_imageHas (c : Core) (o : Nat) (v : Slot) : (c.setSlot o v).imageHas = c.imageHas := rfl
@[simp] theorem Core.setSlot_frozen (c : Core) (o : Nat) (v : Slot) : (c.setSlot o v).frozen = c.frozen := rfl
@[simp] theorem Core.setSlot_finished (c : Core) (o : Nat) (v : Slot) : (c.setSlot o v).finished = c.finished := rfl
@[simp] theorem Core.setSlot_toSupv (c : Core) (o : Nat) (v : Slot) : (c.setSlot o v).toSupv = c.toSupv := rfl
@[simp] theorem Core.setSlot_spared (c : Core) (o : Nat) (v : Slot) : (c.setSlot o v).spared = c.spared := rfl
@[simp] theorem Core.setSlot_retiring (c : Core) (o : Nat) (v : Slot) : (c.setSlot o v).retiring = c.retiring := rfl

@[simp] theorem Core.touch_owner (c : Core) (now b : Nat) (write : Bool) : (c.touch now b write).owner = c.owner := rfl
@[simp] theorem Core.touch_part (c : Core) (now b : Nat) (write : Bool) : (c.touch now b write).part = c.part := rfl
@[simp] theorem Core.touch_failed (c : Core) (now b : Nat) (write : Bool) : (c.touch now b write).failed = c.failed := rfl
@[simp] theorem Core.touch_x (c : Core) (now b : Nat) (write : Bool) : (c.touch now b write).x = c.x := rfl
@[simp] theorem Core.touch_a (c : Core) (now b : Nat) (write : Bool) : (c.touch now b write).a = c.a := rfl
@[simp] theorem Core.touch_saved (c : Core) (now b : Nat) (write : Bool) : (c.touch now b write).saved = c.saved := rfl
@[simp] theorem Core.touch_resumed (c : Core) (now b : Nat) (write : Bool) : (c.touch now b write).resumed = c.resumed := rfl
@[simp] theorem Core.touch_h (c : Core) (now b : Nat) (write : Bool) : (c.touch now b write).h = c.h := rfl
@[simp] theorem Core.touch_q (c : Core) (now b : Nat) (write : Bool) : (c.touch now b write).q = c.q := rfl
@[simp] theorem Core.touch_freed7 (c : Core) (now b : Nat) (write : Bool) : (c.touch now b write).freed7 = c.freed7 := rfl
@[simp] theorem Core.touch_early (c : Core) (now b : Nat) (write : Bool) : (c.touch now b write).early = c.early := rfl
@[simp] theorem Core.touch_seen (c : Core) (now b : Nat) (write : Bool) : (c.touch now b write).seen = c.seen := rfl
@[simp] theorem Core.touch_tk (c : Core) (now b : Nat) (write : Bool) : (c.touch now b write).tk = c.tk := rfl
@[simp] theorem Core.touch_e (c : Core) (now b : Nat) (write : Bool) : (c.touch now b write).e = c.e := rfl
@[simp] theorem Core.touch_sys (c : Core) (now b : Nat) (write : Bool) : (c.touch now b write).sys = c.sys := rfl
@[simp] theorem Core.touch_sp (c : Core) (now b : Nat) (write : Bool) : (c.touch now b write).sp = c.sp := rfl
@[simp] theorem Core.touch_lines (c : Core) (now b : Nat) (write : Bool) : (c.touch now b write).lines = c.lines := rfl
@[simp] theorem Core.touch_race (c : Core) (now b : Nat) (write : Bool) : (c.touch now b write).race = c.race := rfl
@[simp] theorem Core.touch_barA (c : Core) (now b : Nat) (write : Bool) : (c.touch now b write).barA = c.barA := rfl
@[simp] theorem Core.touch_barW (c : Core) (now b : Nat) (write : Bool) : (c.touch now b write).barW = c.barW := rfl
@[simp] theorem Core.touch_carried (c : Core) (now b : Nat) (write : Bool) : (c.touch now b write).carried = c.carried := rfl
@[simp] theorem Core.touch_ops (c : Core) (now b : Nat) (write : Bool) : (c.touch now b write).ops = c.ops := rfl
@[simp] theorem Core.touch_aops (c : Core) (now b : Nat) (write : Bool) : (c.touch now b write).aops = c.aops := rfl
@[simp] theorem Core.touch_heldA (c : Core) (now b : Nat) (write : Bool) : (c.touch now b write).heldA = c.heldA := rfl
@[simp] theorem Core.touch_cmds (c : Core) (now b : Nat) (write : Bool) : (c.touch now b write).cmds = c.cmds := rfl
@[simp] theorem Core.touch_heldC (c : Core) (now b : Nat) (write : Bool) : (c.touch now b write).heldC = c.heldC := rfl
@[simp] theorem Core.touch_inserted (c : Core) (now b : Nat) (write : Bool) : (c.touch now b write).inserted = c.inserted := rfl
@[simp] theorem Core.touch_cycle (c : Core) (now b : Nat) (write : Bool) : (c.touch now b write).cycle = c.cycle := rfl
@[simp] theorem Core.touch_covered (c : Core) (now b : Nat) (write : Bool) : (c.touch now b write).covered = c.covered := rfl
@[simp] theorem Core.touch_fences (c : Core) (now b : Nat) (write : Bool) : (c.touch now b write).fences = c.fences := rfl
@[simp] theorem Core.touch_heard (c : Core) (now b : Nat) (write : Bool) : (c.touch now b write).heard = c.heard := rfl
@[simp] theorem Core.touch_iseq (c : Core) (now b : Nat) (write : Bool) : (c.touch now b write).iseq = c.iseq := rfl
@[simp] theorem Core.touch_copySeq (c : Core) (now b : Nat) (write : Bool) : (c.touch now b write).copySeq = c.copySeq := rfl
@[simp] theorem Core.touch_tick (c : Core) (now b : Nat) (write : Bool) : (c.touch now b write).tick = c.tick := rfl
@[simp] theorem Core.touch_cache (c : Core) (now b : Nat) (write : Bool) : (c.touch now b write).cache = c.cache := rfl
@[simp] theorem Core.touch_cause (c : Core) (now b : Nat) (write : Bool) : (c.touch now b write).cause = c.cause := rfl
@[simp] theorem Core.touch_code (c : Core) (now b : Nat) (write : Bool) : (c.touch now b write).code = c.code := rfl
@[simp] theorem Core.touch_causeEngine (c : Core) (now b : Nat) (write : Bool) : (c.touch now b write).causeEngine = c.causeEngine := rfl
@[simp] theorem Core.touch_causeIseq (c : Core) (now b : Nat) (write : Bool) : (c.touch now b write).causeIseq = c.causeIseq := rfl
@[simp] theorem Core.touch_detailAddr (c : Core) (now b : Nat) (write : Bool) : (c.touch now b write).detailAddr = c.detailAddr := rfl
@[simp] theorem Core.touch_detail (c : Core) (now b : Nat) (write : Bool) : (c.touch now b write).detail = c.detail := rfl
@[simp] theorem Core.touch_detailLegend (c : Core) (now b : Nat) (write : Bool) : (c.touch now b write).detailLegend = c.detailLegend := rfl
@[simp] theorem Core.touch_ts (c : Core) (now b : Nat) (write : Bool) : (c.touch now b write).ts = c.ts := rfl
@[simp] theorem Core.touch_asWritten (c : Core) (now b : Nat) (write : Bool) : (c.touch now b write).asWritten = c.asWritten := rfl
@[simp] theorem Core.touch_edited (c : Core) (now b : Nat) (write : Bool) : (c.touch now b write).edited = c.edited := rfl
@[simp] theorem Core.touch_image (c : Core) (now b : Nat) (write : Bool) : (c.touch now b write).image = c.image := rfl
@[simp] theorem Core.touch_imageHas (c : Core) (now b : Nat) (write : Bool) : (c.touch now b write).imageHas = c.imageHas := rfl
@[simp] theorem Core.touch_frozen (c : Core) (now b : Nat) (write : Bool) : (c.touch now b write).frozen = c.frozen := rfl
@[simp] theorem Core.touch_finished (c : Core) (now b : Nat) (write : Bool) : (c.touch now b write).finished = c.finished := rfl
@[simp] theorem Core.touch_toSupv (c : Core) (now b : Nat) (write : Bool) : (c.touch now b write).toSupv = c.toSupv := rfl
@[simp] theorem Core.touch_spared (c : Core) (now b : Nat) (write : Bool) : (c.touch now b write).spared = c.spared := rfl
@[simp] theorem Core.touch_retiring (c : Core) (now b : Nat) (write : Bool) : (c.touch now b write).retiring = c.retiring := rfl

@[simp] theorem Core.putCause_owner (c : Core) (k : Cause) : (c.putCause k).owner = c.owner := rfl
@[simp] theorem Core.putCause_part (c : Core) (k : Cause) : (c.putCause k).part = c.part := rfl
@[simp] theorem Core.putCause_failed (c : Core) (k : Cause) : (c.putCause k).failed = c.failed := rfl
@[simp] theorem Core.putCause_x (c : Core) (k : Cause) : (c.putCause k).x = c.x := rfl
@[simp] theorem Core.putCause_a (c : Core) (k : Cause) : (c.putCause k).a = c.a := rfl
@[simp] theorem Core.putCause_saved (c : Core) (k : Cause) : (c.putCause k).saved = c.saved := rfl
@[simp] theorem Core.putCause_resumed (c : Core) (k : Cause) : (c.putCause k).resumed = c.resumed := rfl
@[simp] theorem Core.putCause_h (c : Core) (k : Cause) : (c.putCause k).h = c.h := rfl
@[simp] theorem Core.putCause_q (c : Core) (k : Cause) : (c.putCause k).q = c.q := rfl
@[simp] theorem Core.putCause_freed7 (c : Core) (k : Cause) : (c.putCause k).freed7 = c.freed7 := rfl
@[simp] theorem Core.putCause_early (c : Core) (k : Cause) : (c.putCause k).early = c.early := rfl
@[simp] theorem Core.putCause_seen (c : Core) (k : Cause) : (c.putCause k).seen = c.seen := rfl
@[simp] theorem Core.putCause_tk (c : Core) (k : Cause) : (c.putCause k).tk = c.tk := rfl
@[simp] theorem Core.putCause_e (c : Core) (k : Cause) : (c.putCause k).e = c.e := rfl
@[simp] theorem Core.putCause_sys (c : Core) (k : Cause) : (c.putCause k).sys = c.sys := rfl
@[simp] theorem Core.putCause_sp (c : Core) (k : Cause) : (c.putCause k).sp = c.sp := rfl
@[simp] theorem Core.putCause_banks (c : Core) (k : Cause) : (c.putCause k).banks = c.banks := rfl
@[simp] theorem Core.putCause_lines (c : Core) (k : Cause) : (c.putCause k).lines = c.lines := rfl
@[simp] theorem Core.putCause_race (c : Core) (k : Cause) : (c.putCause k).race = c.race := rfl
@[simp] theorem Core.putCause_barA (c : Core) (k : Cause) : (c.putCause k).barA = c.barA := rfl
@[simp] theorem Core.putCause_barW (c : Core) (k : Cause) : (c.putCause k).barW = c.barW := rfl
@[simp] theorem Core.putCause_carried (c : Core) (k : Cause) : (c.putCause k).carried = c.carried := rfl
@[simp] theorem Core.putCause_ops (c : Core) (k : Cause) : (c.putCause k).ops = c.ops := rfl
@[simp] theorem Core.putCause_aops (c : Core) (k : Cause) : (c.putCause k).aops = c.aops := rfl
@[simp] theorem Core.putCause_heldA (c : Core) (k : Cause) : (c.putCause k).heldA = c.heldA := rfl
@[simp] theorem Core.putCause_cmds (c : Core) (k : Cause) : (c.putCause k).cmds = c.cmds := rfl
@[simp] theorem Core.putCause_heldC (c : Core) (k : Cause) : (c.putCause k).heldC = c.heldC := rfl
@[simp] theorem Core.putCause_inserted (c : Core) (k : Cause) : (c.putCause k).inserted = c.inserted := rfl
@[simp] theorem Core.putCause_cycle (c : Core) (k : Cause) : (c.putCause k).cycle = c.cycle := rfl
@[simp] theorem Core.putCause_covered (c : Core) (k : Cause) : (c.putCause k).covered = c.covered := rfl
@[simp] theorem Core.putCause_fences (c : Core) (k : Cause) : (c.putCause k).fences = c.fences := rfl
@[simp] theorem Core.putCause_heard (c : Core) (k : Cause) : (c.putCause k).heard = c.heard := rfl
@[simp] theorem Core.putCause_iseq (c : Core) (k : Cause) : (c.putCause k).iseq = c.iseq := rfl
@[simp] theorem Core.putCause_copySeq (c : Core) (k : Cause) : (c.putCause k).copySeq = c.copySeq := rfl
@[simp] theorem Core.putCause_tick (c : Core) (k : Cause) : (c.putCause k).tick = c.tick := rfl
@[simp] theorem Core.putCause_cache (c : Core) (k : Cause) : (c.putCause k).cache = c.cache := rfl
@[simp] theorem Core.putCause_ts (c : Core) (k : Cause) : (c.putCause k).ts = c.ts := rfl
@[simp] theorem Core.putCause_asWritten (c : Core) (k : Cause) : (c.putCause k).asWritten = c.asWritten := rfl
@[simp] theorem Core.putCause_edited (c : Core) (k : Cause) : (c.putCause k).edited = c.edited := rfl
@[simp] theorem Core.putCause_image (c : Core) (k : Cause) : (c.putCause k).image = c.image := rfl
@[simp] theorem Core.putCause_imageHas (c : Core) (k : Cause) : (c.putCause k).imageHas = c.imageHas := rfl
@[simp] theorem Core.putCause_frozen (c : Core) (k : Cause) : (c.putCause k).frozen = c.frozen := rfl
@[simp] theorem Core.putCause_finished (c : Core) (k : Cause) : (c.putCause k).finished = c.finished := rfl
@[simp] theorem Core.putCause_toSupv (c : Core) (k : Cause) : (c.putCause k).toSupv = c.toSupv := rfl
@[simp] theorem Core.putCause_spared (c : Core) (k : Cause) : (c.putCause k).spared = c.spared := rfl
@[simp] theorem Core.putCause_retiring (c : Core) (k : Cause) : (c.putCause k).retiring = c.retiring := rfl

@[simp] theorem Core.putCause_sets (c : Core) (k : Cause) :
    ((c.putCause k).cause, (c.putCause k).code, (c.putCause k).causeEngine, (c.putCause k).causeIseq, (c.putCause k).detailAddr, (c.putCause k).detail,
      (c.putCause k).detailLegend) = (k.cause, k.code, k.engine, k.iseq, k.addr, k.detail, k.legend) := rfl

end Sys2Proof.Machine
end

