-- ==== Sys2Proof/Tests/Slice0.lean ====
section
/-! SUPPORT. Tests: an ill-formed term for each check of WellFormed, words written out bit by bit from the manual's encodings, small
results from the manual's examples, and for every statement with hypotheses a state and operands that meet them. -/

set_option Elab.async false

namespace Sys2Proof.Tests

open Sys2Proof Sys2Proof.Machine

/-! ### Ill-formed instructions -/


/-- R51: guard 9 of a scalar form, guard 12 of a vector form, guard 14 of a matrix form, rounding 5, condition 10, odd condition pair, odd predicate pair, predicate pair 12, predicate 12, field over 64 bits, call frame 0, call frame 7, loop level 6, empty loop body. -/
theorem test_wf_refuses_1 : ([.add 9#4 1#5 2#5 3#5, .vadd 12#4 1#10 2#10 3#10 0#4, .arel 14#4 3#6, .vadd 15#4 1#10 2#10 3#10 5#4, .cmp 15#4 2#3 1#5 2#5 10#4, .cmp 15#4 3#3 1#5 2#5 2#4, .vcmp 15#4 3#4 1#10 2#10 2#4, .vcmp 15#4 12#4 1#10 2#10 2#4, .vsel 15#4 1#10 2#10 3#10 12#4, .bfx 15#4 1#5 2#5 40#6 24#6, .call 15#4 1#3 0#3, .call 15#4 1#3 7#3, .loop 15#4 6#3 1#17 1#24, .loop 15#4 0#3 0#17 1#24] : List Instr).all (fun i => !i.wf) = true := by decide

/-- R51: no stages, seven stages, window over 1,024, guarded ALIGN, target code 5, part 2 with code 0, block format 6, reduction 3, odd flag pair, high half 2, direction 5, token operation 3, slot source 64, legends over 256. -/
theorem test_wf_refuses_2 : ([.loopR 15#4 0#3 1#12 0#3 0#10 0#6 1#10, .loopR 15#4 0#3 1#12 7#3 0#10 0#6 1#10, .loopxR 15#4 0#3 1#12 1#3 1000#10 24#6 1#5, .align 3#4, .vpack 15#4 1#10 2#10 3#10 5#4 0#4, .vunpk 15#4 1#10 2#10 2#2 0#4 0#4, .vqbx 15#4 1#10 2#10 6#4 0#4, .vred 15#4 1#10 2#10 3#2 0#4, .vflag 15#4 3#5 0#4 0#2, .vmulh 15#4 1#10 2#10 3#10 2#4, .vsend 15#4 1#10 5#3, .ipf 15#4 1#10 3#2 0#4, .lgb 15#4 0#1 0#12 0#8 1#1 64#10 0#2 0#4, .lginv 15#4 250#8 6#8] : List Instr).all (fun i => !i.wf) = true := by decide

/-- R51: positions over 8, 33 row sums, queue q8, queue mode 3, flag pair without flag mode, flag-mode push, queue aq2, function 12, built-in table, scope 5, release load, scope without order, acquire store, load into q7. -/
theorem test_wf_refuses_3 : ([.lgsave 15#4 0#8 4#8 0#6 4#3, .lgsum 15#4 0#8 32#8 0#10, .vpop 15#4 0#10 8#4 0#2 0#1 0#3 0#2 0#4, .ypop 15#4 0#10 3#2 0#1 0#3 0#2 0#4, .cpop 15#4 0#5 0#2 0#1 2#3 0#2 0#4, .vpush 15#4 0#10 0#4 2#2 0#2 0#4, .apush 15#4 0#5 2#4 0#2 0#2 0#4, .ipsel 15#4 12#4 0#2 0#4, .ipld 15#4 7#4 0#6 0#2 0#4, .ld 15#4 1#5 2#5 0#24 0#2 0#1 1#2 5#3, .ld 15#4 1#5 2#5 0#24 0#2 0#1 2#2 0#3, .st 15#4 1#5 2#5 0#24 0#2 0#2 1#3, .stx 15#4 1#5 2#5 3#5 0#2 0#2 1#2 0#3, .ldq 15#4 7#4 1#5 0#24 0#2] : List Instr).all (fun i => !i.wf) = true := by decide

/-- R51: store from k4, handle register 16, aux without handles, fence of no order, barrier 16, launch queue 16, one-byte atomic, release AWAIT, twin operation 17, used empty half, twin shift by 64, immediate MOV with a source, a machine event. -/
theorem test_wf_refuses_4 : ([.stq 15#4 4#4 1#5 0#24 0#2, .gather 15#4 16#5 1#5 2#5 3#5 1#1 0#1, .copy 15#4 1#5 2#5 3#5 4#5 0#1 0#1 0#2 0#4, .fence 15#4 0#2 0#3, .bara 15#4 16#5, .launchB 15#4 1#5 2#5 16#5, .aadd 15#4 1#5 2#5 3#5 0#2 0#2 0#3, .await 15#4 1#5 2#5 3#5 0#4 3#2 2#2 0#3, .twin ⟨17#5, 1#5, 2#5, 0#1, 0#12⟩ ⟨0#5, 0#5, 0#5, 0#1, 0#12⟩, .twin ⟨1#5, 1#5, 2#5, 0#1, 0#12⟩ ⟨0#5, 1#5, 0#5, 0#1, 0#12⟩, .twin ⟨8#5, 1#5, 2#5, 1#1, 64#12⟩ ⟨0#5, 0#5, 0#5, 0#1, 0#12⟩, .twin ⟨16#5, 1#5, 2#5, 1#1, 5#12⟩ ⟨0#5, 0#5, 0#5, 0#1, 0#12⟩, .mxStart 0] : List Instr).all (fun i => !i.wf) = true := by decide

/-! ### Words written out from R33 and R41 to R44 -/

/-- The decoder reads a word as an instruction. -/
def reads (w : Word) (i : Instr) : Bool := match decode w with | .ok j => decide (j = i) | .error _ => false

theorem test_words_S1 :
    (reads 0x8000F4AB60000000#64 (.add 15#4 9#5 10#5 27#5) &&
     reads 0x8001352B60000000#64 (.sub 3#4 10#5 10#5 27#5) &&
     reads 0x800275AB60000000#64 (.mul 7#4 11#5 10#5 27#5) &&
     reads 0x8003F4AB60000000#64 (.mulh 15#4 9#5 10#5 27#5) &&
     reads 0x8004352B60000000#64 (.mulhn 3#4 10#5 10#5 27#5) &&
     reads 0x800575AB60000000#64 (.div 7#4 11#5 10#5 27#5) &&
     reads 0x8006F4AB60000000#64 (.divn 15#4 9#5 10#5 27#5) &&
     reads 0x8007352B60000000#64 (.rem 3#4 10#5 10#5 27#5) &&
     reads 0x800875AB60000000#64 (.remn 7#4 11#5 10#5 27#5) &&
     reads 0x8009F4AB60000000#64 (.and 15#4 9#5 10#5 27#5) &&
     reads 0x800A352B60000000#64 (.or 3#4 10#5 10#5 27#5) &&
     reads 0x800B75AB60000000#64 (.xor 7#4 11#5 10#5 27#5) &&
     reads 0x800CF4AB60000000#64 (.andn 15#4 9#5 10#5 27#5) &&
     reads 0x800D352B60000000#64 (.shl 3#4 10#5 10#5 27#5) &&
     reads 0x800E75AB60000000#64 (.shr 7#4 11#5 10#5 27#5)) = true := by decide

theorem test_words_S2 :
    (reads 0x800FF4AB60000000#64 (.sar 15#4 9#5 10#5 27#5) &&
     reads 0x8010352B60000000#64 (.rotr 3#4 10#5 10#5 27#5) &&
     reads 0x801175AB60000000#64 (.min 7#4 11#5 10#5 27#5) &&
     reads 0x8012F4AB60000000#64 (.max 15#4 9#5 10#5 27#5) &&
     reads 0x8013352B60000000#64 (.minn 3#4 10#5 10#5 27#5) &&
     reads 0x801475AB60000000#64 (.maxn 7#4 11#5 10#5 27#5) &&
     reads 0x8015F47C00000000#64 (.clz 15#4 8#5 31#5) &&
     reads 0x8016F47C00000000#64 (.ctz 15#4 8#5 31#5) &&
     reads 0x8017F47C00000000#64 (.popc 15#4 8#5 31#5) &&
     reads 0x8018F47C003E0000#64 (.sext 15#4 8#5 31#5 31#6) &&
     reads 0x8019F47C000E0000#64 (.zext 15#4 8#5 31#5 7#6) &&
     reads 0x801AF47C142E0000#64 (.bfx 15#4 8#5 31#5 40#6 23#6) &&
     reads 0x801BF47C207E0000#64 (.bfi 15#4 8#5 31#5 1#5 0#6 63#6) &&
     reads 0x801CF6254000C000#64 (.sel 15#4 12#5 9#5 10#5 3#3) &&
     reads 0x801DF48000000000#64 (.mov 15#4 9#5 0#5)) = true := by decide

theorem test_words_S3 :
    (reads 0x801EF31800000080#64 (.addi 15#4 6#5 6#5 128#34) &&
     reads 0x801FF31BFFFFFFFF#64 (.andi 15#4 6#5 6#5 17179869183#34) &&
     reads 0x8020F319FFFFFFFF#64 (.ori 15#4 6#5 6#5 8589934591#34) &&
     reads 0x8021F31A00000000#64 (.xori 15#4 6#5 6#5 8589934592#34) &&
     reads 0x8022F31C0000003F#64 (.shli 15#4 6#5 7#5 63#6) &&
     reads 0x8023F31C00000001#64 (.shri 15#4 6#5 7#5 1#6) &&
     reads 0x8024F31C00000020#64 (.sari 15#4 6#5 7#5 32#6) &&
     reads 0x8025FA0002020000#64 (.li 15#4 20#5 33685504#32) &&
     reads 0x8026FA0080000000#64 (.lih 15#4 20#5 2147483648#32) &&
     reads 0x8027FA00FFFFFFF8#64 (.addpc 15#4 20#5 4294967288#32) &&
     reads 0x8028F42544000000#64 (.cmp 15#4 2#3 9#5 10#5 2#4) &&
     reads 0x8029F8227FFFFFFB#64 (.cmpi 15#4 4#3 8#5 9#4 1073741819#30)) = true := by decide

theorem test_words_B1 :
    (reads 0xA000F00000000000#64 (.nop 15#4) &&
     reads 0xA001F4000000000C#64 (.pbr 15#4 2#3 12#32) &&
     reads 0xA002FE2400000000#64 (.pbrx 15#4 7#3 9#5) &&
     reads 0xA003340000000000#64 (.br 3#4 2#3) &&
     reads 0xA004F30000000000#64 (.call 15#4 1#3 4#3) &&
     reads 0xA005F00000000000#64 (.ret 15#4) &&
     reads 0xA006FA00030003E8#64 (.loop 15#4 5#3 3#17 1000#24) &&
     reads 0xA007F1FFFF480000#64 (.loopx 15#4 0#3 131071#17 9#5) &&
     reads 0xA008FA00CC401C02#64 (.loopR 15#4 5#3 6#12 3#3 64#10 7#6 2#10) &&
     reads 0xA009F200DBE85FC0#64 (.loopxR 15#4 1#3 6#12 6#3 1000#10 23#6 30#5) &&
     reads 0xA00AF60000000000#64 (.lexit 15#4 3#3) &&
     reads 0xA00BF00000000000#64 (.align 15#4) &&
     reads 0xA00CF00000001234#64 (.contour 15#4 4660#16) &&
     reads 0xA00DF00000FFFFFF#64 (.wait 15#4 16777215#24) &&
     reads 0xA00EF48000000000#64 (.clkdiv 15#4 9#5)) = true := by decide

theorem test_words_B2 :
    (reads 0xA00FFF0000000011#64 (.mfs 15#4 30#5 17#12) &&
     reads 0xA010F48000000020#64 (.mts 15#4 9#5 32#12) &&
     reads 0xA011F00000000000#64 (.exit 15#4) &&
     reads 0xA012F00000000007#64 (.trap 15#4 7#16) &&
     reads 0xA013F0000000FFFF#64 (.bkpt 15#4 65535#16) &&
     reads 0xA015F000DEADBEEF#64 (.trmark 15#4 3735928559#32) &&
     reads 0xA014F00000000000#64 (.fix 15#4) &&
     reads 0xA016F01800000000#64 (.resume 15#4 6#5) &&
     reads 0xA017F29800000000#64 (.svchk 15#4 5#5 6#5)) = true := by decide

theorem test_words_V1 :
    (reads 0xB000B0A0290A8001#64 (.vadd 11#4 40#10 41#10 42#10 1#4) &&
     reads 0xB001FFFC00800004#64 (.vsub 15#4 1023#10 0#10 512#10 4#4) &&
     reads 0xB00200A0290A8000#64 (.vmul 0#4 40#10 41#10 42#10 0#4) &&
     reads 0xB30320A0290A82B0#64 (.vfma 2#4 40#10 41#10 42#10 43#10 0#4) &&
     reads 0xB004F0A0290ABFF2#64 (.vfms 15#4 40#10 41#10 42#10 1023#10 2#4) &&
     reads 0xB005F0A0290A8000#64 (.vmin 15#4 40#10 41#10 42#10) &&
     reads 0xB006F0A0290A8000#64 (.vmax 15#4 40#10 41#10 42#10) &&
     reads 0xB007F0A029000000#64 (.vabs 15#4 40#10 41#10) &&
     reads 0xB008F0A029000000#64 (.vneg 15#4 40#10 41#10) &&
     reads 0xB014F0A029000000#64 (.vnot 15#4 40#10 41#10) &&
     reads 0xB017F0A029000000#64 (.vmov 15#4 40#10 41#10) &&
     reads 0xB009F0A0290A8003#64 (.vadds 15#4 40#10 41#10 42#10 3#4) &&
     reads 0xB00AF0A0290A8003#64 (.vsubs 15#4 40#10 41#10 42#10 3#4) &&
     reads 0xB00BF0A0290A8000#64 (.vmullo 15#4 40#10 41#10 42#10) &&
     reads 0xB00CF0A0290A8001#64 (.vmulh 15#4 40#10 41#10 42#10 1#4)) = true := by decide

theorem test_words_V2 :
    (reads 0xB00DF0A02900000D#64 (.vrshr 15#4 40#10 41#10 13#6) &&
     reads 0xB00EF0A02900000E#64 (.vshl 15#4 40#10 41#10 14#6) &&
     reads 0xB00FF0A02900000F#64 (.vshr 15#4 40#10 41#10 15#6) &&
     reads 0xB010F0A029000010#64 (.vsar 15#4 40#10 41#10 16#6) &&
     reads 0xB01CF0A02900001C#64 (.vrotl 15#4 40#10 41#10 28#6) &&
     reads 0xB011F0A0290A8000#64 (.vand 15#4 40#10 41#10 42#10) &&
     reads 0xB012F0A0290A8000#64 (.vor 15#4 40#10 41#10 42#10) &&
     reads 0xB013F0A0290A8000#64 (.vxor 15#4 40#10 41#10 42#10) &&
     reads 0xB015F40020084002#64 (.vcmp 15#4 4#4 32#10 33#10 2#4) &&
     reads 0xB016F0A0290A800B#64 (.vsel 15#4 40#10 41#10 42#10 11#4) &&
     reads 0xB018F0A000FFFFFF#64 (.vmovi 15#4 40#10 16777215#24) &&
     reads 0xB319F08400600000#64 (.vbc 15#4 33#10 12#5) &&
     reads 0xB01AF08000000000#64 (.viota 15#4 32#10 0#24) &&
     reads 0xB01BF0A0290A82B0#64 (.vperm 15#4 40#10 41#10 42#10 43#10) &&
     reads 0xB01DF0A029000004#64 (.vcvt 15#4 40#10 41#10 4#4)) = true := by decide

theorem test_words_V3 :
    (reads 0xB023772600000000#64 (.vflag 7#4 14#5 4#4 3#2) &&
     reads 0xB024F0A0290A82B0#64 (.vclamp 15#4 40#10 41#10 42#10 43#10) &&
     reads 0xB025F00028200000#64 (.vsend 15#4 40#10 1#3) &&
     reads 0xB01EF0A0290A8041#64 (.vpack 15#4 40#10 41#10 42#10 4#4 1#4) &&
     reads 0xB01FF0A029000310#64 (.vunpk 15#4 40#10 41#10 3#2 1#4 0#4) &&
     reads 0xB020F0A029000084#64 (.vqbx 15#4 40#10 41#10 8#4 4#4) &&
     reads 0xB021F0A029000090#64 (.vdqbx 15#4 40#10 41#10 9#4) &&
     reads 0xB022F0A029000021#64 (.vred 15#4 40#10 41#10 2#2 1#4)) = true := by decide

theorem test_words_M1 :
    (reads 0xC000668000000000#64 (.fmt 6#4 13#5) &&
     reads 0xC001F30000000000#64 (.fmti 15#4 3#4) &&
     reads 0xC002F0E800000000#64 (.acq 15#4 3#6 2#2 1#1) &&
     reads 0xC003FF0000000000#64 (.arel 15#4 60#6) &&
     reads 0xC004FF4000000000#64 (.oclaim 15#4 61#6) &&
     reads 0xC005FF8000000000#64 (.orel 15#4 62#6) &&
     reads 0xC006F1C30A000000#64 (.owr 15#4 7#6 3#6 40#10) &&
     reads 0xC007F00000080000#64 (.lgb 15#4 0#1 0#12 0#8 0#1 128#10 0#2 0#4) &&
     reads 0xC008F80820403022#64 (.lgbc 15#4 1#1 16#12 64#8 1#1 3#10 2#2 2#4) &&
     reads 0xC009F101F0000000#64 (.lginv 15#4 16#8 31#8) &&
     reads 0xC00AF20072400000#64 (.lgsave 15#4 32#8 7#8 9#6 0#3) &&
     reads 0xC00BFF906FC80000#64 (.lgload 15#4 249#8 6#8 63#6 1#3) &&
     reads 0xC00CF000F0008000#64 (.lgsum 15#4 0#8 15#8 64#10) &&
     reads 0xC00D680C06403893#64 (.mlu 6#4 1#1 24#12 3#6 32#8 7#6 2#5 1#2 3#4) &&
     reads 0xC00EF00008002840#64 (.mluc 15#4 0#1 0#12 4#6 0#8 5#6 1#5 0#2 0#4)) = true := by decide

theorem test_words_M2 :
    (reads 0xC00FF7FF8600001F#64 (.mzero 15#4 0#1 4095#12 3#6 1#2 15#4) &&
     reads 0xC010F00006100000#64 (.mdrain 15#4 0#1 0#12 3#6 64#10 0#2 0#4) &&
     reads 0xC010F00007004000#64 (.mdrainSt 15#4 0#1 0#12 3#6 1#2 0#2 0#4)) = true := by decide

theorem test_words_I1 :
    (reads 0xD000F0C004800000#64 (.vpop 15#4 48#10 2#4 1#2 0#1 0#3 0#2 0#4) &&
     reads 0xD001F10006800012#64 (.vpush 15#4 64#10 3#4 1#2 1#2 2#4) &&
     reads 0xD002F001A3100000#64 (.spop 15#4 13#5 1#4 2#2 0#1 2#3 0#2 0#4) &&
     reads 0xD003F0D000400027#64 (.ypop 15#4 52#10 0#2 1#1 0#3 2#2 7#4) &&
     reads 0xD004F00121700000#64 (.cpop 15#4 9#5 2#2 1#1 6#3 0#2 0#4) &&
     reads 0xD005F003E2000000#64 (.apush 15#4 31#5 1#4 0#2 0#2 0#4) &&
     reads 0xD006F50000000000#64 (.ipsel 15#4 5#4 0#2 0#4) &&
     reads 0xD007FB8400000011#64 (.ipld 15#4 11#4 33#6 1#2 1#4) &&
     reads 0xD008F00030000000#64 (.ipf 15#4 48#10 0#2 0#4)) = true := by decide

theorem test_words_A1 :
    (reads 0xE000128C00010300#64 (.ld 1#4 5#5 3#5 64#24 3#2 0#1 0#2 0#3) &&
     reads 0xE001F28FF80001B0#64 (.ldx 15#4 5#5 3#5 31#5 3#2 1#2 1#1 1#2 4#3) &&
     reads 0xE002F3ABFFFFE34C#64 (.st 15#4 7#5 10#5 16777208#24 3#2 2#2 3#3) &&
     reads 0xE003F490D0000000#64 (.stx 15#4 9#5 4#5 6#5 2#2 0#2 0#2 0#3) &&
     reads 0xE004F22000040100#64 (.ldq 15#4 2#4 8#5 256#24 1#2) &&
     reads 0xE006F323FFFE0000#64 (.stq 15#4 3#4 8#5 16777088#24 0#2) &&
     reads 0xE009F13000000000#64 (.sqpush 15#4 1#4 12#5 0#2) &&
     reads 0xE00AF00C00400000#64 (.pref 15#4 3#5 4096#24) &&
     reads 0xE005F32D8D000000#64 (.ldq2 15#4 6#5 11#5 12#5 13#5) &&
     reads 0xE00BF52D80000013#64 (.copy 15#4 10#5 11#5 12#5 0#5 0#1 0#1 1#2 3#4) &&
     reads 0xE007F7AD8D800000#64 (.gather 15#4 15#5 11#5 12#5 13#5 1#1 0#1) &&
     reads 0xE008F53FED400000#64 (.scatter 15#4 10#5 15#5 31#5 13#5 0#1 1#1) &&
     reads 0xE00CF29800000000#64 (.cwait 15#4 5#5 6#5) &&
     reads 0xE01AF0000000006C#64 (.fence 15#4 3#2 3#3) &&
     reads 0xE01BF0000000000C#64 (.tfence 15#4 3#3)) = true := by decide

theorem test_words_A2 :
    (reads 0xE01CF00060000000#64 (.bara 15#4 3#5) &&
     reads 0xE01DF001E0000000#64 (.barw 15#4 15#5) &&
     reads 0xE01EF00080000000#64 (.tkpush 15#4 4#5) &&
     reads 0xE01FF00000000000#64 (.tkwait 15#4 0#5) &&
     reads 0xE020F29800000000#64 (.spalloc 15#4 5#5 6#5) &&
     reads 0xE021F01800000000#64 (.spfree 15#4 6#5) &&
     reads 0xE022F299F0000000#64 (.launchB 15#4 5#5 6#5 15#5) &&
     reads 0xE022F29840000000#64 (.launchN 15#4 5#5 6#5 2#5) &&
     reads 0xE00DF31000000000#64 (.hld 15#4 3#4 4#5) &&
     reads 0xE00EF31000000000#64 (.hnew 15#4 3#4 4#5) &&
     reads 0xE00FF3000000000C#64 (.publish 15#4 3#4 3#3) &&
     reads 0xE010F30000000000#64 (.hfree 15#4 3#4) &&
     reads 0xE011F2A8C000026C#64 (.aadd 15#4 5#5 10#5 6#5 2#2 3#2 3#3) &&
     reads 0xE012F2A8C000036C#64 (.amin 15#4 5#5 10#5 6#5 3#2 3#2 3#3) &&
     reads 0xE013F2A8C000026C#64 (.amax 15#4 5#5 10#5 6#5 2#2 3#2 3#3)) = true := by decide

theorem test_words_A3 :
    (reads 0xE014F2A8C000036C#64 (.aand 15#4 5#5 10#5 6#5 3#2 3#2 3#3) &&
     reads 0xE015F2A8C000026C#64 (.aor 15#4 5#5 10#5 6#5 2#2 3#2 3#3) &&
     reads 0xE016F2A8C000036C#64 (.axor 15#4 5#5 10#5 6#5 3#2 3#2 3#3) &&
     reads 0xE017F2A8C000026C#64 (.axchg 15#4 5#5 10#5 6#5 2#2 3#2 3#3) &&
     reads 0xE018F2A8C700036C#64 (.acas 15#4 5#5 10#5 6#5 7#5 3#2 3#2 3#3) &&
     reads 0xE019F2A8D200032C#64 (.await 15#4 5#5 10#5 6#5 9#4 3#2 1#2 3#3)) = true := by decide

/-- The twin of the manual's example, and one with an empty half. -/
theorem test_words_T :
    (reads 0x900B19001435D002#64 (.twin ⟨1#5, 12#5, 12#5, 1#1, 1#12⟩ ⟨8#5, 13#5, 14#5, 1#1, 2#12⟩) &&
     reads 0x908241FFF0000000#64 (.twin ⟨16#5, 9#5, 0#5, 1#1, 0xFFF#12⟩ ⟨0#5, 0#5, 0#5, 0#1, 0#12⟩)) = true := by decide

/-- Words that the manual itself gives, with the syllables it gives for them (R53, R199, R206, R208, R260, R273, R274, R328). -/
theorem test_words_manual :
    (reads 0x0000F4A960000000#64 (.add 15#4 9#5 10#5 11#5) &&
     reads 0xB30320A0290A82B0#64 (.vfma 2#4 40#10 41#10 42#10 43#10 0#4) &&
     reads 0x6000128C00010300#64 (.ld 1#4 5#5 3#5 64#24 3#2 0#1 0#2 0#3) &&
     reads 0x801EF31800000080#64 (.addi 15#4 6#5 6#5 128#34) &&
     reads 0xC00D680C06403893#64 (.mlu 6#4 1#1 24#12 3#6 32#8 7#6 2#5 1#2 3#4) &&
     reads 0xD006F50000000000#64 (.ipsel 15#4 5#4 0#2 0#4) &&
     reads 0xD008F00030000000#64 (.ipf 15#4 48#10 0#2 0#4) &&
     reads 0xA017F29800000000#64 (.svchk 15#4 5#5 6#5) &&
     reads 0xB025F00028200000#64 (.vsend 15#4 40#10 1#3) &&
     reads 0xE00DF31000000000#64 (.hld 15#4 3#4 4#5) &&
     reads 0xE00FF3000000000C#64 (.publish 15#4 3#4 3#3) &&
     reads 0xE01BF0000000000C#64 (.tfence 15#4 3#3)) = true := by decide

/-- Words that R51 refuses: class 7, an unassigned opcode, Idle without S, a non-zero bit where SR has none, guard 9, a reserved rnd. -/
theorem test_words_refused :
    ([0xF000000000000000#64, 0x802AF00000000000#64, 0x0100F4A960000000#64, 0x8000F4A960000001#64, 0x800094A960000000#64, 0xB000F0A0290A8005#64].all
      fun w => match decode w with | .ok _ => false | .error _ => true) = true := by decide


/-! ### Small states -/

/-- Core 0 of a running group, nothing in flight. -/
def core0 : Core := { owner := 1, part := some 0 }
/-- A running group on core 0 of partition 0. -/
def one (c : Core := core0) (g : Grp := placedGrp 1 .running) (p : Part := { cores := [0], objs := [placedObj] }) : State :=
  { cores := [(0, c)], groups := [g], parts := [(0, p)] }
/-- The X-stream of core 0 issues. -/
def xs (c : Core := core0) : State := { one c with ctx := { who := .x, core := 0, pc := 0x10000#64 } }
/-- The A-stream of core 0 issues. -/
def as (c : Core := core0) : State := { one c with ctx := { who := .a, core := 0, pc := 0x20000#64 } }
/-- The A-stream of core 0 issues for a handler. -/
def hs : State :=
  { one { core0 with saved := some {} } (placedGrp 1 .handling) with ctx := { who := .a, core := 0, pc := 0x20000#64 } }
/-- A stage-1 image of one syllable, ADD under a false guard with S = 1. -/
def stage : StageImage :=
  { stage := 1, updates := 0, image := wordBytes filler, key := [], sig := [], version := 0, base := 0, entry := 0 }
/-- Management core 0 issues. -/
def ms : State :=
  { hbm := Memory.store [] 0 stage.image, balore := { stage1 := some stage }, mgmt := [(0, { a := { k := { pc := 0x3000000000000000#64 } }, halted := false })]
    ctx := { who := .mgmt, core := 0 } }
/-- Core 0 with accumulator bank 0 held with a type. -/
def held (ty : Nat) : Core := { core0 with e := { acc := [(0, { held := true, ty := ty })] } }
/-- Core 0 with one filled entry in a queue. -/
def filled (q : Nat) : Core := { held 0 with q := [(q, { es := [{ filled := true, present := 0, val := 5#1024 }] })] }
/-- Core 0 with a full queue. -/
def fullQ (q : Nat) : Core := { held 0 with q := [(q, { es := List.replicate (qCap q) emptyEntry })] }
/-- A state with a word where the next step fetches, before the turn that fetches it. -/
def placed (w : Nat) : State := { State.reset.withFetchWord 64 w with turns := [] }

/-! ### A state and operands for the hypotheses of every statement: encoding and the step -/

theorem test_hyps_EncodeThenDecode :
    (Instr.add 15#4 1#5 2#5 3#5).wf = true ∧ encodeWith true 3#4 (.add 15#4 1#5 2#5 3#5) = some 0x8300F08860000000#64 ∧
    encodeWith false 0#4 (.add 15#4 1#5 2#5 3#5) = some 0x0000F08860000000#64 := by decide

theorem test_hyps_DecodedWordsAreExact :
    decode 0x8300F08860000000#64 = .ok (.add 15#4 1#5 2#5 3#5) ∧ sBit 0x8300F08860000000#64 = true ∧ idleOf 0x0000F08860000000#64 = 0 := ⟨rfl, rfl, rfl⟩

theorem test_hyps_StepRunsEvent :
    encode (.dispatchPassTimer 0) = none ∧ inTick (.dispatchPassTimer 0) = false ∧ onReference (.dispatchPassTimer 0) = false ∧
    encode (.resultLanding 0) = none ∧ inTick (.resultLanding 0) = true ∧ encode (.slipEnd 1) = none ∧ inTick (.slipEnd 1) = false ∧ onReference (.slipEnd 1) = true ∧
    (({ State.reset with power := { therm := true } } : State).turned 5 []).power.therm = true ∧ State.reset.power.therm = false ∧
    State.reset.power.stretch = false ∧ State.reset.turns = [] := by decide

/-- The bundle of a placed word as `BundleRunsTheDecodedSyllable` has it. -/
def bundleReady (s : State) (w : Who) (i : Instr) : Prop :=
  let s0 : State := { s with ctx := { who := w, core := 0, tick := 0, room := false } }
  let pc := s0.ctrl.pc
  let first := match w, s0.me.x.align with | .x, some (f, _) => f | _, _ => nextIseq s0.me.iseq
  let s1 : State := { s0 with ctx := { s0.ctx with pc := pc, first := first } }
  ∃ v past s2 t, s1.fetch w 0 pc (if w = .x then 4 else 2) = ([(pc, v)], .whole past) ∧ decode v = .ok i ∧ s1.legalOn i v = true ∧
    s1.breaks [{ addr := pc, word := v, instr := i }] = (s2, none) ∧
    (let base : Ctx := { s1.ctx with past := past }
     let ready : State := s2.modCtrl fun k => { (if w = .mgmt then k else k.hold [(pc, v)]) with exempt := true }
     ({ ready with ctx := base } : State).bundleFault [{ addr := pc, word := v, instr := i }] past = .go ∧
     exec i { ready with ctx := { base with pc := pc, word := v, iseq := first } } = .next t ∧ t.ctx.out = .running ∧
     (w = .mgmt ∨ t.me.held - (if t.me.x.aligned && t.me.x.align.isSome then 1 else 0) ≤ 96))

theorem test_hyps_BundleRunsTheDecodedSyllable_x : bundleReady (placed 0x8028F42544000000) .x (.cmp 15#4 2#3 9#5 10#5 2#4) :=
  ⟨_, _, _, _, rfl, rfl, rfl, rfl, rfl, rfl, rfl, by decide⟩

theorem test_hyps_BundleRunsTheDecodedSyllable_a : bundleReady (placed 0xE00DF31000000000) .a (.hld 15#4 3#4 4#5) :=
  ⟨_, _, _, _, rfl, rfl, rfl, rfl, rfl, rfl, rfl, by decide⟩

theorem test_hyps_BundleRunsTheDecodedSyllable_mgmt : bundleReady ms .mgmt (.add 0#4 0#5 0#5 0#5) :=
  ⟨filler, 0x3000000000000008#64, _, _, by decide, rfl, rfl, rfl, rfl, rfl, rfl, by decide⟩

theorem test_hyps_StepIssuesOnStreams :
    (let u := placed 0xE00DF31000000000
     let v := (u.ownTick 0 (placedGrp 1 .running)).syncAll 0
     ∃ t, u.grpAt 0 = some (placedGrp 1 .running) ∧ u.power.therm = false ∧ (placedGrp 1 .running).status ≠ .resuming ∧ u.accessRuns 0 = true ∧ v.accessRuns 0 = true ∧ v.rested 0 = true ∧
       (v.core 0).blocked = false ∧ (v.core 0).a.resuming = none ∧ (v.core 0).a.k.exiting = false ∧ (v.core 0).a.k.exited = false ∧ v.issueBundle exec .a 0 0 = .issued t) ∧
    (ms.mcore 0).halted = false ∧ ms.mgmtRested 0 = true ∧ ∃ t, ms.issueBundle exec .mgmt 0 0 = .issued t :=
  ⟨⟨_, rfl, rfl, by decide, rfl, rfl, rfl, rfl, rfl, rfl, rfl, rfl⟩, rfl, rfl, ⟨_, rfl⟩⟩

theorem test_hyps_StepRunsChartTick :
    (∃ g, (placed 0x8028F42544000000).grp? 1 = some g ∧ g.status = .running ∧ g.slip = none ∧ (placed 0x8028F42544000000).power.therm = false ∧ g.clock = true) ∧
    (let t : Tick := { s := placed 0x8028F42544000000 }
     let c := t.s.core 0
     c.x.k.exiting = false ∧ c.x.k.exited = false ∧ c.x.next ≤ c.tick ∧ (c.x.align.isSome && !c.x.aligned) = false ∧ c.x.await = none ∧
     ∃ u, t.s.issueBundle exec .x 0 c.tick = .issued u ∧ u.sentTight (placedGrp 1 .running) 0 = false ∧
       t.s.issueX exec (fun _ => false) (placedGrp 1 .running) 0 = .issued u ∧ u.ctx.ctl = .none) :=
  ⟨⟨_, rfl, rfl, rfl, rfl, rfl⟩, rfl, rfl, by decide, rfl, rfl, ⟨_, rfl, rfl, rfl, rfl⟩⟩

/-! ### Scalar and control syllables -/

theorem test_hyps_RegisterForms :
    (aluCode (.rotr 15#4 9#5 31#5 8#5)).isSome = true ∧ (scalarRow (.rotr 15#4 9#5 31#5 8#5)).isSome = true ∧ xs.guardC 15#4 = true ∧
    xs.regsOk [9#5, 31#5, 8#5] = .ok ∧ as.regsOk [0#5, 31#5, 8#5] = .ok := by decide

theorem test_hyps_MultiplyDivide :
    (mulCode (.divn 15#4 9#5 31#5 8#5)).isSome = true ∧ (scalarRow (.divn 15#4 9#5 31#5 8#5)).isSome = true ∧ xs.guardC 15#4 = true ∧
    xs.regsOk [9#5, 31#5, 8#5] = .ok := by decide

theorem test_hyps_FieldAndImmediateForms :
    (scalarRow (.bfi 15#4 9#5 8#5 7#5 0#6 63#6)).isSome = true ∧ (aluCode (.bfi 15#4 9#5 8#5 7#5 0#6 63#6)).isNone = true ∧
    (mulCode (.bfi 15#4 9#5 8#5 7#5 0#6 63#6)).isNone = true ∧ xs.regsOk [9#5, 8#5, 7#5] = .ok := by decide

theorem test_hyps_ComparesAndTwins :
    let a : TwinHalf := ⟨1#5, 12#5, 12#5, 1#1, 1#12⟩
    let b : TwinHalf := ⟨8#5, 13#5, 14#5, 1#1, 2#12⟩
    (Instr.cmp 15#4 2#3 8#5 9#5 9#4).wf = true ∧ (Instr.cmpi 15#4 6#3 8#5 0#4 1#30).wf = true ∧ xs.guardC 15#4 = true ∧ xs.regsOk [8#5, 9#5] = .ok ∧
    xs.regsOk [8#5] = .ok ∧ (Instr.twin a b).wf = true ∧
    xs.regsOk (((halfRow a).map (·.regs)).getD [] ++ ((halfRow b).map (·.regs)).getD []) = .ok := by decide

/-- Core 0 with x5 owed by a syllable of its access stream. -/
def owing : State := as { core0 with a := { due := [(5, 1)] } }

theorem test_hyps_ScalarResultsInFlight :
    xs.ctx.who = .x ∧ as.ctx.who ≠ .x ∧ ms.ctx.who ≠ .x ∧ owing.ctx.who = .a ∧ (5#5 : BitVec 5) ≠ 0#5 ∧ owing.me.cycle < sget 0 (5#5 : BitVec 5).toNat owing.me.a.due ∧
    (∀ r ∈ [31#5, 1#5], sget 0 (r : BitVec 5).toNat owing.me.a.due ≤ owing.me.cycle) ∧ owing.me.aops = [] ∧ (∀ u ∈ [AWrite.x 5 7#64 3], u.lat ≤ (AWrite.x 5 9#64 3).lat) := by decide

theorem test_hyps_FalseGuardDoesNothing :
    (Instr.add 3#4 1#5 2#5 3#5).wf = true ∧ encode (.add 3#4 1#5 2#5 3#5) = some 0x0000308860000000#64 ∧ classOf 0x0000308860000000#64 = 0 ∧
    xs.legalOn (.add 3#4 1#5 2#5 3#5) 0x0000308860000000#64 = true ∧
    xs.guardTrue { addr := 0#64, word := 0x0000308860000000#64, instr := .add 3#4 1#5 2#5 3#5 } = false := by decide

theorem test_hyps_RegistersOutOfReach :
    (Instr.cmp 15#4 2#3 31#5 9#5 9#4).wf = true ∧ namedRegs (.cmp 15#4 2#3 31#5 9#5 9#4) = some (15#4, [31#5, 9#5]) ∧
    (Instr.cmpi 15#4 2#3 5#5 9#4 0#30).wf = true ∧ namedRegs (.cmpi 15#4 2#3 5#5 9#4 0#30) = some (15#4, [5#5]) ∧
    (Instr.twin ⟨1#5, 5#5, 31#5, 1#1, 1#12⟩ ⟨0#5, 0#5, 0#5, 0#1, 0#12⟩).wf = true ∧
    namedRegs (.twin ⟨1#5, 5#5, 31#5, 1#1, 1#12⟩ ⟨0#5, 0#5, 0#5, 0#1, 0#12⟩) = some (15#4, [5#5, 31#5]) ∧ owing.owed 5 = true ∧
    ({ ms with mgmt := [(0, { a := { due := [(5, 1)] }, halted := false })] } : State).owed 5 = true ∧ ({ core0 with x := { frame := 23 } } : Core).x.outside 31#5 = true ∧
    (as { core0 with aops := [{ iseq := 1, word := 0#64, instr := .ld 15#4 5#5 0#5 0#24 3#2 0#1 0#2 0#3, phase := .walking }] }).me.aops.any
      (fun o => o.dest == some 5) = true := by decide

theorem test_hyps_XStreamFrame :
    onlyFlies (.lginv 15#4 0#8 255#8) = true ∧ xs.ctx.out = .running ∧ (∃ t, exec (.lginv 15#4 0#8 255#8) xs = .next t ∧ t.ctx.out = .running) ∧
    onlyFlies (.vmov 15#4 0#10 1#10) = true ∧ (∃ t, exec (.vmov 15#4 0#10 1#10) (xs (held 0)) = .next t ∧ t.ctx.out = .running) :=
  ⟨rfl, rfl, ⟨_, rfl, rfl⟩, rfl, ⟨_, rfl, rfl⟩⟩

theorem test_hyps_QueueMovesFrame :
    movesQueues (.fmti 15#4 0#4) = true ∧ (∃ t, exec (.fmti 15#4 0#4) xs = .next t ∧ t.ctx.out = .running) ∧
    (∃ t, exec (.vpop 15#4 1#10 0#4 0#2 0#1 0#3 0#2 0#4) (xs (filled 0)) = .next t ∧ t.ctx.out = .running) :=
  ⟨rfl, ⟨_, rfl, rfl⟩, ⟨_, rfl, rfl⟩⟩

/-- Core 0 with window base 16, frame 8 and the link of that frame, and b2 and b7 at the start of a text. -/
def called (who : Who) : Core :=
  let pc := if who = .x then 0x10000#64 else 0x20000#64
  let k : Ctrl := { b := [(2, { val := pc }), (7, { val := pc })] }
  { core0 with x := { k := k, base := 16, frame := 8, links := [(16, 0x1800000000010000#64)] }, a := { k := k } }

theorem test_hyps_BranchesAndCalls :
    (xs (called .x)).branchOk (sget {} 2 (xs (called .x)).ctrl.b).val = true ∧ (as (called .a)).branchOk (sget {} 7 (as (called .a)).ctrl.b).val = true ∧
    (xs (called .x)).me.x.base + 16 + 4 * 6 ≤ 6656 ∧ (xs (called .x)).me.x.base + 16 + 4 * 6 ≤ (xs (called .x)).me.x.low + 256 ∧
    (xs (called .x)).me.x.base ≠ 0 ∧ (xs (called .x)).me.x.low ≤ (xs (called .x)).me.x.base - 16 ∧
    (xs (called .x)).branchOk (linkAddr (sget 0#64 (xs (called .x)).me.x.base (xs (called .x)).me.x.links)) = true ∧ xs.guardB 15#4 = true := by decide

theorem test_hyps_WindowFaultsAndMoves :
    6656 < 6633 + 16 + 4 * 2 ∧ 6632 + 16 + 4 * 2 ≤ 6656 ∧ (xs (called .x)).branchOk 0x10000#64 = true ∧ xs.branchOk (sget ({} : BReg) 2 xs.ctrl.b).val = false ∧
    (xs { core0 with x := { links := [(0, 0x10000#64)] } }).branchOk
      (linkAddr (sget 0#64 0 (xs { core0 with x := { links := [(0, 0x10000#64)] } }).me.x.links)) = true := by decide

theorem test_hyps_CallThenReturnRestoresWindow : (255 : Nat) < 256 ∧ (0xFFFFFFFFFFFFFF#64 : Word).toNat < 2 ^ 56 := by decide

theorem test_hyps_LoopsStart :
    (2#10 : BitVec 10) ≠ 0#10 ∧ as.reg 0#5 = 0#64 ∧ (as { core0 with a := { x := [(5, 7#64)] } }).reg 5#5 ≠ 0#64 ∧
    ((as { core0 with a := { x := [(5, 7#64)] } }).reg 5#5).toNat + (6#3).toNat - 1 < 2 ^ 32 ∧
    xs.loopChk 0#3 (0x10000#64 + BitVec.ofNat 64 (8 * (1#17).toNat)) = .ok ∧ xs.loopChk 5#3 (0x10000#64 + BitVec.ofNat 64 (8 * (4095#12).toNat)) = .ok ∧
    xs.rotLegal 0#10 0#6 = true ∧ as.rotLegal 0#10 0#6 = true ∧ xs.regsOk [0#5] = .ok := by decide

/-- Two active levels that end at different addresses. -/
def twoLevels : Ctrl :=
  { loops := [{ lv := 1, start := 0x10008#64, stop := 0x10010#64 }, { lv := 0, start := 0x10000#64, stop := 0x10020#64 }], lc := [(0, 5#64), (1, 1#64)] }

theorem test_hyps_LoopBodyEnds :
    twoLevels.loops.head?.map (·.stop) = some 0x10010#64 ∧ sget 0#64 1 twoLevels.lc = 1#64 ∧ sget 0#64 0 twoLevels.lc ≠ 1#64 ∧
    (∀ l ∈ twoLevels.loops, l.stop ≠ 0x10018#64) ∧ (∀ j ∈ twoLevels.loops.tail, j.lv < 1) ∧
    (let k : Ctrl := { twoLevels with lc := [(1, 3#64)], rot := { on := true, lv := 1, stages := 2, trip := 4 } }
     sget 0#64 1 k.lc ≠ 1#64 ∧ k.rot.on = true ∧ k.rot.lv = 1 ∧ twoLevels.rot.on = false) ∧
    (let c : Core := { core0 with x := { rotPend := true, k := { rot := { on := true, stages := 2 } } } }
     c.x.rotPend = true ∧ c.x.next ≤ c.tick ∧ 1 < c.x.k.rot.stages ∧ core0.x.rotPend = false) ∧
    (let l : Level := { lv := 0, start := 0x10000#64, stop := 0x10010#64 }
     let m : Level := { lv := 1, start := 0x10008#64, stop := 0x10010#64 }
     let one : Ctrl := { loops := [l], lc := [(0, 1#64)], rot := { on := true, lv := 0 } }
     let both : Ctrl := { loops := [m, l], lc := [(0, 2#64), (1, 1#64)] }
     one.loops = [l] ∧ sget 0#64 l.lv one.lc = 1#64 ∧ l.lv ≤ one.rot.lv ∧ both.loops = [m, l] ∧ l.stop = m.stop ∧ sget 0#64 m.lv both.lc = 1#64 ∧
     sget 0#64 l.lv both.lc ≠ 1#64 ∧ (∀ j ∈ [l], j.lv < m.lv)) := by decide

theorem test_hyps_LoopExitSyllable :
    (∀ l ∈ xs.ctrl.loops, l.lv ≠ (0#3).toNat) ∧ (∃ l ∈ twoLevels.loops, l.lv = (1#3).toNat) ∧
    twoLevels.loops.find? (fun l => l.lv == 0) = some { lv := 0, start := 0x10000#64, stop := 0x10020#64 } := by decide

theorem test_hyps_ControlSyllablesComplete :
    xs.guardB 15#4 = true ∧ xs.me.part = some 0 ∧ (xs { core0 with x := { aligned := true } }).me.x.aligned = true ∧ xs.inHandler = false ∧ hs.inHandler = true ∧
    xs.sysLegal false 0x053 = true ∧ ms.sysLegal false 0x054 = true ∧ as.sysLegal false 0x030 = true ∧ as.sysLegal false 0x033 = true ∧
    ((as (filled 17)).me.head (16 + (0x033 - 0x030) / 2) (as (filled 17)).me.tick).isSome = true ∧ xs.sysLegal true 0x020 = true ∧
    hs.regsOk [5#5, 6#5] = .ok ∧ hs.me.aops = [] ∧ hs.me.cmds = [] ∧ (hs.me.surveyCheck (hs.reg 6#5).toNat).1 = 0 := by decide

/-- Core 0 with an access that stands before the bundle being issued. -/
def pending : Core := { core0 with aops := [{ iseq := 1, word := 0#64, instr := .ld 15#4 5#5 0#5 0#24 3#2 0#1 0#2 0#3, phase := .walking }] }

theorem test_hyps_ControlSyllablesComplete_waits :
    as.unretired = false ∧ (let s : State := { as pending with ctx := { (as).ctx with first := 2 } }
      ∃ o ∈ s.me.aops, seqBefore o.iseq s.ctx.first = true ∧ o.phase ≠ .done) ∧
    hs.surveyBad 0 1 = none ∧ (({ hs with bad := [(1, 0, 0x7C04)] } : State).surveyBad 0 1).isSome = true ∧
    (let s : State := { hs with cores := [(0, { hs.me with a := { x := [(6, 98#64)] } })] }
     s.regsOk [6#5] = .ok ∧ s.surveyBad 0 (s.reg 6#5).toNat = none ∧ (s.me.surveyCheck (s.reg 6#5).toNat).1 ≠ 0) := by decide +kernel

theorem test_hyps_HandlerOnlySyllables :
    as.inHandler = false ∧ hs.inHandler = true ∧ xs.sysLegal false 0x080 = false ∧ xs.sysLegal true 0x030 = false ∧ as.sysLegal false 0x100 = false := by decide

theorem test_hyps_ContourAppliesPending :
    let c : Core := { core0 with sys := { bwph := 0x8000000000000001#64, divp := 0x8000000000001111#64 } }
    c.sys.bwphLate = none ∧ c.sys.divpLate = none ∧ c.sys.bwph.getLsbD 63 = true ∧ c.sys.divp.getLsbD 63 = true ∧
    core0.sys.bwph.getLsbD 63 = false ∧ core0.sys.divp.getLsbD 63 = false := by decide

/-! ### Vector, matrix and queue syllables -/

theorem test_hyps_VectorResults :
    (∃ row, vectorRow (.vadd 15#4 0#10 1#10 15#10 0#4) = some row ∧ (xs (held 1)).vectorReady row) ∧
    (∃ row, vectorRow (.vbc 15#4 0#10 31#5) = some row ∧ (xs (held 3)).vectorReady row) ∧
    (∃ row, vectorRow (.vadd 0#4 0#10 1#10 15#10 0#4) = some row ∧ (xs (held 1)).vectorMay row ∧
      (xs (held 1)).lanesOn row.guard ((xs (held 1)).me.rowType ((xs (held 1)).vrow row.vd)) = 0#64) :=
  ⟨⟨_, rfl, by decide, rfl, rfl, rfl⟩, ⟨_, rfl, by decide, rfl, rfl, rfl⟩, ⟨_, rfl, ⟨rfl, rfl, rfl⟩, by decide⟩⟩

theorem test_hyps_VectorConversions :
    (∃ row, convertRow (xs (held 2)) (.vqbx 15#4 0#10 1#10 9#4 4#4) = some row ∧ (xs (held 2)).vectorReady row) ∧
    (∃ row, convertRow (xs (held 2)) (.vred 15#4 0#10 1#10 2#2 4#4) = some row ∧ (xs (held 2)).vectorReady row) ∧
    (∃ row, convertRow (xs (held 2)) (.vcvt 0#4 0#10 1#10 0#4) = some row ∧ (xs (held 2)).vectorMay row ∧
      (xs (held 2)).lanesOn row.guard ((xs (held 2)).me.rowType ((xs (held 2)).vrow row.vd)) = 0#64) :=
  ⟨⟨_, rfl, by decide, rfl, rfl, rfl⟩, ⟨_, rfl, by decide, rfl, rfl, rfl⟩, ⟨_, rfl, ⟨rfl, rfl, rfl⟩, by decide⟩⟩

theorem test_hyps_IntegerLanesAreModular :
    (vectorRow (.vadd 15#4 0#10 1#10 2#10 0#4)).isSome = true ∧ (vectorRow (.vnot 15#4 0#10 1#10)).isSome = true ∧ (vectorRow (.vmov 15#4 0#10 1#10)).isSome = true ∧
    (vectorRow (.vrotl 15#4 0#10 1#10 63#6)).isSome = true ∧ (31 : Nat) < 32 := by decide

/-- Two cores of one group, side by side, the second at hop count 1. -/
def two : State :=
  { cores := [(0, { held 0 with owner := 1 }), (1, { owner := 1, part := some 0 })], groups := [{ placedGrp 1 .running with w := 2, cores := [0, 1] }]
    parts := [(0, { cores := [0, 1], objs := [placedObj] })], ctx := { who := .x, core := 0 } }

theorem test_hyps_VectorFlagsAndSends :
    (xs (held 0)).heldOk [(xs (held 0)).vrow 0#10, (xs (held 0)).vrow 1#10] = .ok ∧ (xs (held 0)).rowsGood [0, 1] = .ok ∧ (2#2 : BitVec 2) ≠ 3#2 ∧
    xs.regsOk [31#5] = .ok ∧ two.meshPeer (0#3).toNat = some 1 ∧ (two.grpAt two.ctx.core).isSome = true ∧
    two.lanesOn 15#4 (two.me.rowType (two.vrow 0#10)) ≠ 0#64 ∧ two.heldOk [two.vrow 0#10] = .ok ∧ two.rowsGood [two.vrow 0#10] = .ok ∧
    (two.core 1).sentHeld 1 0 0 0 0 < 16 ∧ (vectorRow (.vmov 15#4 0#10 1#10)).isSome = true ∧ two.lanesOn 0#4 (two.me.rowType (two.vrow 0#10)) = 0#64 ∧
    xs.rowsGood [xs.vrow 1#10] = .ok ∧ ([xs.vrow 0#10, xs.vrow 1#10].all fun r => (xs.me.bank (r / 16)).held) = false := by decide

/-- Core 0 with bank 0 held, slot 63 claimed and ready, and legend 0 valid; the slot's bytes are a table from 0 to 1. -/
def matrix : Core :=
  { core0 with e := { acc := [(0, { held := true })], slot := [(63, { claimed := true, ready := true, gen := 1 })], slotMem := [(516102, 0x80#8), (516103, 0x3F#8)], desc := [(0, { w2 := 0x8000000000000000#64 })] } }

theorem test_hyps_BanksAndSlotsIssue :
    (xs matrix).guardM 15#4 = true ∧ (xs matrix).heldOk [(xs matrix).vrow 0#10] = .ok ∧ (xs matrix).rowsGood [(xs matrix).vrow 0#10] = .ok ∧
    (xs matrix).legendChk 0 1 = .ok ∧ ((xs matrix).me.slot 63).claimed = true ∧ ((xs matrix).me.slot 63).ready = true ∧ (xs matrix).bad.contains (2, 0, 63) = false ∧
    (xs matrix).me.rowType ((xs matrix).vrow 0#10) < 2 ∧ ((List.range 1).all fun i => ((xs matrix).me.desc (0 + i)).kind != 2) = true := by decide

theorem test_hyps_BanksAndSlotsLand :
    (core0.slot 63).claimed = false ∧ (matrix.slot 63).claimed = true ∧ (1#1024 : Row) ≠ 0#1024 ∧ (core0.bank (1023 / 16)).held = false := by decide +kernel

theorem test_hyps_MatrixSyllablesIssue :
    xs.guardM 15#4 = true ∧ xs.regsOk [31#5] = .ok ∧ xs.me.full 20 = false ∧ (mxRow xs (.mlu 15#4 0#1 4095#12 0#6 0#8 0#6 0#5 0#2 0#4)).isSome = true ∧
    (mxRow xs (.mzero 15#4 0#1 0#12 0#6 0#2 0#4)).isSome = true := by decide

/-- A pending start of MDRAIN of bank 0 into v16 and up. -/
def drainOp : Op :=
  { iseq := 1, word := 0xC010F00000104000#64, engine := 3, kind := .start, wide := true, due := 0, mx := some (.mdrain 15#4 0#1 0#12 0#6 16#10 0#2 0#4), vbase := 16 }
/-- A format word of one plane of B1, one row and one column (R230). -/
def plane : Word := 0x0604000000000000#64
/-- Core 0 with that start due at tick 0, and a format word of one row and one column to 32-bit output. -/
def starting (fw : Word) : Core :=
  { core0 with e := { acc := [(0, { held := true }), (1, { held := true })] }, ops := [drainOp], q := [(20, { es := [{ filled := true, present := 0, val := fw.setWidth 1024 }] })] }

theorem test_hyps_MatrixStart :
    (xs (starting 0#64)).grpAt 0 = some (placedGrp 1 .running) ∧ ((xs (starting 0#64)).core 0).dueStarts = [drainOp] ∧ drainOp.fw = none ∧
    (((xs (starting 0#64)).core 0).head 20 0).isSome = true ∧ ((xs { starting 0#64 with q := [] }).core 0).head 20 0 = none ∧
    ((xs { starting 0#64 with q := [] }).core 0).dueStarts = [drainOp] := by decide

theorem test_hyps_MatrixStart_drain : (xs (starting plane)).mayStart 0 drainOp plane :=
  ⟨rfl, by decide, ⟨rfl, rfl⟩, rfl, rfl, fun h => absurd h (by decide), by decide, fun h => absurd h (by decide)⟩

theorem test_hyps_MatrixStart_slipped :
    let o := { drainOp with fw := some plane }
    let s := xs { starting plane with ops := [o] }
    (s.core 0).dueStarts = [o] ∧ s.mayStart 0 o plane :=
  ⟨rfl, rfl, by decide, ⟨rfl, rfl⟩, rfl, rfl, fun h => absurd h (by decide), by decide, fun h => absurd h (by decide)⟩

theorem test_hyps_MatrixStart_zero :
    let o := { drainOp with mx := some (.mzero 15#4 0#1 0#12 0#6 0#2 0#4) }
    let s := xs { starting plane with ops := [o] }
    (s.core 0).dueStarts = [o] ∧ ((s.core 0).head 20 0).isSome = true ∧ s.mayStart 0 o plane :=
  ⟨rfl, rfl, rfl, rfl, rfl, fun h => absurd h (by decide)⟩

theorem test_hyps_QueueMoves :
    xs.guardM 15#4 = true ∧ (xs (filled 7)).heldOk [(xs (filled 7)).vrow 15#10] = .ok ∧ ((xs (filled 7)).me.head 7 0).isSome = true ∧ ((xs (filled 18)).me.head 18 0).isSome = true ∧
    ((xs (filled 15)).me.head (12 + 3) 0).isSome = true ∧ ((xs (filled 19)).me.head 19 0).isSome = true ∧ xs.regsOk [31#5] = .ok ∧
    (xs (filled 7)).rowsGood [15] = .ok ∧ (xs (filled 7)).me.full (8 + 3) = false ∧ (xs (filled 7)).me.full (16 + 1) = false ∧
    (xs matrix).tableOk 63 = true ∧ (xs (filled 7)).me.full 18 = false ∧ (xs (filled 7)).me.e.ipfEnd ≤ 0 ∧ (xs (filled 7)).me.rowType 15 = 0 := by decide +kernel

theorem test_hyps_QueueMoves_token : xs.tokenThere 0#2 15#4 ∧ (xs { core0 with tk := [(15, 1)] }).tokenThere 2#2 15#4 :=
  ⟨fun h => absurd h (by decide), fun _ => by decide⟩

theorem test_hyps_QueueModes :
    (xs (held 0)).heldOk [0] = .ok ∧ (xs (held 0)).me.head 7 0 = none ∧ (xs (fullQ 17)).me.full (16 + 1) = true ∧ (xs (fullQ 17)).regsOk [8#5] = .ok ∧
    sget 0 15 xs.me.tk = 0 ∧ (xs (held 0)).me.head 18 0 = none ∧ (xs (held 0)).me.head (12 + 3) 0 = none ∧ (xs (held 0)).me.head 19 0 = none ∧
    (xs (held 0)).rowsGood [0] = .ok ∧ (xs (fullQ 11)).me.full (8 + 3) = true ∧ (xs (fullQ 18)).me.full 18 = true ∧ (xs (fullQ 20)).me.full 20 = true ∧
    (xs (held 0)).me.rowType 0 = 0 ∧ (xs (held 0)).me.e.ipfEnd ≤ 0 ∧ ((xs (filled 18)).me.head 18 0).isSome = true ∧ sget 0 15 (xs (filled 18)).me.tk = 0 ∧
    (xs (held 0)).me.full (8 + 3) = false ∧ (xs (held 0)).me.full 18 = false ∧ (xs (held 0)).me.full (16 + 3) = false := by decide +kernel

theorem test_hyps_QueueOrder :
    let e : Entry := emptyEntry
    let f : Entry := { filled := true, present := 3, val := 1#1024 }
    let c : Core := { core0 with q := [(0, { es := [e, f], pops := 65535 })] }
    (c.queue 0).es = [e, f] ∧ e.filled = false ∧ f.filled = true ∧ f.present ≤ 3 ∧ (c.queue 0).pops < 65536 ∧ (0 : Nat) ≠ 65535 ∧ (c.queue 0).es ≠ [] := by decide +kernel

/-- An operation of X with one landing, due at tick 0. -/
def landOp (l : Land) : Op := { iseq := 1, word := 0#64, engine := 0, kind := .land, due := 0, lands := [l] }

theorem test_hyps_ResultLanding :
    let c (l : Land) : Core := { held 0 with ops := [landOp l] }
    ((xs (c (.greg 7 5#64))).core 0).dueLandings = [landOp (.greg 7 5#64)] ∧ ((xs (c (.greg 7 5#64))).core 0).landFault ((xs (c (.greg 7 5#64))).badOf 0) (.greg 7 5#64) = none ∧
    (c (.wreg 23 5#64)).x.low ≤ 23 ∧ 23 < (c (.wreg 23 5#64)).x.base + (c (.wreg 23 5#64)).x.frame ∧ ((c (.wreg 24 5#64)).x.low ≤ 24 ∧ (c (.wreg 24 5#64)).x.base + (c (.wreg 24 5#64)).x.frame ≤ 24) ∧
    (c (.rows [(15, 1#1024, 1#1024)])).landFault [] (.rows [(15, 1#1024, 1#1024)]) = none ∧ ((c (.rows [(16, 1#1024, 1#1024)])).bank (16 / 16)).held = false ∧
    (landOp (.greg 7 5#64)).push = none ∧ (let c : Core := { core0 with sys := { levels := 6, lvl := [(5, 1#64)] } }; 5 < c.sys.levels ∧ (sget 0#64 5 c.sys.lvl).toNat < 2 ^ 60) ∧
    ([.preg 15 1#64 1#64, .breg 7 5#64 3, .lcnt 5 0#64, .sys 0x020 1#64, .sys 0x1050 1#64, .sys 0x010 1#64, .sys 0x0FF 1#64, .entries 0 [(0, 1#1024)] none, .slot 63 0 [1#8],
       .legends [(255, {}, List.replicate 256 1#32)], .lginv 0 255, .ipsel 11, .iptab 3 { lo := 0#32, hi := 0#32, below := 0, above := 0, knots := [], slopes := [] }] : List Land).all
      (fun l => ({ matrix with ops := [landOp l] } : Core).landFault [] l == none) = true := by decide +kernel

theorem test_hyps_ResultLanding_mesh :
    let o : Op := { iseq := 9, word := 0#64, engine := 2, kind := .land, due := 3, lands := [.mesh 1 6#1024] }
    let e : Entry := { filled := false, present := 0, val := 0#1024, src := some (0, 9) }
    let s : State := { two with cores := [(0, { held 0 with ops := [o] }), (1, { owner := 1, part := some 0, q := [(7, { es := [e] })] })] }
    ((s.core 1).queue 7).es = [e] ∧ e.filled = false ∧ e.present ≤ (s.core 1).tick ∧ e.src = some (0, 9) ∧
    (s.core 0).ops.find? (fun o => o.iseq == 9 && o.engine == 2) = some o ∧ o.lands = [.mesh 1 6#1024] := by decide +kernel

/-! ### Access-core syllables -/

/-- An object whose one section is a page of data at 0x100000, where the handle table, descriptors, rings and records of the tests stand. -/
def dataObj : Obj :=
  { id := 2, base := 0x100000#64, pa := 0x100000, size := 0x10000, secs := [(4, 0, 0x10000)], syms := [], slots := [], templates := [], links := [] }
/-- Bytes of HBM with tables at 0x1000 and 0x2000 that map the first 1 GiB of space 0 onto itself for reads and writes. -/
def maps (m : Memory) : Memory :=
  Memory.store (Memory.store m 0x1000 (wordBytes 0x8000000000002000#64)) 0x2000 (wordBytes 0xE000000000000000#64)
/-- The leaf of those tables as a core caches it. -/
def firstGiB : Leaf := { vpn := 0, size := 30, entry := 0xE000000000000000#64, stamp := 0 }
/-- Partition 0 with those tables and a handle table of one slot at the start of the data page. -/
def dataPart : Part := ((({ cores := [0], objs := [placedObj, dataObj] } : Part).setReg 0x400 0x1000#64).setReg 0x410 0x100000#64).setReg 0x418 1#64
/-- A state whose access core issues, with registers, HBM bytes and unfinished syllables given. -/
def mem (x : Store Word) (m : Memory := []) (os : List AOp := []) (c : Core := core0) : State :=
  { one { c with a := { c.a with x := x }, aops := os, cache := [firstGiB] } (placedGrp 1 .running) dataPart with
    hbm := maps m, ctx := { who := .a, core := 0, iseq := 9 } }

theorem test_hyps_AccessesIssue :
    (accessRow (.ld 15#4 1#5 2#5 0#24 3#2 0#1 0#2 0#3)).isSome = true ∧ (accessRow (.await 15#4 1#5 2#5 3#5 0#4 2#2 0#2 0#3)).isSome = true ∧
    as.guardC 15#4 = true ∧ as.regsOk [1#5, 2#5] = .ok ∧ as.spaceOk 0 .access 0xFFFFFFFFFFF8#64 = true ∧ (0xFFFFFFFFFFF8#64 : Word).toNat % 8 = 0 ∧
    as.spaceOk 0 .access 0x1000000000000#64 = false ∧ (0xFFFFFFFFFFFC#64 : Word).toNat % 8 ≠ 0 ∧ as.spaceOk 0 .access 0xFFFFFFFFFF80#64 = true ∧
    (0xFFFFFFFFFF80#64 : Word).toNat % 128 = 0 ∧ as.relWaits = false ∧ ((accOf (.st 15#4 1#5 2#5 0#24 3#2 0#2 0#3)).any fun a => a.wr) = true ∧
    (as { core0 with aops := [{ iseq := 1, word := 0#64, instr := .fence 15#4 2#2 0#3, phase := .sync }] }).relWaits = true ∧ as.me.full 6 = false ∧ (as (fullQ 6)).me.full 6 = true ∧ (0#2 : BitVec 2) ≠ 1#2 ∧ as.me.full (12 + 3) = false := by decide

theorem test_hyps_ManagementAccesses :
    sysaddr 0x3000000000000000#64 = .hbm 0 ∧ sysaddr 0x3000007FFFFFFFF8#64 = .hbm 0x7FFFFFFFF8 ∧ ms.copied (.hbm 0) 8 = false ∧ ms.readBad (.hbm 0) 8 = false ∧
    (loadedWord (.ld 15#4 1#5 2#5 0#24 3#2 0#1 0#2 0#3) []).isSome = true ∧ ((accOf (.st 15#4 1#5 2#5 0#24 3#2 0#2 0#3)).map fun k => (k.wr, k.atom)) = some (true, false) ∧
    ((accOf (.acas 15#4 1#5 2#5 3#5 4#5 3#2 0#2 0#3)).map fun k => (k.wr, k.atom)) = some (true, true) ∧ sysaddr 0#64 = .none ∧ ms.imageAt 0 = none ∧
    ms.regsOk [1#5, 2#5] = .ok ∧ awaitHolds 0 3 0#64 0#64 = true := by decide

/-- An access of the core's A-stream that is ready at HBM 0x100000. -/
def readyOp (i : Instr) : AOp := { iseq := 5, word := 0#64, instr := i, phase := .ready, addr := 0x100000#64, place := .hbm 0x100000 }

theorem test_hyps_AccessesPerformed :
    let o := readyOp (.acas 15#4 1#5 2#5 3#5 4#5 3#2 0#2 0#3)
    let s := mem [] [] [o]
    (s.core 0).aop 5 = some o ∧ o.buf = none ∧ (accOf o.instr).isSome = true ∧ (s.core 0).part = some 0 ∧ s.opRuns 0 5 = true ∧ (s.grpAt 0).isSome = true ∧
    (placedGrp 1 .running).status ≠ .resuming ∧ (accOf o.instr).all (s.mayPerform 0 0 o) = true ∧ s.copied (.hbm 0x100000) 8 = false ∧ s.readBad (.hbm 0x100000) 8 = false ∧
    s.order.veils = [] ∧ (s.core 0).blocked = false ∧ (loadedWord (readyOp (.ldx 15#4 1#5 2#5 3#5 0#2 0#2 1#1 0#2 0#3)).instr []).isSome = true := by decide +kernel

theorem test_hyps_AccessesPerformed_stq :
    let o := readyOp (.stq 15#4 0#4 2#5 0#24 0#2)
    let s := mem [] [] [o] (filled 8)
    (s.core 0).aop 5 = some o ∧ (accOf o.instr).all (s.mayPerform 0 0 o) = true ∧ o.popped = false ∧ (s.core 0).popHeld 5 0#4 = false ∧
    (((s.core 0).head (8 + (0#4).toNat) (s.core 0).tick).map (·.buf)) = some none := by decide +kernel

theorem test_hyps_WalksFillsAndAwaits :
    let o := { readyOp (.st 15#4 1#5 2#5 0#24 3#2 0#2 0#3) with phase := .walking }
    let s := mem [] [] [o]
    (s.core 0).aop 5 = some o ∧ s.opRuns 0 5 = true ∧ s.recheck 0 o { size := 8, wr := true } = .ok { place := .hbm 0x100000, leaf := none } ∧
    s.recheck 0 { o with addr := 0x10000#64 } { size := 8, wr := true } = .error 0x18 ∧ s.spaceOk 0 .access 0x1000000000000#64 = false ∧
    s.spaceOk 0 .access 0x100004#64 = true ∧ (0x100004#64 : Word).toNat % 8 ≠ 0 ∧ s.resolveCopied 0 0x100000#64 = false ∧ s.order.veils = [] ∧ (s.part 0).armed = [] ∧
    (mem [] [] [{ readyOp (.ldq 15#4 2#4 1#5 0#24 0#2) with phase := .done, entry := some 0 }]).opRuns 0 5 = true ∧
    (let o := readyOp (.await 15#4 1#5 2#5 3#5 0#4 3#2 0#2 0#3)
     (mem [] [] [o]).opRuns 0 5 = true ∧ (accOf o.instr).all ((mem [] [] [o]).mayPerform 0 0 o) = true) ∧ awaitHolds 0 3 0#64 0#64 = true ∧ awaitHolds 1 3 0#64 0#64 = false := by decide +kernel

/-- COPY of 64 bytes inside the data page, from x1 to x2 with length x3; GATHER and SCATTER of one such row with the index list at x7. -/
def copyState : State := mem [(1, 0x100000#64), (2, 0x100040#64), (3, 64#64), (4, 1#64), (6, 0x4000000001#64), (7, 0x100800#64)]

theorem test_hyps_CommandsEnqueueAndRetire :
    copyState.regsOk [2#5, 1#5, 3#5, 0#5] = .ok ∧ copyState.me.part = some 0 ∧ copyState.relWaits = false ∧ copyState.me.a.taken = none ∧
    (∃ lk, copyState.planned 0 0 (some 9) (.copy 15#4 2#5 1#5 3#5 0#5 0#1 0#1 0#2 0#4) (copyState.operand 2#5 false) (copyState.operand 1#5 false) (copyState.reg 3#5) (copyState.reg 0#5)
      = .go lk) ∧ copyState.me.full 19 = false ∧ (fullQ 19).full 19 = true ∧ copyState.reg 0#5 = 0#64 ∧ copyState.reg 3#5 ≠ 0#64 :=
  ⟨rfl, rfl, rfl, rfl, ⟨_, rfl⟩, rfl, rfl, rfl, by decide⟩

theorem test_hyps_CommandsEnqueueAndRetire_rows :
    (∃ lk, copyState.planned 0 0 (some 9) (.ldq2 15#4 6#5 1#5 4#5 0#5) 0#64 (copyState.reg 1#5) (copyState.reg 4#5) (copyState.reg 0#5) = .go lk) ∧
    (copyState.me.queue 6).es.length + (copyState.reg 4#5).toNat ≤ qCap 6 ∧
    (∃ lk, copyState.planned 0 0 (some 9) (.gather 15#4 2#5 1#5 6#5 7#5 0#1 0#1) (copyState.operand 2#5 false) (copyState.operand 1#5 false) (copyState.reg 6#5) (copyState.reg 7#5)
      = .go lk) ∧
    (∃ lk, copyState.planned 0 0 (some 9) (.scatter 15#4 2#5 1#5 6#5 7#5 0#1 0#1) (copyState.operand 2#5 false) (copyState.operand 1#5 false) (copyState.reg 6#5) (copyState.reg 7#5)
      = .go lk) :=
  ⟨⟨_, rfl⟩, by decide, ⟨_, rfl⟩, ⟨_, rfl⟩⟩

/-- A COPY whose bytes have all moved. -/
def doneCmd : Cmd :=
  { iseq := 5, word := 0#64, instr := .copy 15#4 2#5 1#5 3#5 0#5 0#1 0#1 0#2 0#4, seq := 7, dst := 0#64, src := 0#64, len := 64#64, aux := 0#64
    reads := [(0x100000#64, .hbm 0x100000, 64)], writes := [(0x1000000000200000#64, .slot 0 0, 64)], progress := 64, entry := some 0 }

theorem test_hyps_CommandsEnqueueAndRetire_taken :
    let s := mem [] [] [] { core0 with a := { taken := some (doneCmd, []) } }
    s.me.a.taken = some (doneCmd, []) ∧ s.me.full 19 = false ∧ s.relWaits = false ∧ s.me.a.took = false ∧ s.regsOk [2#5, 1#5, 3#5, 0#5] = .ok := by decide

theorem test_hyps_CommandsEnqueueAndRetire_retire :
    let s := mem [] [] [] { core0 with cmds := [doneCmd] }
    (s.core 0).cmds = [doneCmd] ∧ s.opRuns 0 5 = true ∧ (s.core 0).frozen = false ∧ doneCmd.watched = none ∧ doneCmd.again = false ∧
    capLen doneCmd.reads ≤ doneCmd.progress ∧ doneCmd.push = none ∧ (s.core 0).tokens 15 < 15 ∧ 0 ∈ slotsOf doneCmd.writes ∧ doneCmd.seq < 2 ^ 32 := by decide

theorem test_hyps_SyncCompletes_calm : as.calm ∧ as.guardC 15#4 = true ∧ (as.grpAt as.ctx.core).isSome = true :=
  ⟨⟨rfl, rfl, rfl, rfl, rfl, rfl⟩, rfl, rfl⟩

theorem test_hyps_SyncCompletes :
    let c : Core := { core0 with barA := [(15, 1)], tk := [(15, 14)] }
    as.regsOk [1#5, 0#5] = .ok ∧ as.me.arrivals 15 - as.me.waits 15 ≠ 15 ∧ (as { core0 with barA := [(0, 15)] }).me.arrivals 0 - (as { core0 with barA := [(0, 15)] }).me.waits 0 = 15 ∧
    (as c).me.arrivals 15 ≠ (as c).me.waits 15 ∧ (as c).allArrived (placedGrp 1 .running) 15 1 = true ∧
    (as { core0 with barA := [(15, 1)] }).allArrived { placedGrp 1 .running with cores := [0, 1] } 15 1 = false ∧ as.me.arrivals 15 = as.me.waits 15 ∧
    (as c).me.tokens 15 < 15 ∧ (as c).me.tokens 15 ≠ 0 ∧ (as { core0 with tk := [(15, 1)] }).engineWaits 0 15 = false ∧ as.reg 1#5 = 0#64 ∧ (as.reg 0#5).getLsbD 31 = false ∧ (1#64 <<< 31 : Word).getLsbD 31 = true ∧
    (0#64 : Word) &&& ~~~(as.me.sys.spmask.setWidth 64) = 0#64 ∧ (1#64 : Word) &&& ~~~(as.me.sys.spmask.setWidth 64) ≠ 0#64 := by decide

theorem test_hyps_SyncCompletes_waits :
    let e : Entry := { filled := true, present := 0, val := 1#1024 }
    let s : State := mem [(1, 1#64)] [] [] { core0 with q := [(19, { es := [e] })] }
    let o : AOp := { iseq := 5, word := 0#64, instr := .spalloc 15#4 1#5 2#5, phase := .sync, begun := true }
    s.reg 1#5 = 1#64 ∧ (s.me.queue 19).es = [e] ∧ e.filled = true ∧ ((mem [] [] [o]).core 0).aops = [o] ∧ o.value = 0#64 ∧ (mem [] [] [o]).opRuns 0 5 = true := by
  decide +kernel

/-- A published handle of slot 1: generation 1, visible base 0x200000, shadow base 0x300000. -/
def handle : Word := handleOf 1 1 2
/-- The handle table with that entry in slot 1. -/
def table : Memory := Memory.store [] 0x100020 (wordBytes 0x200000#64 ++ leBytes 8 65536 ++ wordBytes 0x300000#64 ++ wordBytes handle)
/-- A descriptor of a plain handle at 0x100100. -/
def descriptor : Memory := Memory.store [] 0x100100 (wordBytes 0x200000#64 ++ leBytes 8 65536 ++ wordBytes 0#64 ++ wordBytes 0#64)
theorem okAt {α : Type} {x : Except Nat (Nat × α)} {a : Nat} (h : (match x with | .ok r => r.1 == a | .error _ => false) = true) : ∃ e, x = .ok (a, e) := by
  cases x with
  | error _ => cases h
  | ok r => exact ⟨r.2, by rw [← eq_of_beq h]⟩
/-- An access core whose h3 holds the handle. -/
def handles (os : List AOp := []) : State := mem [(1, 0x100100#64)] table os { core0 with h := [(3, handle)] }

theorem test_hyps_HandlesComplete :
    let s := mem [(1, 0x100100#64)] descriptor
    s.regsOk [1#5] = .ok ∧ (s.reg 1#5).toNat < 2 ^ 48 ∧ (s.reg 1#5).toNat % 8 = 0 ∧ (s.reg 1#5).toNat % 65536 + 32 ≤ 65536 ∧
    ((piecesOf (s.reg 1#5, 32)).any fun x => s.resolveCopied 0 x.1) = false ∧
    (match s.hnewCapture 0 0 (s.reg 1#5) with
      | .ok (u, cs) => decide (cs = [(s.reg 1#5, .hbm 0x100100, 32)] ∧ u.ctx = s.ctx ∧ u.order.veils = [] ∧ u.badByte 0 [(s.reg 1#5, .hbm 0x100100, 32)] = none) && !u.copied (.hbm 0x100100) 32 &&
          (u.readEntry 0x100100).fresh && !u.descHeld 0 0 9 [(s.reg 1#5, .hbm 0x100100, 32)] &&
          (match u.freeSlot 0 1 ((u.part 0).idx 0x418 % 65536) with | .go r => r == some (1, 0x100020) | _ => false)
      | .error _ => false) = true ∧ (match handles.freeSlot 0 1 1 with | .go none => true | _ => false) = true := by decide

theorem test_hyps_HandlesComplete_publish :
    let o : AOp := { iseq := 5, word := 0#64, instr := .publish 15#4 3#4 3#3, phase := .sync, addr := handle, begun := true }
    (∃ e, handles.handleEntry 0 (sget 0#64 3 handles.me.h) = .ok (0x100020, e)) ∧ handles.handleEntry 0 0#64 = .error 0x1B ∧ handles.tableCopied 0 1 = false ∧
    ({ handles with bad := [(0, 0, 0x100020 / 64)] } : State).readBad (.hbm 0x100020) 32 = true ∧ handles.readBad (.hbm 0x100020) 32 = false ∧
    (∃ e, handles.publishChk 0 (sget 0#64 3 handles.me.h) = .ok (0x100020, e)) ∧ ((handles [o]).core 0).aops = [o] ∧ (handles [o]).opRuns 0 5 = true ∧
    (∀ c ∈ (handles [o]).cores, ∀ m ∈ c.2.allCmds, m.writesSlot (handleSlot o.addr) = false) ∧
    (∀ r ∈ (handles [o]).groups, ∀ im ∈ r.images, ∀ m ∈ im.2.allCmds, m.writesSlot (handleSlot o.addr) = false) ∧
    (∃ e, (handles [{ o with begun := false }]).publishChk 0 o.addr = .ok (0x100020, e)) ∧ handles.htSlot 0 1 = .ok 0x100020 ∧
    handleOf 2 1 2 ≠ 0#64 ∧ handleSlot (handleOf 2 1 2) ≠ 0 ∧ handleSlot (handleOf 2 1 2) ≤ (handles.part 0).idx 0x418 % 65536 ∧ (handleOf 2 1 2).toNat % 2 ^ 28 = 0 ∧
    (handles.readEntry 0x100020).cur ≠ handleOf 2 1 2 :=
  ⟨okAt (by decide +kernel), rfl, by decide, by decide +kernel, by decide +kernel, okAt (by decide +kernel), rfl, rfl, by decide, by decide, okAt (by decide +kernel), by decide +kernel, by decide, by decide, by decide,
    by decide, by decide +kernel⟩

theorem test_hyps_PagesAndFences :
    let o : AOp := { iseq := 5, word := 0#64, instr := .tfence 15#4 3#3, phase := .sync, begun := true, value := 1#64 }
    (∀ c ∈ as.cores, c.2.allCmds = []) ∧ (∀ r ∈ as.groups, ∀ im ∈ r.images, im.2.allCmds = []) ∧ ((mem [] [] [o]).core 0).aops = [o] ∧ o.value ≠ 0#64 ∧
    (mem [] [] [o]).opRuns 0 5 = true ∧ (∀ c ∈ (mem [] [] [o]).cores, c.2.allCmds = []) ∧ (∀ r ∈ (mem [] [] [o]).groups, r.images = []) ∧
    (∀ x ∈ as.qAlive, x ∉ as.alive) ∧ ({ quarantine := [(3, 0, none)] } : Part).shadows = [] ∧ ({ released := [3] } : Part).released = [3] ∧ (1, 0, 5) ∈ (mem [] [] [readyOp (.ld 15#4 1#5 2#5 0#24 3#2 0#1 0#2 0#3)]).alive ∧
    (State.reset.part 0).quarantine.length + (State.reset.part 0).released.length < 65536 ∧ (State.reset.part 0).released = [] ∧ (47 : Nat) < 48 := by decide +kernel

theorem test_hyps_PagesAndFences_full (n : Nat) : ∃ p : Part, n ≤ p.quarantine.length + p.released.length :=
  ⟨{ quarantine := List.replicate n (0, 0, none) }, by simp⟩

/-! ### Waits, debug, the dispatcher -/

/-- Core 0 and a chosen part of the partition's window. -/
def win (p : Part) (c : Core := core0) (g : Grp := placedGrp 1 .running) : State := { one c g p with hbm := maps [] }
/-- The partition with the data page and some registers. -/
def regs (l : List (Nat × Word)) : Part := l.foldl (fun p e => p.setReg e.1 e.2) dataPart
/-- An unfinished syllable of core 0 whose wait has begun. -/
def begun (i : Instr) : AOp := { iseq := 5, word := 0#64, instr := i, phase := .sync, begun := true, addr := 0x100000#64 }

theorem test_hyps_WaitsAndBanksEnd_moves :
    (let w : BReg := { val := 5#64, ready := 7 }
     let c : Core := { core0 with x := { await := some w, k := { b := [(2, w)] } }, a := { k := { b := [(2, w)] } } }
     (one c).waitOver 0 .fetch = false ∧ c.x.await = some w ∧ w.val = (sget {} 2 c.x.k.b).val ∧ w.ready = (sget {} 2 c.x.k.b).ready ∧
     (one c { placedGrp 1 .running with slip := some .fetch }).fetchSlip 0 = true ∧ (one c).fetchSlip 0 = false ∧ c.tick < w.ready ∧
     w.ready ≤ ({ c with tick := 7 } : Core).tick ∧ c.cycle + 3 * c.divisor 0 < w.ready ∧ w.ready ≤ ({ c with cycle := 1 } : Core).cycle + 3 * c.divisor 0) ∧
    (one).grp? 1 = some (placedGrp 1 .running) ∧ (one).waitOver 0 .fetch = true ∧ (one (fullQ 0)).waitOver 0 (.room 0) = false ∧
    (one).grpAt 0 = some (placedGrp 1 .running) ∧ (8184 : Nat) + 8 * 1 ≤ 8192 ∧ (sget ({} : Bank) 31 core0.banks).st ≠ 3 ∧ core0.spillOwed 0 = false ∧
    (one { core0 with x := { low := 8, window := some (1, true) } }).windowBad 0 1 true = none ∧ (one { core0 with x := { window := some (1, false) } }).windowBad 0 1 false = none ∧
    ({ one { core0 with x := { low := 8, window := some (1, true) } } with bad := [(1, 0, 0x1F3000 / 64)] } : State).windowBad 0 1 true = some 0x1F3000 ∧
    ({ one { core0 with x := { window := some (1, false) } } with bad := [(1, 0, 0x1F2000 / 64)] } : State).windowBad 0 1 false = some 0x1F2000 ∧
    ({ core0 with x := { low := 8, window := some (1, true) } } : Core).windowRuns = true ∧
    (placedGrp 1 .running).cores ≠ [] ∧ ({ core0 with x := { align := some (1, 1) } } : Core).arrived = true := by decide +kernel

theorem test_hyps_WaitsAndBanksEnd_barrier :
    let o := begun (.barw 15#4 0#5)
    let s := one { core0 with aops := [o], barA := [(0, 1)] }
    (s.core 0).aops = [o] ∧ s.opRuns 0 o.iseq = true ∧ (s.core 0).part.isSome = true ∧ s.allArrived (placedGrp 1 .running) 0 1 = true ∧
    s.allArrived { placedGrp 1 .running with cores := [0, 1] } 0 1 = false ∧ (one).allArrived (placedGrp 1 .running) 0 1 = false := by decide +kernel

theorem test_hyps_WaitsAndBanksEnd_banks :
    let o := { begun (.spalloc 15#4 1#5 2#5) with mask := 1#64 }
    let s : State := { one { core0 with banks := [(0, { owner := 1, st := 2, last := 0 }), (1, { owner := 1, st := 3 }), (2, { st := 3 })], aops := [o], e := { acc := [(0, { st := 2 })] } } with power := { ref := 2048000 } }
    2048 ≤ s.idleTicks 0 ∧ s.idleTicks 1 < 2048 ∧ (sget ({} : Bank) 0 (s.core 0).banks).owner ≠ 0 ∧ (sget ({} : Bank) 0 (s.core 0).banks).st = 2 ∧ (sget ({} : Bank) 0 (s.core 0).banks).pin = false ∧ (sget ({} : Bank) 1 (s.core 0).banks).st = 3 ∧
    (sget ({} : Bank) 2 (s.core 0).banks).owner = 0 ∧ ((s.core 0).bank 0).st = 2 ∧ ((s.core 0).bank 0).held = false ∧ ((s.core 0).bank 0).last = 0 ∧
    s.accessRuns 0 = true ∧ o.begun = true ∧ o.mask.getLsbD 0 = true ∧ (s.core 0).bankOwner 2 = 0 ∧
    ({ core0 with banks := [(2, { st := 3 })], sys := { spmask := 4#32 } } : Core).bankOwner 2 ≠ 0 := by decide +kernel

theorem test_hyps_WatchAndFix :
    (let m : Cmd := { doneCmd with watched := some (1, 0x100000#64) }
     let s := one { core0 with cmds := [m] }
     (s.core 0).cmds.find? (fun m => m.watched.isSome) = some m ∧ (s.core 0).part = some 0 ∧ s.accessRuns 0 = true ∧ (s.core 0).frozen = false) ∧
    (let p := { regs [(0x600, 0x100000#64), (0x608, 127#64)] with peerReports := [[]] }
     (p.reg 0x600).toNat % 2 ^ 39 ≠ 0 ∧ (win p).copying = [] ∧ (p.idx 0x608 + 2 ^ 32 - p.idx 0x610) % 2 ^ 32 < 128) ∧
    (let v : Word := 0x8000000000000000#64
     let s := win (regs [(0x5F0, 0x100000#64), (0x580, 8#64)])
     ((s.part 0).reg (0x588 + 16 * 7)).getLsbD 63 = false ∧ s.armPlace 0 ((s.part 0).reg (0x580 + 16 * 7)) (16 * (v.toNat / 2 % 256 + 1)) = some (.hbm 0x100000) ∧
     s.armPlace 0 ((s.part 0).reg 0x580) (16 * (v.toNat / 2 % 256 + 1)) = none ∧ v.getLsbD 63 = true) ∧
    (∀ f ∈ ({ one with wall := 101, fixes := [(0, none)] } : State).fixes, f.1 + 100 < 101) ∧
    (∃ f ∈ ({ one with wall := 100, fixes := [(0, none)] } : State).fixes, 100 ≤ f.1 + 100) := by decide +kernel

/-- A 320-byte record of one core without levels or handler. -/
def record : Bytes :=
  leBytes 4 1 ++ leBytes 4 1 ++ leBytes 8 0 ++ leBytes 8 7 ++ List.replicate 32 0#8 ++ [1#8, 1#8, 1#8] ++ List.replicate 261 0#8
/-- The placed object with a symbol for its X-stream's entry. -/
def entered : Obj := { placedObj with syms := [{ name := [], sec := 1, binding := 1, kind := 7, value := 0 }] }
/-- A partition with that object, the data page and some registers. -/
def launching (l : List (Nat × Word)) : Part := { regs l with objs := [entered, dataObj] }
/-- The record in the data page. -/
def recordAt : Memory := Memory.store [] 0x100000 record
/-- The captured piece of that record. -/
def pieces : List Cap := [(0x100000#64, .hbm 0x100000, 320)]
/-- A LAUNCH that is to read its record. -/
def asking (i : Instr) : AOp := { begun i with begun := false, caps := pieces }
/-- Core 0 of such a partition with a waiting LAUNCH, its record in memory or zeros there. -/
def launchState (i : Instr) (m : Memory) (p : Part := launching []) (o : AOp := asking i) : State :=
  { one { core0 with aops := [o], cache := [firstGiB] } (placedGrp 1 .running) p with hbm := maps m }
/-- A pool without an entry at depth 2. -/
def noPool : Part :=
  let l (k : Nat) : Launch := { record := [], obj := 1, tag := 1#64, arrival := 2, depth := 0, prio := 0, pool := k, waits := [], readySince := none, parents := [] }
  { launching [] with pending := List.replicate 3584 (l 0) ++ List.replicate 64 (l 1) ++ List.replicate 64 (l 2) }

theorem test_hyps_LaunchesAndQueues_queue :
    let s := win (launching [(0x3C0, 0x100000#64), (0x3C8, 0x104000#64), (0x3D0, 0x80000000#64), (0x3D8, 1#64)])
    let cfg := (s.part 0).reg (0x40 * 15 + 0x10)
    cfg.getLsbD 31 = true ∧ cfg.getLsbD 30 = false ∧ (s.part 0).idx (0x40 * 15 + 0x20) ≠ (s.part 0).idx (0x40 * 15 + 0x18) ∧ ((s.part 0).poolFor 0).isSome = true ∧
    s.copying = [] ∧ s.attestOnly = false ∧
    (s.part 0).overrun 15 = false ∧ s.readVa 0 (((s.part 0).reg (0x40 * 15)).toNat + 320 * 0) 320 = .ok (List.replicate 320 0#8) ∧
    (s.part 0).recStatus (List.replicate 320 0#8) ≠ 0 ∧
    s.mapVa 0 none (vaOf ((s.part 0).reg (0x40 * 15 + 8)) + 16 * 0) true true = .ok { place := .hbm 0x104000, leaf := some firstGiB } := by decide +kernel

theorem test_hyps_LaunchesAndQueues_accept :
    let s : State := { win (launching [(0x3C0, 0x100000#64), (0x3C8, 0x104000#64), (0x3D0, 0x80000000#64), (0x3D8, 1#64)]) with hbm := maps recordAt }
    s.readVa 0 (((s.part 0).reg (0x40 * 15)).toNat + 320 * 0) 320 = .ok record ∧ (s.part 0).recStatus record = 0 ∧
    (s.rects 0 (recField record 0x38 1) (recField record 0x39 1) (recField record 0x3A 1)).isEmpty = false ∧
    ((win (launching [(0x3D0, 0x80000000#64), (0x3D8, 17#64)])).part 0).overrun 15 = true := by decide +kernel

theorem test_hyps_LaunchesAndQueues_firmware :
    ((win (launching [])).part 0).recStatus record = 0 ∧
    ((win (launching [])).rects 0 (recField record 0x38 1) (recField record 0x39 1) (recField record 0x3A 1)).isEmpty = false ∧
    ((win (launching [])).part 0).poolFor 0 = some 0 ∧ recPrio record = 0 := by decide +kernel

theorem test_hyps_LaunchesAndQueues_issue :
    let s := mem [(1, 0x100000#64), (2, 0x100020#64)]
    s.guardC 15#4 = true ∧ s.regsOk [3#5, 1#5] = .ok ∧ s.grpAt s.ctx.core = some (placedGrp 1 .running) ∧ (placedGrp 1 .running).depth ≠ 8 ∧
    (s.reg 2#5).toNat % 64 ≠ 0 ∧ s.me.aops = [] ∧ (s.reg 1#5).toNat < 2 ^ 48 ∧ (s.reg 1#5).toNat % 64 = 0 ∧
    s.copying = [] ∧ (∃ u, s.launchCapture s.ctx.core 0 (s.reg 1#5) = .ok (u, pieces)) ∧
    (∃ k, (mem [(1, 0x40000000#64)]).launchCapture 0 0 ((mem [(1, 0x40000000#64)]).reg 1#5) = .error k) :=
  ⟨rfl, rfl, rfl, by decide, by decide, rfl, by decide, by decide, rfl, ⟨_, rfl⟩, ⟨_, rfl⟩⟩

/-- What the statements ask of a waiting LAUNCH, its record read as `r`. -/
def launchReads (s : State) (i : Instr) (r : Bytes) : Prop :=
  s.opRuns 0 5 = true ∧ (s.core 0).part.isSome = true ∧ s.grpAt 0 = some (placedGrp 1 .running) ∧ s.launchHolds 0 (asking i) (placedGrp 1 .running) r
/-- A record whose pages are captured is read. -/
theorem launchReads_of (i : Instr) (m : Memory) (p : Part) (r : Bytes) (h : (launchState i m p).opRuns 0 5 = true)
    (hr : (match (launchState i m p).ways 1 0 pieces with | .clear => true | _ => false) &&
      pieces.all (fun c => !(launchState i m p).readOwed 0 0 5 ((launchState i m p).landsAt 0 c.2.1) c.2.2 true) && (launchState i m p).badByte 0 pieces == none && (launchState i m p).readCaps 0 0 pieces == r) : launchReads (launchState i m p) i r := by
  simp only [Bool.and_eq_true, List.all_eq_true, beq_iff_eq, Bool.not_eq_true'] at hr
  refine ⟨h, rfl, rfl, .inr ⟨rfl, by simp [asking, pieces], ?_, fun c hc => hr.1.1.2 c hc, hr.1.2, hr.2.symm⟩⟩
  have hw := hr.1.1.1
  show (launchState i m p).ways 1 0 pieces = .clear
  revert hw
  cases (launchState i m p).ways 1 0 pieces <;> simp

theorem test_hyps_LaunchesAndQueues_refused :
    launchReads (launchState (.launchB 15#4 3#5 1#5 0#5) []) (.launchB 15#4 3#5 1#5 0#5) (List.replicate 320 0#8) ∧
    (launching []).recStatus (List.replicate 320 0#8) ≠ 0 :=
  ⟨launchReads_of _ _ _ _ rfl (by decide +kernel), by decide +kernel⟩

theorem test_hyps_LaunchesAndQueues_accepted :
    launchReads (launchState (.launchN 15#4 3#5 1#5 0#5) recordAt) (.launchN 15#4 3#5 1#5 0#5) record ∧ (launching []).recStatus record = 0 ∧
    (launching []).poolFor 2 = some 0 ∧ (launchState (.launchN 15#4 3#5 1#5 0#5) recordAt).rects 0 1 1 1 ≠ [] :=
  ⟨launchReads_of _ _ _ _ rfl (by decide +kernel), by decide +kernel, rfl, by decide +kernel⟩

theorem test_hyps_LaunchesAndQueues_busy :
    launchReads (launchState (.launchB 15#4 3#5 1#5 0#5) recordAt noPool) (.launchB 15#4 3#5 1#5 0#5) record ∧ noPool.recStatus record = 0 ∧
    noPool.poolFor 2 = none ∧ (launchState (.launchB 15#4 3#5 1#5 0#5) recordAt noPool).rects 0 1 1 1 ≠ [] ∧
    (launchState (.launchB 15#4 3#5 1#5 0#5) recordAt noPool { begun (.launchB 15#4 3#5 1#5 0#5) with bytes := record }).launchHolds 0
      { begun (.launchB 15#4 3#5 1#5 0#5) with bytes := record } (placedGrp 1 .running) record :=
  ⟨launchReads_of _ _ _ _ rfl (by decide +kernel), by decide +kernel, by decide +kernel, by decide +kernel, .inl ⟨rfl, rfl⟩⟩

theorem test_hyps_LaunchesAndQueues_timeout :
    let s := { launchState (.launchB 15#4 3#5 1#5 0#5) [] (launching []) (begun (.launchB 15#4 3#5 1#5 0#5)) with wall := 16000 }
    (s.core 0).aops = [begun (.launchB 15#4 3#5 1#5 0#5)] ∧ (begun (.launchB 15#4 3#5 1#5 0#5)).value.toNat + 16000 ≤ s.wall ∧ s.grpAt 0 = some (placedGrp 1 .running) ∧
    0 ∈ (placedGrp 1 .running).cores ∧ s.accessRuns 0 = true ∧ (0 : Nat) < 16000 := by decide +kernel

/-- A ready launch that waits since wall time 0. -/
def ready : Launch :=
  { record := record, obj := 1, tag := 7#64, arrival := 2, depth := 0, prio := 0, pool := 0, waits := [], readySince := some 0, parents := [] }

theorem test_hyps_DispatcherAndExits_passes :
    (∃ c ∈ ({ win { launching [] with pending := [ready] } with wall := 1000000 } : State).candidates 0,
      ({ win { launching [] with pending := [ready] } with wall := 1000000 } : State).agedSince 0 c = true) ∧
    (∀ c ∈ ({ win { launching [] with pending := [ready] } with wall := 999999 } : State).candidates 0,
      ({ win { launching [] with pending := [ready] } with wall := 999999 } : State).agedSince 0 c = false) := by decide +kernel

/-- A partition of one unowned core with that launch ready. -/
def idle : State := { cores := [(0, { part := some 0 })], parts := [(0, { launching [] with pending := [ready] })] }
/-- That core under a group, and a launch of priority 7 that has waited 100 µs. -/
def contended : State := { one core0 (placedGrp 1 .running) { launching [] with pending := [{ ready with prio := 7 }] } with wall := 100000 }

theorem test_hyps_DispatcherAndExits_pass :
    (let v := idle.retireCores 0
     let u := (v.flushRecords 0 (v.part 0).records.length).stampReady 0
     ∃ c r, u.candidates 0 = [c] ∧ (u.candRects 0 c).find? (fun r => r.cores.all (u.coreFree 0 c.arrival)) = some r) ∧
    ((idle.part 0).obj? ready.obj = some entered ∧ ({ d0 := 0, x0 := 0, y0 := 0, w := 1, hgt := 1, dies := 1 } : Rect).cores.Nodup ∧
      (∀ g ∈ idle.groups, g.num ≠ idle.nextCtx)) ∧
    (∃ c r, contended.candidates 0 = [c] ∧ (contended.candRects 0 c).find? (fun r => r.cores.all (contended.clearable 0 c)) = some r ∧
      (∀ r ∈ contended.candRects 0 c, r.cores.all (contended.coreFree 0 c.arrival) = false) ∧ c.since + 100000 ≤ contended.wall ∧
      (∀ e ∈ (contended.part 0).reserved, e.1 ≠ c.arrival) ∧ contended.grpAt 0 = some (placedGrp 1 .running) ∧ c.eff ∉ [c.eff + 1] ∧ c.eff ∈ [c.eff]) ∧
    (∀ c ∈ (win { launching [] with pending := [ready] }).candidates 0, ∀ r ∈ (win { launching [] with pending := [ready] }).candRects 0 c,
      r.cores.all ((win { launching [] with pending := [ready] }).clearable 0 c) = false) :=
  ⟨⟨_, _, rfl, rfl⟩, by decide +kernel, ⟨_, _, rfl, rfl, by decide +kernel, by decide, by decide, rfl, by decide, by decide⟩, by decide +kernel⟩

theorem test_hyps_DispatcherAndExits_contexts :
    let g : Grp := { placedGrp 1 .stopped with handler := some 0x20000#64, mask := 1#256 }
    let h : Grp := { placedGrp 1 .supervised with images := [(0, core0)] }
    let bad : Core := { core0 with image := Memory.store [] (0x170000 + 0x1F0038) (leBytes 8 98) }
    let warm : Core := { core0 with banks := [(0, { owner := 1, live := true, st := 1 })] }
    (one core0 (placedGrp 1 .stopped)).toSupervisor (placedGrp 1 .stopped) = true ∧ (one core0 g).toSupervisor g = false ∧ (one core0 g).grp? 1 = some g ∧
    (∀ im ∈ h.editedImages [], im.2.saved = none → im.2.imageCheck.1 = 0) ∧ bad.saved = none ∧ bad.imageCheck.1 ≠ 0 ∧ core0.mustWake = false ∧
    warm.mustWake = true ∧ (one).descendants 0 1 = [] ∧
    (one).groups.find? (fun x => x.part == 0 && x.arrival == 1) = some (placedGrp 1 .running) ∧ ((one).groups.map (·.num)).Nodup ∧
    ((one).groups.map fun g => (g.part, g.arrival)).Nodup ∧
    (placedGrp 1 .running).cores = [0] ∧ (one).grpAt 0 = some (placedGrp 1 .running) := by decide +kernel

theorem test_hyps_DispatcherAndExits_exits :
    let x : Core := { core0 with x := { k := { exiting := true } } }
    let a : Core := { core0 with a := { k := { exiting := true } } }
    x.x.k.exited = false ∧ x.ops = [] ∧ (∃ b, b < 64 ∧ ((held 0).bank b).held = true) ∧ (∀ b, b < 64 → (x.bank b).held = false) ∧ a.aops = [] ∧ a.cmds = [] ∧
    a.saved = none ∧ a.x.k.exited = false ∧ a.finished = false ∧ ((one).part 0).records = [] ∧ ((one).part 0).reg 0x700 = 0#64 := by
  refine ⟨rfl, rfl, ⟨0, ?_, rfl⟩, fun b _ => rfl, rfl, rfl, rfl, rfl, rfl, rfl, rfl⟩; decide

theorem test_hyps_DispatcherAndExits_record :
    let s := win { launching [(0x700, 0x100000#64)] with records := [List.replicate 32 0#8] }
    (s.part 0).reg 0x700 ≠ 0#64 ∧ s.copying = [] ∧ State.ringSlot (s.modPart 0 fun x => x.setReg 0x718 (0#64 &&& 0xFFFFFFFF#64)) 0 = some 0x100000 := by decide +kernel

/-! ### Code, power, boot, boundary -/

/-- An object of two text sections of one syllable each. -/
def objectBytes : Bytes :=
  ([0x1544F5645#64, 0x3#64, 0x40#64, 0xA0#64, 0xA0#64, 0x0#64, 0xA0#64, 0x0#64, 0x301#64, 0xA0#64, 0x8#64, 0x0#64, 0x302#64, 0xA8#64, 0x8#64, 0x8#64,
    0x307#64, 0xB0#64, 0x40#64, 0x10#64, 0xA011F00000000000#64, 0xA011F00000000000#64, 0x154524143#64, 0xB40DFD007750827D#64, 0xE8FED9C42FF995A3#64,
    0x1E72AC7C5C3D983D#64, 0x519ED8D6AF866138#64, 0x643547684CB04EB3#64, 0x358981FB1DABC6C#64, 0x83F99688BD862F55#64] : List Word).flatMap wordBytes
/-- A state whose command ring has one entry, given as words, at 0x100200; more bytes of memory, and the objects of the partition. -/
def ring (e : List Word) (m : Memory := []) (os : List Obj := [placedObj, dataObj]) : State :=
  { win { regs [(0x900, 0x100200#64), (0x908, 1#64)] with objs := os } with
    hbm := maps (Memory.store m 0x100200 ((e ++ List.replicate (8 - e.length) 0#64).flatMap wordBytes)) }
/-- What a ring command's entry reads as. -/
def ringReads (s : State) (cmd : Nat) : Bool :=
  (s.part 0).csEntry == some 0x100200 && (match s.readVa 0 0x100200 64 with | .ok e => recField e 0 1 == cmd | .error _ => false)

theorem test_hyps_CodeService_load :
    (let s := ring [1#64, 0x100400#64, 240#64] (Memory.store [] 0x100400 objectBytes)
     ringReads s 1 = true ∧ (match s.readVa 0 0x100200 64 with | .ok e => recField e 8 8 == 0x100400 && recField e 0x10 8 == 240 | .error _ => false) = true ∧
     (match s.readVa 0 0x100400 240 with | .ok d => d == objectBytes | .error _ => false) = true) ∧
    (match (regs []).loadObject objectBytes { va := 0x400000#64, pa := 0x400000, handles := [] } with | .ok r => r.1.size | .error _ => 0) = 80 ∧
    (match (regs []).loadObject [] { va := 0x400000#64, pa := 0x400000, handles := [] } with | .ok _ => 0 | .error k => k) = 1 ∧
    (win (regs [])).part 0 = regs [] ∧ (regs []).csEntry = none := by decide +kernel

theorem test_hyps_CodeService_unload :
    (ring [2#64, 2#64]).copying = [] ∧ ringReads (ring [2#64, 2#64]) 2 = true ∧ ((ring [2#64, 2#64]).part 0).obj? 9 = none ∧ ((ring [2#64, 2#64]).part 0).obj? 2 = some dataObj ∧
    (ring [2#64, 2#64]).residency 0 dataObj = 0 ∧ (ring [2#64, 1#64]).residency 0 placedObj ≠ 0 ∧
    ((win { regs [] with objs := [{ dataObj with deferred := true }] }).part 0).obj? 2 = some { dataObj with deferred := true } ∧
    (win { regs [] with objs := [{ dataObj with deferred := true }] }).residency 0 { dataObj with deferred := true } = 0 ∧
    ringReads (ring [3#64, 2#64]) 3 = true ∧ (∃ q ∈ [{ placedObj with links := [2] }, dataObj], q.id ≠ dataObj.id ∧ dataObj.id ∈ q.links) ∧
    (∀ q ∈ [placedObj, dataObj], q.id ≠ dataObj.id → dataObj.id ∉ q.links) := by decide +kernel

theorem test_hyps_CodeService_patch :
    let o : Obj := { placedObj with slots := [(1, 0)] }
    let e : List Word := [4#64, 1#64, 0#64, filler]
    let s := ring e (Memory.store [] 0x10000 (wordBytes filler)) [o, dataObj]
    ringReads s 4 = true ∧ (s.part 0).obj? 1 = some o ∧ o.slotAt 0 = some 0x10000 ∧ filler.toNat / 2 ^ 60 = Memory.le s.hbm 0x10000 8 / 2 ^ 60 ∧ o.deferred = false ∧
    (0xF000000000000000#64 : Word).toNat / 2 ^ 60 ≠ Memory.le s.hbm 0x10000 8 / 2 ^ 60 := by decide +kernel

theorem test_hyps_PowerController_switches :
    ({} : Power).auto = false ∧ 800 ≤ (2700#64 : Word).toNat % 4096 ∧ (2700#64 : Word).toNat % 4096 ≤ 2700 ∧ 2700 < (2701#64 : Word).toNat % 4096 ∧
    ({ stretch := true, stretchSince := 1 } : Power).stretchSince + 100000 ≤ 100001 ∧ ({ therm := true } : Power).therm = true ∧
    (8#64 : Word).getLsbD 3 = true ∧ ({ beat := 1 } : Power).beat + 2000000 ≤ 2000001 ∧ (600 ≤ (600#64 : Word).toNat % 1024 ∧ (950#64 : Word).toNat % 1024 ≤ 950) ∧
    (1#64 : Word).toNat % 1024 < 600 ∧ 950 < (951#64 : Word).toNat % 1024 ∧ ({ auto := true, update := false } : Power).auto = true := by decide

/-- Every rail at its highest code, a request for 2,700 MHz, every group past a contour. -/
def highRails : State :=
  { one core0 { placedGrp 1 .running with passed := [0] } with power := { pend := some 2700, rails := (List.range 8).map fun r => (r, some 1023) } }

theorem test_hyps_PowerController_change :
    highRails.power.pend = some 2700 ∧ highRails.power.therm = false ∧ (∀ g ∈ highRails.groups, highRails.groupPassed g = true) ∧
    (∀ r, r < 8 → vmin 2700 ≤ highRails.railMv r) ∧ (∃ g ∈ (one).groups, (one).groupPassed g = false) ∧ ms.silent = false ∧
    ({ ms with mgmt := [] } : State).silent = true := by
  refine ⟨rfl, rfl, by decide, fun r hr => ?_, by decide, rfl, by decide⟩
  have h : vmin 2700 ≤ 1023 := by unfold vmin fuseMv; omega
  have : highRails.railMv r = 1023 := by
    have := hr; revert this; revert r
    decide
  omega

theorem test_hyps_PowerController_rails :
    (let s : State := { one core0 { placedGrp 1 .running with images := [(0, core0)] } with power := { rails := [(0, some 900)], targets := [(0, some 800)], railRose := [(0, some 1)] }, wall := 500001 }
     s.power.auto = false ∧ sget none 0 s.power.moves = none ∧ s.power.target 0 < s.power.mv 0 ∧ s.mayFall 0 = true ∧ (one).mayFall 0 = false) ∧
    (let p : Power := { rails := [(7, some 900)], targets := [(7, some 800)], moves := [(7, some (1, false))] }
     let s : State := { one with power := p, wall := 25000 }
     sget none 7 p.moves = some (1, false) ∧ 1 ≤ s.wall ∧ s.wall < 1 + 250 * (p.mv 7 - p.target 7) ∧ s.railMv 7 ≠ p.target 7) ∧
    (let s : State := { one with power := { rails := [(7, some 900)], targets := [(7, some 900)], moves := [(7, some (1, true))] }, wall := 1 }
     s.railMv 7 = s.power.target 7) := by
  refine ⟨by decide, ⟨rfl, by decide, by decide, ?_⟩, by decide⟩
  have h (n : Nat) : railSteps 7 1 n ≤ n := by simpa [railSteps] using List.length_filter_le (fun i => Config.railMoves 7 1 i) (List.range n)
  have := h 99
  show 900 - min (900 - 800) (railSteps 7 1 99) ≠ 800
  omega

/-- A quiet cluster 23 with an empty partition. -/
def quiet (k : Cluster := { req := true }) : State := ({} : State).setCluster 23 k

theorem test_hyps_ClusterParking :
    (quiet).qack 23 = true ∧ ((quiet).cluster 23).busy = false ∧ ((quiet).cluster 23).rail = 0 ∧ (0x7FFFFFF000#64 : Word).toNat % 2 ^ 39 % 4096 = 0 ∧ (one).qack 0 = false ∧
    (1#64 : Word).getLsbD 1 = false ∧ ((quiet { req := true, busy := true, saving := true }).cluster 23).busy = true ∧ (quiet).copied (.hbm 0) 4096 = false ∧
    (quiet { req := true, saving := true, done := true }).qack 23 = true ∧ ((quiet { stat := true }).cluster 23).stat = true ∧ ((quiet { rail := 2 }).cluster 23).rail = 2 ∧ (0#64 : Word).getLsbD 0 = false ∧ (3#64 : Word).getLsbD 0 = true ∧ (3#64 : Word).getLsbD 1 = true ∧
    ((quiet { stat := true, rail := 3 }).cluster 23).rail = 3 ∧ ((quiet { stat := true, rail := 1 }).cluster 23).rail = 1 ∧ ((quiet { req := true, busy := true }).cluster 23).saving = false ∧
    (∃ p c, ClientId.client 0 = .client p ∧ c ∈ ((one).part p).cores ∧ c / 8 = 0) ∧ (∀ c ∈ ((one).part 0).cores, c / 8 ≠ 23) := by
  refine ⟨by decide +kernel, rfl, rfl, rfl, by decide +kernel, rfl, rfl, rfl, by decide +kernel, rfl, rfl, rfl, rfl, rfl, rfl, rfl, rfl, ⟨0, 0, rfl, by decide⟩, by decide⟩

theorem test_hyps_ClusterParking_image : (quiet { req := true, saves := [Memory.bytes [] 0x1000 4096] }).imageOk 23 0x1000 = true ∧ (quiet).imageOk 23 0 = false := by
  refine ⟨?_, rfl⟩
  have h : ((quiet { req := true, saves := [Memory.bytes [] 0x1000 4096] }).cluster 23).saves = [Memory.bytes [] 0x1000 4096] := rfl
  have m : (quiet { req := true, saves := [Memory.bytes [] 0x1000 4096] }).hbm = [] := rfl
  have b : (quiet { req := true, saves := [Memory.bytes [] 0x1000 4096] }).readBad (.hbm 0x1000) 4096 = false := by decide +kernel
  simp [State.imageOk, h, m, b]

theorem test_hyps_BootAndHealth :
    stage.stage = 1 ∧ ms.stageDue { stage with stage := 2 } = true ∧ ms.stageDue { stage with stage := 3 } = false ∧ ({ ms with balore := { ms.balore with running := [1, 2, 3] } } : State).stageDue { stage with stage := 4, updates := 1 } = true ∧ ms.stageDue { stage with stage := 4, updates := 1 } = false ∧
    (({} : Part).setReg 0x870 64#64).reg 0x870 ≠ 0#64 ∧ ((({} : Part).setReg 0x870 64#64).reg 0x878).getLsbD 0 = false ∧ (State.reset.part 0).reg 0x870 = 0#64 ∧
    ((({} : Part).setReg 0x878 1#64).reg 0x878).getLsbD 0 = true ∧ State.reset.copying = [] ∧ ({ retiring := true } : Core).retiring = true ∧ (2#64 : Word).getLsbD 0 = false ∧ (1#64 : Word).toNat % 64 ≠ 0 ∧ (0xFFFFFFFFFFC0#64 : Word).toNat < 2 ^ 48 ∧
    (0xFFFFFFFFFFC0#64 : Word).toNat % 64 = 0 ∧ ms.balore.stage1 = some stage ∧ (ms.mcore 0).halted = false ∧ (8#64 : Word).getLsbD 0 = false ∧ (State.reset.mcore 0).halted = true ∧ State.reset.delayed = [] ∧
    5 ∉ State.reset.copying ∧ 5 ∈ ({ State.reset with copying := [5] } : State).copying ∧ (State.reset.core 191).owner = 0 ∧
    State.reset.balore.health.toNat / 2 ^ (if 191 / 96 = 0 then 24 else 28) % 16 < 4 ∧ 4 ≤ (0x40000000#64 : Word).toNat / 2 ^ (if 191 / 96 = 0 then 24 else 28) % 16 ∧
    (State.reset.core 191).failed = false ∧ ({ failed := true } : Core).failed = true ∧ ((one).core 0).owner ≠ 0 ∧ (one).grpAt 0 = some (placedGrp 1 .running) := by decide

theorem test_hyps_BootAndHealth_channels :
    ((State.reset.remapped ++ State.reset.copying).filter fun d => Config.stackOf d == Config.stackOf 5).length < 2 ∧
    (let s : State := { State.reset with remapped := [5, 5] }
     2 ≤ ((s.remapped ++ s.copying).filter fun d => Config.stackOf d == Config.stackOf 5).length ∧ 5 ∉ s.copying) := by
  refine ⟨by decide, ?_, by decide⟩
  show 2 ≤ ([5, 5].filter fun d => Config.stackOf d == Config.stackOf 5).length
  simp

theorem test_hyps_RegistersPeersAndPartitions :
    noWrite 0x428 = true ∧ noWrite 0x611 = true ∧ plainMask 0x400 = some 0x7FFFFFF000#64 ∧ (15 : Nat) < 16 ∧ (7 : Nat) < 8 ∧ (2 : Nat) < 3 ∧
    (∃ g ∈ (one).groups, g.part = 0 ∧ g.images = []) ∧ (∀ g ∈ State.reset.groups, g.part = 0 → g.images ≠ []) ∧ (16#64 : Word).toNat % 32 ≤ 16 ∧ (8#64 : Word).toNat % 16 ≤ 8 ∧
    8 < (9#64 : Word).toNat % 16 ∧ 0x21000 ≤ 0x21008 ∧ 0x21008 ∉ [0x21000, 0x21010, 0x21018, 0x21020] ∧ State.reset.copying = [] ∧
    ({} : Power).auto = false ∧ 900 ≤ (1800#64 : Word).toNat % 2048 ∧ 1800 < (1801#64 : Word).toNat % 2048 ∧
    State.reset.balore.pcbase.getLsbD 0 = false ∧ (State.reset.part 0).armed = [] ∧
    (let s := win { regs [] with windowBase := 0x100000, windowSize := 64 }
     s.copied (.hbm 0x100038) 8 = false ∧ 56 + 8 ≤ (s.part 0).windowSize ∧ s.readBad (.hbm 0x100038) 8 = false ∧ (s.part 0).windowSize < 57 + 8 ∧
     s.places 0 0x100000 64 true = some [(.hbm 0x100000, 64)] ∧ s.places 0 0x100000 64 false = some [(.hbm 0x100000, 64)] ∧ s.places 0 0x40000000 64 true = none ∧
     s.places 0 0x40000000 64 false = none ∧ s.copied (.hbm 0x100000) 64 = false ∧ s.readBad (.hbm 0x100000) 64 = false ∧ s.attestOnly = false) ∧
    (∀ n, n < 192 → (State.reset.core n).owner = 0) ∧ (7 ∉ State.reset.lostNodes ∧ (State.reset.part 0).cores = []) ∧
    ((one).core 0).owner ≠ 0 ∧ (∀ m, m < 192 → m ≠ 0 → ((one).core m).owner = 0) ∧
    (let o : AOp := { begun (.ld 15#4 1#5 2#5 0#24 3#2 0#1 0#2 0#3) with phase := .walking, addr := 0x2000000000000000#64 }
     spaceOf o.addr = 2 ∧ peerNode o.addr = 0 ∧ o.buf = none ∧ (accOf o.instr).isSome = true ∧ accOf (.pref 15#4 2#5 0#24) = none) ∧
    (win (regs [])).configOk 0 { cores := [0, 1, 2, 191], peers := [], windowBase := 0, windowSize := 0 } = true ∧
    (win (regs [])).configOk 48 { cores := [0, 1, 2, 191], peers := [], windowBase := 0, windowSize := 0 } = false := by
  refine ⟨by decide, by decide, by decide, by decide, by decide, by decide, by decide, by decide, by decide, by decide, by decide, by decide, by decide, rfl, rfl, by decide, by decide, rfl, rfl, by decide +kernel, fun n _ => rfl, by decide, by decide, by decide +kernel, ⟨by decide, by decide, rfl, rfl, rfl⟩, by decide +kernel, by decide⟩

theorem test_hyps_RegistersPeersAndPartitions_refused :
    ({ State.reset with balore := { ({} : Balore) with health := 0x0001000000000000#64 } } : State).attestOnly = true ∧ (0x838#64 : Word).toNat < 0x840 ∧
    0x880 ≤ (0x880#64 : Word).toNat ∧ (List.replicate 8 0#8 : Bytes) ≠ [] := by decide

theorem test_hyps_StopEntry :
    (one).grpAt 0 = some (placedGrp 1 .running) ∧ (placedGrp 1 .running).cores.Nodup ∧ 0 ∈ (placedGrp 1 .running).cores ∧
    (let k : Cause := { cause := 255, code := 65535, engine := 255, iseq := 2 ^ 24 - 1 }
     0 < k.cause ∧ k.cause < 256 ∧ k.code < 65536 ∧ k.engine < 256 ∧ k.iseq < 2 ^ 24) ∧ (∀ m ∈ (placedGrp 1 .running).cores, ((one).core m).saved = none) ∧
    (∀ m ∈ (placedGrp 1 .running).cores, ∀ c ∈ ((one).core m).cmds, c.watched = none) ∧ (one).order.veils = [] ∧
    (let c : Core := { core0 with a := { took := true, taken := some ({ doneCmd with instr := .copy 15#4 2#5 1#5 3#5 0#5 0#1 0#1 2#2 3#4 }, []) } }
     c.a.took = true ∧ c.a.taken.bind (·.1.pops) = some 3 ∧ core0.a.took = false) := by decide

theorem test_hyps_HandlerEntryAndReturn :
    (let s := one { core0 with cause := 1 } (placedGrp 1 .stopped)
     s.grp? 1 = some (placedGrp 1 .stopped) ∧ (placedGrp 1 .stopped).cores.Nodup ∧ (∀ n ∈ (placedGrp 1 .stopped).cores, (s.core n).cause ≠ 0x83) ∧
     ((one { core0 with cause := 0x83 }).core 0).cause = 0x83) ∧ ({ core0 with saved := some {} } : Core).saved = some {} ∧
    (one core0 (placedGrp 1 .resuming)).grp? 1 = some (placedGrp 1 .resuming) ∧ (∀ n ∈ (placedGrp 1 .resuming).cores, ((one).core n).inserted = []) ∧
    (∀ n ∈ (placedGrp 1 .resuming).cores, ((one).core n).x.k.exited = false ∨ ((one).core n).a.k.exited = false) := by decide

/-- The X-stream of core 0 at address 0, which lies in no text section. -/
theorem test_hyps_NothingIsRefused :
    step { one with turns := [{ adv := 0, act := .chart 1 }] } = .fault (.fetchOutside 0#64) := rfl

theorem test_hyps_MemoryStaysCanonical :
    Memory.wf State.reset.hbm = true ∧ Memory.wf State.reset.peer = true ∧ ∃ t, step State.reset = .next t := ⟨rfl, rfl, ⟨_, rfl⟩⟩

/-! ### Results from the manual -/

/-- What an access-core syllable writes to an x register at its bundle's end, x1 and x2 given. -/
def xAfter (i : Instr) (d : Nat) (a b : Word) : Option Word :=
  match exec i (as { core0 with a := { x := [(1, a), (2, b)] } }) with
  | .next t => t.ctx.writes.findSome? fun w => match w with | .x r v _ => if r = d then some v else none | _ => none
  | _ => none

/-- R157: modulo 2^64. -/
theorem test_add_wraps : xAfter (.add 15#4 2#5 1#5 2#5) 2 0xFFFFFFFFFFFFFFFF#64 2#64 = some 1#64 := by decide
theorem test_shl_ignores_high_bits : xAfter (.shl 15#4 3#5 1#5 2#5) 3 3#64 0x41#64 = some 6#64 := by decide
theorem test_sar_copies_sign : xAfter (.sar 15#4 3#5 1#5 2#5) 3 0x8000000000000000#64 63#64 = some 0xFFFFFFFFFFFFFFFF#64 := by decide
theorem test_clz_of_zero : xAfter (.clz 15#4 3#5 1#5) 3 0#64 0#64 = some 64#64 := by decide +kernel
/-- R158: the corner operands. -/
theorem test_div_most_negative : xAfter (.div 15#4 3#5 1#5 2#5) 3 0x8000000000000000#64 0xFFFFFFFFFFFFFFFF#64 = some 0x8000000000000000#64 := by decide +kernel
theorem test_rem_sign_of_dividend : xAfter (.rem 15#4 3#5 1#5 2#5) 3 0xFFFFFFFFFFFFFFF9#64 2#64 = some 0xFFFFFFFFFFFFFFFF#64 := by decide +kernel
theorem test_remn_by_zero : xAfter (.remn 15#4 3#5 1#5 2#5) 3 7#64 0#64 = some 7#64 := by decide +kernel
/-- R161: `li w1, 0x89AB_CDEF` then `lih w1, 0x0123_4567`. -/
theorem test_lih_keeps_low : xAfter (.lih 15#4 1#5 0x01234567#32) 1 0xFFFFFFFF89ABCDEF#64 0#64 = some 0x0123456789ABCDEF#64 := by decide

/-- The published double of the base point of P-384. -/
theorem test_p384_doubling :
    Point.mul p384Base 2 2 = some (0x08D999057BA3D2D969260045C55B97F089025959A6F434D651D207D19FB96E9E4FE0E86EBE0E64F85B96A9C75295DF61,
      0x8E80F1FA5B1B3CEDB7BFE8DFFD6DBA74B275D875BC6CC43E904E505F256AB4255FFD43E94D39E22D61501E700A940E80) := by decide +kernel

/-- The core of die 1, x 7, y 5 (00_scope.md). -/
theorem test_core_number : coreAt 1 7 5 = 171 ∧ coreDie 171 = 1 ∧ coreX 171 = 7 ∧ coreY 171 = 5 ∧ coreCluster 171 = 21 := by decide
/-- The two-die group of chapter 5: origin core 22, 3 × 2 × 2; core 168 stands 7 hops away. -/
theorem test_gpos :
    gposWord { placedGrp 1 .running with part := 5, x0 := 4, y0 := 3, d0 := 0, w := 3, hgt := 2, dies := 2 } 168 = BitVec.ofNat 64 (5 * 2 ^ 40 + 7 * 2 ^ 32 + 22 * 2 ^ 24 + 1 * 2 ^ 20 + 2 * 2 ^ 16 + 2 * 2 ^ 12 + 3 * 2 ^ 8 + 2 ^ 7 + 2 ^ 4 + 2) := by decide

/-- FP32 500.0 to F8E4 is 0x7F in either mode, 2^-11 rounds to 0 or up to 1 (04_numbers.md). -/
theorem test_f8e4_ends :
    f8e4.encSat 0 (decF32 0x43FA0000#32) = 0x7F ∧ f8e4.encSat 3 (decF32 0x43FA0000#32) = 0x7F ∧ f8e4.encSat 0 (decF32 0x3A000000#32) = 0 ∧
    f8e4.encSat 3 (decF32 0x3A000000#32) = 1 := by decide +kernel
/-- The BX4 block of 6.0, -0.75, 0.3, 0.04, 1.0 and zeros under RNE (04_numbers.md). -/
theorem test_bx4_block :
    bxQuant 0 6 (([0x40C00000, 0xBF400000, 0x3E99999A, 0x3D23D70A, 0x3F800000] ++ List.replicate 27 0).map fun c : Nat => decF32 (BitVec.ofNat 32 c)) =
      [0x81#8, 0x7F#8, 0xE3#8, 0x89#8, 0x8A#8] ++ List.replicate 13 0x88#8 := by decide +kernel
/-- GELU at the edges (09_vector_instructions.md): below lo, at hi, above hi, -infinity and a NaN. -/
theorem test_gelu_edges :
    ([0xC1100000, 0x80000000, 0x41000000, 0x41100000, 0x7F800000, 0xFF800000, 0x7FC00001].map fun c : Nat => evalTable (tableOf 0 []) (decF32 (BitVec.ofNat 32 c))) =
      [0, 0, 0x41000000, 0x41100000, 0x7F800000, 0, 0x7FC00000] := by decide +kernel

end Sys2Proof.Tests
end

/-! PROOFS. What a step answers (O59), the state after reset (O8), and a turn that is a machine event (O4). -/

namespace Sys2Proof.Machine

/-- Every instruction and every event of the table answers a next state. -/
theorem exec_next (i : Instr) (s : State) : ∃ t, exec i s = .next t := by
  cases i <;> exact ⟨_, rfl⟩

/-- A result that refuses nothing, and is a fault only where a fetch lies outside every text section. -/
def Result.Answers : Result → Prop
  | .next _ => True
  | .fault f => ∃ a, f = .fetchOutside a
  | .refused _ => False

@[simp] theorem Result.answers_next (t : State) : Result.Answers (.next t) := trivial

@[simp] theorem Result.answers_fetchOutside (a : Word) : Result.Answers (.fault (.fetchOutside a)) := ⟨a, rfl⟩

theorem exec_answers (i : Instr) (s : State) : Result.Answers (exec i s) := by
  obtain ⟨t, ht⟩ := exec_next i s
  simp [ht]

/-- The end of a tick is a next state or the fetch outside that the tick lost. -/
theorem Tick.done_answers (ex : Instr → State → Result) (pre : State) (g : Grp) (key : Nat) (t : Tick) : Result.Answers (t.done ex pre g key) := by
  unfold Tick.done
  (repeat' split) <;> simp

theorem State.chartTurn_answers (ex : Instr → State → Result) (s : State) (num : Nat) : Result.Answers (s.chartTurn ex num) := by
  unfold State.chartTurn
  split
  · simp
  · split
    · simp
    · split
      · exact Tick.done_answers ..
      · exact Tick.done_answers ..

theorem State.accessTurn_answers (ex : Instr → State → Result) (s : State) (n : Nat) : Result.Answers (s.accessTurn ex n) := by
  unfold State.accessTurn
  split
  · simp
  · simp only
    (repeat' split) <;> simp

theorem State.mgmtTurn_answers (ex : Instr → State → Result) (s : State) (n : Nat) : Result.Answers (s.mgmtTurn ex n) := by
  unfold State.mgmtTurn
  (repeat' split) <;> simp

/-- A turn that is an event. -/
theorem State.act_event (ex : Instr → State → Result) (s : State) (i : Instr) :
    s.act ex (.event i) = if (encode i).isSome || inTick i || (s.power.therm && onReference i) then .next s else ex i s := rfl

/-- A turn answers as its event does, and faults only at a fetch outside. -/
theorem State.act_answers (s : State) (a : Act) : Result.Answers (s.act exec a) := by
  cases a with
  | chart num => exact s.chartTurn_answers exec num
  | astream n => exact s.accessTurn_answers exec n
  | mgmt n => exact s.mgmtTurn_answers exec n
  | event i =>
    rw [State.act_event]
    split
    · simp
    · exact exec_answers i s
  | _ => exact trivial

theorem step_answers (s : State) : Result.Answers (step s) := by
  unfold step
  split
  · simp
  · exact State.act_answers _ _

/-- Settles O59: every arm of `exec` answers a next state, and a step faults only where a bundle is lost. -/
theorem nothingIsRefused : Obligations.NothingIsRefused := by
  unfold Obligations.NothingIsRefused
  refine ⟨exec_next, fun s r hr => ?_, fun s f hf => ?_⟩
  · have h := step_answers s
    rw [hr] at h
    exact h
  · have h := step_answers s
    rw [hf] at h
    exact h

/-! ### Reset -/

/-- Settles O8. -/
theorem resetValues : Obligations.ResetValues := by
  unfold Obligations.ResetValues
  have hdiv : ∀ k < 4, ({} : Core).divisor k = 2 := by decide
  have hceil : ∀ q < 16, ({} : Part).ceil q = 7 := by decide
  refine ⟨fun _ k hk => hdiv k hk, rfl, rfl, fun _ q hq => hceil q hq, rfl, fun _ => rfl, fun _ => rfl, rfl, rfl, fun _ => ⟨rfl, rfl⟩, rfl, rfl, fun _ => rfl⟩

/-! ### A turn that is a machine event -/

/-- With no turn left the state stays. -/
theorem step_of_no_turns {s : State} (h : s.turns = []) : step s = .next s := by
  simp [step, h]

/-- A step acts on the state without its turn, after the turn's time has passed. -/
theorem step_of_turn {s : State} {t : Turn} {rest : List Turn} (h : s.turns = t :: rest) : step s = (s.turned t.adv rest).act exec t.act := by
  simp [step, h, State.turned]

theorem State.turned_wall (s : State) (adv : Nat) (rest : List Turn) : (s.turned adv rest).wall = s.wall + adv := rfl

theorem State.turned_cores (s : State) (adv : Nat) (rest : List Turn) : (s.turned adv rest).cores = s.cores := rfl

/-- The thermal trip stops the reference clock (R380). -/
theorem State.turned_ref_of_therm {s : State} (h : s.power.therm = true) (adv : Nat) (rest : List Turn) :
    (s.turned adv rest).power.ref = s.power.ref := by
  simp [State.turned, State.elapse, h]

/-- An unstretched reference clock counts at its frequency (R378). -/
theorem State.turned_ref {s : State} (ht : s.power.therm = false) (hs : s.power.stretch = false) (adv : Nat) (rest : List Turn) :
    (s.turned adv rest).power.ref = s.power.ref + adv * s.power.refcur := by
  simp [State.turned, State.elapse, ht, hs]

theorem State.act_event_runs {s : State} {i : Instr} (he : encode i = none) (ht : inTick i = false) (hr : s.power.therm = true → onReference i = false) :
    s.act exec (.event i) = exec i s := by
  have hheld : (s.power.therm && onReference i) = false := by
    cases h : s.power.therm with
    | false => rfl
    | true => simp [hr h]
  simp [State.act_event, he, ht, hheld]

theorem State.act_event_inTick {s : State} {i : Instr} (h : inTick i = true) : s.act exec (.event i) = .next s := by
  simp [State.act_event, h]

theorem State.act_event_held {s : State} {i : Instr} (ht : s.power.therm = true) (hr : onReference i = true) : s.act exec (.event i) = .next s := by
  simp [State.act_event, ht, hr]

/-- Settles O4. -/
theorem stepRunsEvent : Obligations.StepRunsEvent := by
  unfold Obligations.StepRunsEvent
  refine ⟨fun s adv i rest hturns hnone => ?_, fun s adv rest => ?_, fun s => step_of_no_turns⟩
  · rw [step_of_turn hturns]
    exact ⟨State.act_event_runs hnone, State.act_event_inTick, State.act_event_held⟩
  · exact ⟨s.turned_wall adv rest, s.turned_cores adv rest, fun h => State.turned_ref_of_therm h adv rest, fun ht hs => State.turned_ref ht hs adv rest⟩

end Sys2Proof.Machine

/-! SUPPORT. The memories of the device stay in canonical form: one lemma per operation of the model, in the model's order. An operation that leaves both
memories alone has an `↔`, `State.canonical_<name>`; one that stores bytes has an implication, `State.Canonical.<name>`, so that what a longer operation
keeps is read off its parts. -/

namespace Sys2Proof.Machine

/-! ### Canonical memories -/

/-- Both memories of the device are in canonical form: rising addresses, and no byte equal to what an unlisted address reads as. -/
def State.Canonical (s : State) : Prop := Memory.wf s.hbm = true ∧ Memory.wf s.peer = true

/-- Only the two memories of a state matter. -/
@[simp] theorem State.canonical_mk (cores groups parts hbm peer order lost bad copying remapped dead delayed power meters clusters balore mgmt wall fixId fixes nextCtx
    qseq qAlive qStamp stamp reply free ctx turns) :
    State.Canonical ⟨cores, groups, parts, hbm, peer, order, lost, bad, copying, remapped, dead, delayed, power, meters, clusters, balore, mgmt, wall, fixId, fixes,
      nextCtx, qseq, qAlive, qStamp, stamp, reply, free, ctx, turns⟩ ↔ Memory.wf hbm = true ∧ Memory.wf peer = true := Iff.rfl

/-- A state with other fields changed reads back as the state itself. -/
@[simp] theorem State.canonical_eta (s : State) : (Memory.wf s.hbm = true ∧ Memory.wf s.peer = true) ↔ s.Canonical := Iff.rfl

@[simp] theorem State.Canonical.hbm {s : State} (h : s.Canonical) : Memory.wf s.hbm = true := h.1

@[simp] theorem State.Canonical.peer {s : State} (h : s.Canonical) : Memory.wf s.peer = true := h.2

/-- Storing bytes in HBM. -/
theorem State.Canonical.storeAt {s : State} (h : s.Canonical) (a d) : ({ s with hbm := Memory.store s.hbm a d } : State).Canonical :=
  ⟨Memory.store_wf _ a d h.hbm, h.peer⟩

theorem State.Canonical.ite {p : Prop} [Decidable p] {a b : State} (ha : a.Canonical) (hb : b.Canonical) : (if p then a else b).Canonical := by
  split
  · exact ha
  · exact hb

/-- A fold whose every step leaves the memories alone. -/
@[simp] theorem State.canonical_foldl {α : Type} {s : State} {f : State → α → State} (hf : ∀ s x, (f s x).Canonical ↔ s.Canonical) (l : List α) :
    (l.foldl f s).Canonical ↔ s.Canonical := by
  induction l generalizing s with
  | nil => exact Iff.rfl
  | cons x t ih => exact ih.trans (hf s x)

/-- A fold whose every step keeps the canonical form. -/
theorem State.Canonical.foldl {α : Type} {s : State} (h : s.Canonical) {f : State → α → State} (hf : ∀ s x, s.Canonical → (f s x).Canonical) (l : List α) :
    (l.foldl f s).Canonical := by
  induction l generalizing s with
  | nil => exact h
  | cons x t ih => exact ih (hf s x h)

/-! ### Results -/

/-- If a result is a next state, that state's memories are canonical. -/
def Result.Canonical : Result → Prop
  | .next t => t.Canonical
  | _ => True

@[simp] theorem Result.canonical_next (t : State) : Result.Canonical (.next t) ↔ t.Canonical := Iff.rfl

theorem Result.Canonical.next {t : State} (h : t.Canonical) : Result.Canonical (.next t) := h

theorem Result.Canonical.of_eq {r : Result} (h : Result.Canonical r) {t : State} (e : r = .next t) : t.Canonical := by
  rw [e] at h
  exact h

theorem Result.Canonical.ite {p : Prop} [Decidable p] {a b : Result} (ha : Result.Canonical a) (hb : Result.Canonical b) :
    Result.Canonical (if p then a else b) := by
  split
  · exact ha
  · exact hb

/-! ### Operations of Machine/Operands.lean -/

@[simp] theorem State.canonical_setCore (s : State) (c v) : (s.setCore c v).Canonical ↔ s.Canonical := Iff.rfl

@[simp] theorem State.canonical_modCore (s : State) (c f) : (s.modCore c f).Canonical ↔ s.Canonical := Iff.rfl

@[simp] theorem State.canonical_mapCores (s : State) (f) : (s.mapCores f).Canonical ↔ s.Canonical := by
  simp [State.mapCores]

@[simp] theorem State.canonical_setPart (s : State) (p v) : (s.setPart p v).Canonical ↔ s.Canonical := Iff.rfl

@[simp] theorem State.canonical_modPart (s : State) (p f) : (s.modPart p f).Canonical ↔ s.Canonical := Iff.rfl

@[simp] theorem State.canonical_setCluster (s : State) (k v) : (s.setCluster k v).Canonical ↔ s.Canonical := Iff.rfl

@[simp] theorem State.canonical_setMcore (s : State) (n v) : (s.setMcore n v).Canonical ↔ s.Canonical := Iff.rfl

@[simp] theorem State.canonical_setGrp (s : State) (g) : (s.setGrp g).Canonical ↔ s.Canonical := Iff.rfl

@[simp] theorem State.canonical_modGrp (s : State) (num f) : (s.modGrp num f).Canonical ↔ s.Canonical := Iff.rfl

@[simp] theorem State.canonical_modMe (s : State) (f) : (s.modMe f).Canonical ↔ s.Canonical := Iff.rfl

@[simp] theorem State.canonical_waiting (s : State) (why) : (s.waiting why).Canonical ↔ s.Canonical := Iff.rfl

@[simp] theorem State.canonical_leave (s : State) (c) : (s.leave c).Canonical ↔ s.Canonical := Iff.rfl

@[simp] theorem State.canonical_defer (s : State) (w) : (s.defer w).Canonical ↔ s.Canonical := Iff.rfl

@[simp] theorem State.canonical_fly (s : State) (o) : (s.fly o).Canonical ↔ s.Canonical := Iff.rfl

@[simp] theorem State.Canonical.putReg {s : State} (h : s.Canonical) (lat r v) : (s.putReg lat r v).Canonical := by
  unfold State.putReg
  (repeat' split) <;> simp [h]

@[simp] theorem State.canonical_putPair (s : State) (cd v) : (s.putPair cd v).Canonical ↔ s.Canonical := by
  unfold State.putPair
  split <;> simp

/-! ### Operations of Machine/Ops.lean -/

@[simp] theorem State.Canonical.writeRaw {s : State} (h : s.Canonical) (me p d) : (s.writeRaw me p d).Canonical := by
  unfold State.writeRaw
  split
  case h_1 a => exact h.storeAt a d
  case h_4 node off => exact ⟨h.hbm, Memory.store_wf _ _ d h.peer⟩
  all_goals exact h

@[simp] theorem State.canonical_writeGood (s : State) (p n) : (s.writeGood p n).Canonical ↔ s.Canonical := by
  unfold State.writeGood
  split <;> simp

@[simp] theorem State.Canonical.storeHbm {s : State} (h : s.Canonical) (a d) : (s.storeHbm a d).Canonical := by
  unfold State.storeHbm
  split
  · exact h
  · exact (State.canonical_writeGood _ _ _).mpr (h.storeAt a d)

theorem State.Canonical.storeDelayed {s : State} (h : s.Canonical) (l) : (s.storeDelayed l).Canonical :=
  h.foldl (fun _ w h => h.storeHbm w.1 w.2) l

@[simp] theorem State.Canonical.trace {s : State} (h : s.Canonical) (pn src kind a b) : (s.trace pn src kind a b).Canonical := by
  unfold State.trace
  dsimp only
  (repeat' split) <;> simp [h]

@[simp] theorem State.canonical_withClock (s : State) (n f) : (s.withClock n f).Canonical ↔ s.Canonical := by
  unfold State.withClock
  dsimp only
  (repeat' split) <;> simp

@[simp] theorem State.canonical_chargeKind (s : State) (pn kind d) : (s.chargeKind pn kind d).Canonical ↔ s.Canonical := Iff.rfl

@[simp] theorem State.canonical_charge (s : State) (pn p d) : (s.charge pn p d).Canonical ↔ s.Canonical := by
  unfold State.charge
  split <;> simp

@[simp] theorem State.canonical_reveal (s : State) (ms sel learn) : (s.reveal ms sel learn).Canonical ↔ s.Canonical := by
  unfold State.reveal
  split <;> simp

@[simp] theorem State.canonical_acquire (s : State) (m scp rs) : (s.acquire m scp rs).Canonical ↔ s.Canonical := by
  simp [State.acquire]

@[simp] theorem State.canonical_reads (s : State) (m space p n acq) : (s.reads m space p n acq).Canonical ↔ s.Canonical := by
  unfold State.reads
  dsimp only
  (repeat' split) <;> simp

@[simp] theorem State.Canonical.writePlace {s : State} (h : s.Canonical) (me p d t) : (s.writePlace me p d t).Canonical := by
  simp [State.writePlace, h]

@[simp] theorem State.canonical_showScope (s : State) (n scp) : (s.showScope n scp).Canonical ↔ s.Canonical := by
  simp [State.showScope]

@[simp] theorem State.canonical_readsOutside (s : State) (p n) : (s.readsOutside p n).Canonical ↔ s.Canonical := by
  simp [State.readsOutside]

@[simp] theorem State.Canonical.writeOutside {s : State} (h : s.Canonical) (p d more) : (s.writeOutside p d more).Canonical := by
  simp [State.writeOutside, h]

@[simp] theorem State.Canonical.settleOne {s : State} (h : s.Canonical) (n o) : (s.settleOne n o).Canonical := by
  unfold State.settleOne
  (repeat' split) <;> simp [h]

@[simp] theorem State.Canonical.settle {s : State} (h : s.Canonical) (n) : (s.settle n).Canonical := by
  unfold State.settle
  dsimp only
  split
  · exact h
  · exact h.foldl (fun _ o h => h.settleOne n o) _

@[simp] theorem State.Canonical.eased (s : State) {t : State} (h : t.Canonical) (n) : (s.eased t n).Canonical := by
  unfold State.eased
  split <;> simp [h]

@[simp] theorem State.canonical_freeze (s : State) (g n) : (s.freeze g n).Canonical ↔ s.Canonical := Iff.rfl

@[simp] theorem State.Canonical.slipEnds {s : State} (h : s.Canonical) (g) : (s.slipEnds g).Canonical := by
  unfold State.slipEnds
  split <;> simp [h]

/-- Taking a stop stores trace records, and what the group's accesses have performed early. -/
@[simp] theorem State.Canonical.stop {s : State} (h : s.Canonical) (n k) : (s.stop n k).Canonical := by
  unfold State.stop
  split
  · exact h
  next g _ =>
    have hs : (g.cores.foldl State.settle s).Canonical := h.foldl (fun _ m h => h.settle m) _
    dsimp only
    split
    · refine (State.canonical_setGrp _ _).mpr (State.Canonical.foldl ?_ (fun _ m h => h.trace ..) _)
      simp [hs]
    · (repeat' split) <;> simp [hs]

@[simp] theorem State.Canonical.raise {s : State} (h : s.Canonical) (k) : (s.raise k).Canonical := by
  unfold State.raise
  split <;> simp [h]

/-- A syllable that passes its gate, waits or raises. -/
@[simp] theorem State.Canonical.gate {s : State} (h : s.Canonical) (c) {body : State → State} (hb : s.Canonical → (body s).Canonical) : (s.gate c body).Canonical := by
  cases c with
  | ok => exact hb h
  | waits w => exact h
  | fault k => exact h.raise k

/-! ### Operations of Machine/Control.lean -/

@[simp] theorem State.canonical_latch (s : State) (scope id n) : (s.latch scope id n).Canonical ↔ s.Canonical := Iff.rfl

@[simp] theorem State.Canonical.fixRecords {s : State} (h : s.Canonical) (scope id p) : (s.fixRecords scope id p).Canonical :=
  (h.foldl (fun _ _ h => ((h.trace _ _ _ _ _).trace _ _ _ _ _).trace _ _ _ _ _) _).trace _ _ _ _ _

@[simp] theorem State.Canonical.raiseFix {s : State} (h : s.Canonical) (scope) : (s.raiseFix scope).Canonical := by
  unfold State.raiseFix
  dsimp only
  split
  · exact h
  · split
    · exact State.Canonical.fixRecords (by simp [h]) _ _ _
    · exact State.Canonical.foldl (by simp [h]) (fun _ p h => h.fixRecords _ _ p) _

@[simp] theorem State.canonical_putB (s : State) (bd v) : (s.putB bd v).Canonical ↔ s.Canonical := by
  unfold State.putB
  split <;> simp

@[simp] theorem State.canonical_needWindow (s : State) (lines fill) : (s.needWindow lines fill).Canonical ↔ s.Canonical := Iff.rfl

@[simp] theorem State.canonical_startLoop (s : State) (lv stop n rot) : (s.startLoop lv stop n rot).Canonical ↔ s.Canonical := by
  unfold State.startLoop
  split <;> simp

@[simp] theorem State.canonical_startRot (s : State) (lv stop stg vb sm n) : (s.startRot lv stop stg vb sm n).Canonical ↔ s.Canonical := by
  unfold State.startRot
  split <;> simp

@[simp] theorem State.Canonical.contourAt {s : State} (h : s.Canonical) (n t id) : (s.contourAt n t id).Canonical := by
  unfold State.contourAt
  dsimp only
  (repeat' split) <;> simp [h]

/-! ### Operations of Machine/Translate.lean -/

@[simp] theorem State.Canonical.mapImage {s : State} (h : s.Canonical) (pn o on) : (s.mapImage pn o on).Canonical :=
  h.foldl (fun _ _ h => by split <;> simp [h]) _

@[simp] theorem State.canonical_keepLeaf (s : State) (c h) : (s.keepLeaf c h).Canonical ↔ s.Canonical := by
  unfold State.keepLeaf
  split <;> simp

@[simp] theorem State.Canonical.countPage {s : State} (h : s.Canonical) (pn p rd wr remote) : (s.countPage pn p rd wr remote).Canonical := by
  have hb {m : Memory} (k a n : Nat) (hm : Memory.wf m = true) : Memory.wf (if k = 0 then m else Memory.bump m a n) = true := by
    split
    · exact hm
    · exact Memory.store_wf m a _ hm
  unfold State.countPage
  split
  · refine (apply_ite State.Canonical _ _ _).mpr ?_
    split
    · exact ⟨Memory.write_wf _ _ _ (hb _ _ _ (hb _ _ _ (hb _ _ _ h.hbm))), h.peer⟩
    · exact h
  · exact h

@[simp] theorem State.Canonical.countPages {s : State} (h : s.Canonical) (pn p n rd wr remote) : (s.countPages pn p n rd wr remote).Canonical := by
  unfold State.countPages
  split
  · exact h.foldl (fun _ _ h => h.countPage _ _ _ _ _) _
  · exact h

/-! ### Operations of Machine/Debug.lean -/

@[simp] theorem State.Canonical.report {s : State} (h : s.Canonical) (pn r) : (s.report pn r).Canonical := by
  unfold State.report
  dsimp only
  split <;> simp [h]

@[simp] theorem State.canonical_writeWpctl (s : State) (pn n v) : (s.writeWpctl pn n v).Canonical ↔ s.Canonical := by
  unfold State.writeWpctl
  dsimp only
  (repeat' split) <;> simp

@[simp] theorem State.Canonical.loopExit {s : State} (h : s.Canonical) (core astream lv stop) : (s.loopExit core astream lv stop).Canonical := by
  unfold State.loopExit
  dsimp only
  (repeat' split) <;> simp [h]

/-! ### Operations of Machine/Survey.lean -/

@[simp] theorem State.canonical_deliverHandlers (s : State) (g entry) : (s.deliverHandlers g entry).Canonical ↔ s.Canonical := by
  refine (State.canonical_foldl (fun s n => ?_) _)
  split <;> simp

@[simp] theorem State.canonical_deliverSupervisor (s : State) (g next) : (s.deliverSupervisor g next).Canonical ↔ s.Canonical := by
  simp [State.deliverSupervisor]

/-! ### Operations of Machine/Access.lean -/

@[simp] theorem State.canonical_raceRead (s : State) (p q a d off) : (s.raceRead p q a d off).Canonical ↔ s.Canonical := by
  unfold State.raceRead
  split <;> simp

@[simp] theorem State.canonical_raceWrite (s : State) (p o a d off) : (s.raceWrite p o a d off).Canonical ↔ s.Canonical := Iff.rfl

@[simp] theorem State.canonical_noRelease (s : State) (p) : (s.noRelease p).Canonical ↔ s.Canonical := by
  unfold State.noRelease
  dsimp only
  split <;> simp

@[simp] theorem State.canonical_raceCommand (s : State) (p d off n) : (s.raceCommand p d off n).Canonical ↔ s.Canonical := Iff.rfl

@[simp] theorem State.Canonical.failA {s : State} (h : s.Canonical) (n o k) : (s.failA n o k).Canonical := by
  simp [State.failA, h]

@[simp] theorem State.Canonical.arrived {s : State} (h : s.Canonical) (pn node off kinds place n silent count) : (s.arrived pn node off kinds place n silent count).Canonical := by
  unfold State.arrived
  dsimp only
  (repeat' split) <;> simp [h]

@[simp] theorem State.Canonical.looped {s : State} (h : s.Canonical) (m pn kinds p q n count) : (s.looped m pn kinds p q n count).Canonical := by
  unfold State.looped
  (repeat' split) <;> simp [h]

theorem State.Canonical.way {s : State} (h : s.Canonical) {owner p n} {t : State} (e : s.way owner p n = .waits t) : t.Canonical := by
  unfold State.way at e
  dsimp only at e
  (repeat' split at e) <;> cases e <;> simp [h]

@[simp] theorem State.canonical_touchPlace (s : State) (p) : (s.touchPlace p).Canonical ↔ s.Canonical := by
  unfold State.touchPlace
  split <;> simp

@[simp] theorem State.canonical_toPeer (s : State) (n p) : (s.toPeer n p).Canonical ↔ s.Canonical := by
  unfold State.toPeer
  split <;> simp

/-- An access stores its bytes through `writePlace`; the race checker, the order of writes and the meters hold no memory. -/
@[simp] theorem State.Canonical.accessEffect {s : State} (h : s.Canonical) (n pn o a lock after) : (s.accessEffect n pn o a lock after).Canonical := by
  unfold State.accessEffect
  extract_lets pl raceR raceW released put got arrive s1 d read s2
  clear_value pl
  have hraceR (s : State) : (raceR s).Canonical ↔ s.Canonical := by dsimp only [raceR]; split <;> simp
  have hraceW (s : State) : (raceW s).Canonical ↔ s.Canonical := by dsimp only [raceW]; split <;> simp
  have hreleased (s : State) : (released s).Canonical ↔ s.Canonical := by dsimp only [released]; split <;> simp
  have hgot (s : State) (v : Word) : (got s v).Canonical ↔ s.Canonical := State.canonical_modCore _ _ _
  have hread (s : State) : (read s).Canonical ↔ s.Canonical := by dsimp only [read]; split <;> simp
  have hput (s : State) (d : Bytes) (h : s.Canonical) : (put s d).Canonical := by simp [put, hreleased, hraceW, h]
  have harrive (s : State) (h : s.Canonical) : (arrive s).Canonical := h.looped ..
  have hs1 : s1.Canonical := by dsimp only [s1]; split <;> simp [h]
  have hs2 : s2.Canonical := by simp [s2, hs1]
  have hs3 : (raceR (read s2)).Canonical := by simp [hraceR, hread, hs2]
  split
  case h_7 =>
    dsimp only
    split
    · exact harrive _ ((hgot _ _).mpr hs3)
    · exact hs2
  case h_8 =>
    refine harrive _ ((hgot _ _).mpr ?_)
    split
    · exact hput _ _ hs3
    · split
      · exact (State.canonical_noRelease ..).mpr hs3
      · exact hs3
  all_goals simp [harrive, hgot, hput, hs2, hs3]

theorem State.Canonical.performChk {s : State} (h : s.Canonical) {n pn o a} {t : State} (e : s.performChk n pn o a = .waits t) : t.Canonical := by
  unfold State.performChk at e
  dsimp only at e
  split at e
  case h_1 hw => cases e; exact h.way hw
  case h_2 => cases e
  case h_3 => (repeat' split at e) <;> cases e

@[simp] theorem State.Canonical.maybeStore {s : State} (h : s.Canonical) (o a) : (s.maybeStore o a).Canonical := by
  unfold State.maybeStore
  dsimp only
  (repeat' split) <;> simp [h]

@[simp] theorem State.Canonical.perform {s : State} (h : s.Canonical) (n pn o a) {before : State → State} (hb : s.Canonical → (before s).Canonical) :
    (s.perform n pn o a before).Canonical := by
  unfold State.perform
  split
  next hw => exact h.performChk hw
  next k _ => simp [h]
  next => exact (hb h).accessEffect ..

@[simp] theorem State.Canonical.performStq {s : State} (h : s.Canonical) (n pn o a k stall) : (s.performStq n pn o a k stall).Canonical := by
  unfold State.performStq
  dsimp only
  (repeat' split) <;> simp [h]

@[simp] theorem State.Canonical.loseAccess {s : State} (h : s.Canonical) (n pn o a) : (s.loseAccess n pn o a).Canonical := by
  unfold State.loseAccess
  dsimp only
  (repeat' split) <;> simp [h]

@[simp] theorem State.Canonical.performOne {s : State} (h : s.Canonical) (n o) : (s.performOne n o).Canonical := by
  unfold State.performOne
  (repeat' split) <;> simp [h]

@[simp] theorem State.Canonical.early {s : State} (h : s.Canonical) (n q) : (s.early n q).Canonical := by
  unfold State.early
  dsimp only
  (repeat' split) <;> simp [h]

@[simp] theorem State.Canonical.without {s : State} (h : s.Canonical) (v) : (s.without v).Canonical := by
  simp [State.without, h]

@[simp] theorem State.Canonical.withAgain {s : State} (h : s.Canonical) (v w d) : (s.withAgain v w d).Canonical := by
  simp [State.withAgain, h]

@[simp] theorem State.Canonical.under {s : State} (h : s.Canonical) (n q) : (s.under n q).Canonical := by
  have hv (v : Veil) (o : AOp) : ((s.without v).performOne n o).Canonical := (h.without v).performOne n o
  unfold State.under
  dsimp only
  (repeat' split) <;> simp [h, (hv _ _).withAgain]

@[simp] theorem State.canonical_spread (s : State) (id ms) : (s.spread id ms).Canonical ↔ s.Canonical := by
  simp [State.spread]

@[simp] theorem State.Canonical.prefetch {s : State} (h : s.Canonical) (n o) : (s.prefetch n o).Canonical := by
  unfold State.prefetch
  refine (State.canonical_modCore ..).mpr ?_
  split
  · exact h
  next hit _ =>
    have hk : (s.keepLeaf n hit).Canonical := by simp [h]
    dsimp only
    split
    next hw => exact hk.way hw
    next => exact hk

@[simp] theorem State.Canonical.walkEnd {s : State} (h : s.Canonical) (n o) : (s.walkEnd n o).Canonical := by
  unfold State.walkEnd
  split
  · exact h
  next pn _ =>
    split
    · exact h
    · split
      · split <;> simp [h]
      next a _ =>
        split
        · exact State.Canonical.failA ((State.canonical_modCore ..).mpr h) ..
        next hit _ =>
          have hk : (s.keepLeaf n hit).Canonical := (State.canonical_keepLeaf ..).mpr h
          extract_lets s1 s2
          have hs2 : s2.Canonical := by
            dsimp only [s2, s1]
            split
            · exact hk
            · exact hk.countPage ..
          clear_value s2
          split
          · exact State.Canonical.failA ((State.canonical_modCore ..).mpr (hs2.report ..)) ..
          · exact hs2

@[simp] theorem State.Canonical.fillLdq {s : State} (h : s.Canonical) (n o) : (s.fillLdq n o).Canonical := by
  unfold State.fillLdq
  dsimp only
  (repeat' split) <;> simp [h]

/-! ### Operations of Machine/Image.lean -/

@[simp] theorem State.Canonical.mgmtWrite {s : State} (h : s.Canonical) (a d) : (s.mgmtWrite a d).Canonical := by
  unfold State.mgmtWrite
  (repeat' split) <;> simp [h]

/-! ### Operations of Machine/Moves.lean -/

@[simp] theorem State.canonical_takeToken (s : State) (tkop ch) : (s.takeToken tkop ch).Canonical ↔ s.Canonical := by
  unfold State.takeToken
  split <;> simp

@[simp] theorem State.Canonical.popTo {s : State} (h : s.Canonical) (q md pk cf tkop ch wide chk dest) : (s.popTo q md pk cf tkop ch wide chk dest).Canonical := by
  refine h.gate _ fun h => ?_
  dsimp only
  split <;> simp [h]

@[simp] theorem State.Canonical.pushFrom {s : State} (h : s.Canonical) (q md tkop ch wide chk v) : (s.pushFrom q md tkop ch wide chk v).Canonical := by
  simp [State.pushFrom, h]

/-! ### Operations of Machine/Matrix.lean -/

@[simp] theorem State.canonical_mat (s : State) (lat wide lands) : (s.mat lat wide lands).Canonical ↔ s.Canonical := Iff.rfl

@[simp] theorem State.Canonical.pushFw {s : State} (h : s.Canonical) (chk w) : (s.pushFw chk w).Canonical := by
  simp [State.pushFw, h]

@[simp] theorem State.canonical_mxIssue (s : State) (g dl i vbase) : (s.mxIssue g dl i vbase).Canonical ↔ s.Canonical := by
  unfold State.mxIssue
  split <;> simp

@[simp] theorem State.Canonical.mxOne {s : State} (h : s.Canonical) (n o) : (s.mxOne n o).Canonical := by
  unfold State.mxOne
  dsimp only
  (repeat' split) <;> simp [h]

@[simp] theorem State.Canonical.mxAll {s : State} (h : s.Canonical) (n l) : (s.mxAll n l).Canonical := by
  induction l generalizing s with
  | nil => exact h
  | cons o t ih =>
    have ho : (s.mxOne n o).Canonical := h.mxOne n o
    unfold State.mxAll
    dsimp only
    (repeat' split) <;> simp [ho, ih]

/-! ### Operations of Machine/Landing.lean -/

@[simp] theorem State.canonical_applyOp (s : State) (n old o) : (s.applyOp n old o).Canonical ↔ s.Canonical :=
  State.canonical_foldl (fun _ l => by cases l <;> exact Iff.rfl) _

@[simp] theorem State.canonical_applyFull (s : State) (n old o) : (s.applyFull n old o).Canonical ↔ s.Canonical := by
  unfold State.applyFull
  split <;> simp

/-! ### Operations of Machine/Copy.lean -/

@[simp] theorem State.Canonical.writeEntry {s : State} (h : s.Canonical) (a e) : (s.writeEntry a e).Canonical := h.storeAt ..

@[simp] theorem State.Canonical.readsDone {s : State} (h : s.Canonical) (c pn cs) : (s.readsDone c pn cs).Canonical :=
  h.foldl (fun _ _ h => State.Canonical.looped (by simp [h]) ..) _

@[simp] theorem State.Canonical.captured {s : State} (h : s.Canonical) (c pn k) : (s.captured c pn k).Canonical := by
  have hk : (k.hits.foldl (fun s h => s.keepLeaf c h) s).Canonical := by simp [h]
  have hcount (t : State) (ht : t.Canonical) (ps : List Place) (rd wr remote : Nat) :
      (ps.foldl (fun s p => s.countPage pn p rd wr remote) t).Canonical := ht.foldl (fun _ _ h => h.countPage ..) _
  exact State.Canonical.readsDone (hcount _ (hcount _ (hcount _ hk _ _ _ _) _ _ _ _) _ _ _ _) ..

theorem State.Canonical.ways {s : State} (h : s.Canonical) {owner pn cs} {t : State} (e : s.ways owner pn cs = .waits t) : t.Canonical := by
  induction cs generalizing s with
  | nil => cases e
  | cons x l ih =>
    unfold State.ways at e
    split at e
    · cases e
    · exact ih h e
    next u hu =>
      split at e
      · cases e
        exact h.way hu
      · exact ih (h.way hu) e

/-- What an enqueue goes on with has a property, or the state that it leaves as it waits is canonical. -/
def Enq.Canonical {α : Type} (P : α → Prop) : Enq α → Prop
  | .go a => P a
  | .fault _ => True
  | .waits s => s.Canonical

@[simp] theorem Enq.canonical_go {α : Type} {P : α → Prop} (a : α) : (Enq.go a).Canonical P ↔ P a := Iff.rfl

@[simp] theorem Enq.canonical_fault {α : Type} {P : α → Prop} (k) : (Enq.fault k : Enq α).Canonical P := trivial

@[simp] theorem Enq.canonical_waits {α : Type} {P : α → Prop} (s : State) : (Enq.waits s : Enq α).Canonical P ↔ s.Canonical := Iff.rfl

theorem Enq.Canonical.bind {α β : Type} {P : α → Prop} {Q : β → Prop} {a : Enq α} (h : a.Canonical P) {f : α → Enq β} (hf : ∀ x, P x → (f x).Canonical Q) :
    (a.bind f).Canonical Q := by
  cases a with
  | go x => exact hf x h
  | fault k => trivial
  | waits s => exact h

theorem Enq.Canonical.waits {α : Type} {P : α → Prop} {a : Enq α} (h : a.Canonical P) {t : State} (e : a = .waits t) : t.Canonical := by
  rw [e] at h
  exact h

theorem Enq.Canonical.go {α : Type} {P : α → Prop} {a : Enq α} (h : a.Canonical P) {x : α} (e : a = .go x) : P x := by
  rw [e] at h
  exact h

theorem State.Canonical.base {s : State} (h : s.Canonical) (pn v isHandle write) : (s.base pn v isHandle write).Canonical fun _ => True := by
  unfold State.base
  dsimp only
  (repeat' split) <;> simp [h]

theorem Enq.Canonical.ite {α : Type} {P : α → Prop} {p : Prop} [Decidable p] {a b : Enq α} (ha : a.Canonical P) (hb : b.Canonical P) :
    (if p then a else b).Canonical P := by
  split
  · exact ha
  · exact hb

theorem State.Canonical.planOf {s : State} (h : s.Canonical) (c pn q i dst src len aux) : (s.planOf c pn q i dst src len aux).Canonical fun _ => True := by
  unfold State.planOf
  split
  · exact (h.base ..).bind fun d _ => (h.base ..).bind fun r _ => .ite trivial (.ite trivial trivial)
  · exact .ite trivial trivial
  · refine (h.base ..).bind fun d _ => (h.base ..).bind fun r _ => .ite trivial (.ite trivial (.ite trivial (.ite trivial (.ite h ?_))))
    split
    · trivial
    · dsimp only
      split
      · trivial
      next hw => exact h.ways hw
      · refine .ite h ?_
        split
        · trivial
        · exact .ite trivial trivial

theorem State.Canonical.planCapture {s : State} (h : s.Canonical) (c pn l) : (s.planCapture c pn l).Canonical fun _ => True := by
  unfold State.planCapture
  (repeat' split) <;> simp [h]

theorem State.Canonical.rowsChk {s : State} (h : s.Canonical) (n pn q k) : (s.rowsChk n pn q k).Canonical fun _ => True := by
  unfold State.rowsChk
  split
  · simp
  next hw => exact h.ways hw
  · (repeat' split) <;> simp [h]

theorem State.Canonical.planned {s : State} (h : s.Canonical) (c pn q i dst src len aux) : (s.planned c pn q i dst src len aux).Canonical fun _ => True := by
  refine ((h.planOf ..).bind fun l _ => h.planCapture ..).bind fun p _ => ?_
  split
  · exact (h.rowsChk ..).bind fun _ _ => trivial
  · trivial

@[simp] theorem State.Canonical.watchedBy {s : State} (h : s.Canonical) (n pn m u) : (s.watchedBy n pn m u).1.Canonical := by
  unfold State.watchedBy
  split
  · exact h
  · dsimp only
    (repeat' split) <;> simp [h]

@[simp] theorem State.Canonical.watchIndex {s : State} (h : s.Canonical) (n pn m index) : (s.watchIndex n pn m index).1.Canonical := h.watchedBy ..

@[simp] theorem State.Canonical.takeUp {s : State} (h : s.Canonical) (n pn m l k) : (s.takeUp n pn m l k).1.Canonical := h.captured ..

@[simp] theorem State.Canonical.enter {s : State} (h : s.Canonical) (n pn m index) : (s.enter n pn m index).1.Canonical := h.watchIndex ..

@[simp] theorem State.Canonical.taken {s : State} (h : s.Canonical) (pn m) {k : State → Cmd × List Cap → State} (hk : ∀ t p, t.Canonical → (k t p).Canonical) :
    (s.taken pn m k).Canonical := by
  unfold State.taken
  split
  · exact hk _ _ h
  · split
    · exact h.raise _
    next hw =>
      rw [State.canonical_waiting]
      exact (h.planned ..).waits hw
    · exact hk _ _ ((State.canonical_modMe ..).mpr (h.takeUp ..))

@[simp] theorem State.Canonical.enqueue {s : State} (h : s.Canonical) (pn tkop ch t) : (s.enqueue pn tkop ch t).Canonical := by
  unfold State.enqueue
  extract_lets pops u
  have hu : u.Canonical := by
    dsimp only [u]
    split <;> simp [h]
  clear_value u
  split
  · exact h
  · split
    · exact hu
    · exact (State.canonical_modMe ..).mpr (State.Canonical.enter ((State.canonical_modMe ..).mpr hu) ..)

@[simp] theorem State.Canonical.command {s : State} (h : s.Canonical) (i dst src len aux tkop ch) : (s.command i dst src len aux tkop ch).Canonical := by
  unfold State.command
  split
  · exact h
  · split
    · exact h
    · exact h.taken _ _ fun _ _ ht => ht.enqueue ..

@[simp] theorem State.Canonical.failC {s : State} (h : s.Canonical) (n m cause addr) : (s.failC n m cause addr).Canonical := by
  simp [State.failC, h]

@[simp] theorem State.Canonical.moved {s : State} (h : s.Canonical) (n pn m w d) : (s.moved n pn m w d).Canonical := by
  unfold State.moved
  extract_lets pl s1 s2 s3
  clear_value pl
  have hs1 : s1.Canonical := by
    dsimp only [s1]
    split <;> simp [h]
  have hs2 : s2.Canonical := by simp [s2, hs1]
  have hs3 : s3.Canonical := by
    dsimp only [s3]
    split
    · exact (State.canonical_raceCommand ..).mpr hs2
    · exact hs2
  exact hs3.looped ..

@[simp] theorem State.Canonical.chunkLdq2 {s : State} (h : s.Canonical) (n pn m) : (s.chunkLdq2 n pn m).Canonical := by
  unfold State.chunkLdq2
  split
  · exact h
  · dsimp only
    split
    · exact h
    · split
      next hw => exact h.way hw
      · exact h.failC ..
      · split
        · exact h.failC ..
        · refine (State.canonical_modCore ..).mpr (State.Canonical.watchedBy ((State.canonical_modCore ..).mpr ?_) ..)
          split <;> simp [h]

@[simp] theorem State.Canonical.chunkMove {s : State} (h : s.Canonical) (n pn m w k) : (s.chunkMove n pn m w k).Canonical := by
  unfold State.chunkMove
  extract_lets g ws hit stopAt src d s1 s2 t s3
  have hs1 : s1.Canonical := h.readsDone ..
  have hs2 : s2.Canonical := by
    dsimp only [s2]
    split <;> simp [hs1]
  have hs3 : s3.Canonical := hs2.watchedBy ..
  (repeat' split) <;> simp [hs3]

@[simp] theorem State.Canonical.maybeChunk {s : State} (h : s.Canonical) (n pn m w k) : (s.maybeChunk n pn m w k).Canonical := by
  unfold State.maybeChunk
  split <;> simp [h]

@[simp] theorem State.Canonical.chunk {s : State} (h : s.Canonical) (n pn m limit) : (s.chunk n pn m limit).Canonical := by
  unfold State.chunk
  split
  · extract_lets k dst all slotBad
    split
    · exact h
    · split
      · exact h.failC ..
      · split
        · split
          · exact h.failC ..
          next hw => exact h.ways hw
          · exact (h.maybeChunk ..).failC ..
        · split
          · exact h.failC ..
          next hw => exact h.ways hw
          · exact h.chunkMove ..
  · exact h

@[simp] theorem State.Canonical.failAgain {s : State} (h : s.Canonical) (n m k) : (s.failAgain n m k).Canonical := by
  simp [State.failAgain, h]

@[simp] theorem State.Canonical.requeue {s : State} (h : s.Canonical) (n m) : (s.requeue n m).Canonical := by
  unfold State.requeue
  split
  · exact h
  · split
    · exact h.failAgain ..
    next hw => exact (h.planned ..).waits hw
    · exact (h.takeUp ..).enter ..

@[simp] theorem State.Canonical.copyTurn {s : State} (h : s.Canonical) (n) : (s.copyTurn n).Canonical := by
  unfold State.copyTurn
  (repeat' split) <;> simp [h]

@[simp] theorem State.Canonical.skid {s : State} (h : s.Canonical) (n pn q fuel k) : (s.skid n pn q fuel k).Canonical := by
  induction fuel generalizing s k with
  | zero => exact h
  | succ fuel ih =>
    unfold State.skid
    dsimp only
    (repeat' split) <;> simp [h, ih]

/-! ### Operations of Machine/Paging.lean -/

@[simp] theorem State.canonical_pushSync (s : State) (i addr data extra begun) : (s.pushSync i addr data extra begun).Canonical ↔ s.Canonical := Iff.rfl

theorem State.Canonical.freeSlot {s : State} (h : s.Canonical) (pn slot fuel) : (s.freeSlot pn slot fuel).Canonical fun _ => True := by
  induction fuel generalizing slot with
  | zero => trivial
  | succ fuel ih =>
    unfold State.freeSlot
    refine .ite h ?_
    cases s.htSlot pn slot with
    | error k => trivial
    | ok a =>
      dsimp only
      generalize s.readEntry a = e
      exact Enq.Canonical.ite trivial (Enq.Canonical.ite trivial (ih _))

@[simp] theorem State.Canonical.writeCaps {s : State} (h : s.Canonical) (n pn cs d) : (s.writeCaps n pn cs d).Canonical := by
  induction cs generalizing s d with
  | nil => exact h
  | cons x t ih =>
    unfold State.writeCaps
    exact ih (by simp [h]) _

@[simp] theorem State.Canonical.hnewPut {s : State} (hs : s.Canonical) (n pn o h cs d e slot) : (s.hnewPut n pn o h cs d e slot).Canonical := by
  unfold State.hnewPut
  extract_lets lines s1
  have hlines (f : State → Nat → Nat → Nat → State) (hf : ∀ s k off m, (f s k off m).Canonical ↔ s.Canonical) (s : State) :
      (lines f s).Canonical ↔ s.Canonical := by
    refine State.canonical_foldl (fun s c => ?_) _
    split
    · exact hf ..
    · exact Iff.rfl
  clear_value lines
  have hs1 : s1.Canonical :=
    (hlines _ (fun _ _ _ _ => State.canonical_raceWrite ..) _).mpr ((hlines _ (fun _ _ _ _ => State.canonical_raceRead ..) _).mpr hs)
  clear_value s1
  cases slot with
  | none => simp [hs1]
  | some p => simp [hs1]

theorem State.Canonical.hnewCapture {s : State} (h : s.Canonical) {n pn p t cs} (e : s.hnewCapture n pn p = .ok (t, cs)) : t.Canonical := by
  unfold State.hnewCapture at e
  dsimp only at e
  (repeat' split at e) <;> cases e
  exact h.captured ..

theorem State.Canonical.hnewGo {s : State} (hs : s.Canonical) (n pn o h) : (s.hnewGo n pn o h).Canonical State.Canonical := by
  unfold State.hnewGo
  split
  · trivial
  next hw => exact hs.ways hw
  · split
    · exact hs
    · split
      · trivial
      · dsimp only
        split
        · trivial
        · exact (hs.freeSlot ..).bind fun slot _ => (hs.readsDone ..).hnewPut ..

@[simp] theorem State.Canonical.hnewStep {s : State} (hs : s.Canonical) (n pn o h) : (s.hnewStep n pn o h).Canonical := by
  unfold State.hnewStep
  split
  · split
    · exact hs
    · split
      · exact hs.failA ..
      next hc =>
        rw [State.canonical_modCore]
        exact hs.hnewCapture hc
  · split
    next hg =>
      rw [State.canonical_modCore]
      exact (hs.hnewGo ..).go hg
    · exact hs.failA ..
    next hw => exact (hs.hnewGo ..).waits hw

@[simp] theorem State.canonical_staleSlot (s : State) (pn slot) : (s.staleSlot pn slot).Canonical ↔ s.Canonical := by
  simp [State.staleSlot]

@[simp] theorem State.Canonical.publishSwap {s : State} (hs : s.Canonical) (n pn o h) : (s.publishSwap n pn o h).Canonical := by
  unfold State.publishSwap
  extract_lets slot
  split
  · exact hs
  · split
    · exact hs.failA ..
    next a e _ =>
      split
      · split
        · exact hs
        · exact (State.canonical_modCore ..).mpr ((State.canonical_showScope ..).mpr hs)
      · split
        · exact hs
        · refine (State.canonical_modCore ..).mpr ((State.canonical_staleSlot ..).mpr ((State.canonical_modPart ..).mpr ?_))
          exact hs.writeEntry ..

@[simp] theorem State.Canonical.releasePages {s : State} (h : s.Canonical) (pn ready) : (s.releasePages pn ready).Canonical := by
  unfold State.releasePages
  refine State.Canonical.foldl ((State.canonical_setPart ..).mpr h) (fun _ _ h => ?_) _
  split <;> simp [h]

@[simp] theorem State.Canonical.tfenceStep {s : State} (h : s.Canonical) (n pn o scp) : (s.tfenceStep n pn o scp).Canonical := by
  unfold State.tfenceStep
  dsimp only
  (repeat' split) <;> simp [h]

/-! ### Operations of Machine/Resume.lean -/

@[simp] theorem State.Canonical.refilled {s : State} (h : s.Canonical) (n) : (s.refilled n).Canonical := by
  unfold State.refilled
  split <;> simp [h]

@[simp] theorem State.Canonical.beginResume {s : State} (h : s.Canonical) (g) : (s.beginResume g).Canonical := by
  unfold State.beginResume
  extract_lets s1 unread s2 s3
  have hs2 : s2.Canonical := by simp [s2, s1, h]
  have hs3 : s3.Canonical := hs2.foldl (fun t n ht => .ite (ht.refilled n) ht) _
  split
  · exact State.Canonical.stop (s := s1) h ..
  · exact hs3.foldl (fun t n ht => ht.foldl (fun t m ht => .ite (ht.requeue n m) ht) _) _

@[simp] theorem State.Canonical.moveAll {s : State} (h : s.Canonical) (n pn cs d) : (s.moveAll n pn cs d).Canonical := by
  induction cs generalizing s d with
  | nil => exact h
  | cons x t ih =>
    unfold State.moveAll
    refine ih (State.Canonical.looped ?_ ..) _
    split <;> simp [h]

/-- The state that an inserted operation leaves is canonical, however it comes out. -/
def Ins.Canonical : Ins → Prop
  | .done s => s.Canonical
  | .waits s => s.Canonical
  | .failed s _ => s.Canonical

theorem State.Canonical.copyWhole {s : State} (h : s.Canonical) (n pn k quiet) : (s.copyWhole n pn k quiet).Canonical := by
  unfold State.copyWhole
  split
  · exact h
  next hw => exact h.ways hw
  · extract_lets total bad gap good hit far src d fill s1
    have hfill (s : State) : (fill s).Canonical ↔ s.Canonical := by simp [fill]
    have hs1 : s1.Canonical := (hfill _).mpr ((h.readsDone ..).moveAll ..)
    clear_value s1 bad gap
    clear_value hit
    split
    · exact hs1.report ..
    · split <;> exact hs1

theorem State.Canonical.performInserted {s : State} (h : s.Canonical) (n i) : (s.performInserted n i).Canonical := by
  unfold State.performInserted
  extract_lets c
  split
  · split
    · exact h
    next hw => exact (h.planned ..).waits hw
    · exact (h.captured ..).copyWhole ..
  · dsimp only
    (repeat' split) <;> exact h
  · exact h.prefetch ..
  · extract_lets src slotSrc o
    split <;> exact h
  · exact h

@[simp] theorem State.Canonical.insertedTurn {s : State} (h : s.Canonical) (n) : (s.insertedTurn n).Canonical := by
  unfold State.insertedTurn
  split
  next i _ _ _ _ =>
    have hi : (s.performInserted n i).Canonical := h.performInserted ..
    refine .ite h ?_
    split
    next e => exact (State.canonical_modCore ..).mpr (by rwa [e] at hi)
    next e => rwa [e] at hi
    next e => exact State.Canonical.stop ((State.canonical_modCore ..).mpr (by rwa [e] at hi)) ..
  · exact h

@[simp] theorem State.Canonical.restart {s : State} (h : s.Canonical) (g) : (s.restart g).Canonical :=
  .ite h (State.Canonical.foldl (s := s.setGrp _) h (fun t n ht => State.Canonical.trace (s := t.modCore n _) ht ..) _)

/-! ### Operations of Machine/Dispatcher.lean -/

@[simp] theorem State.canonical_stampReady (s : State) (pn) : (s.stampReady pn).Canonical ↔ s.Canonical := Iff.rfl

@[simp] theorem State.canonical_dropLaunch (s : State) (pn arrival) : (s.dropLaunch pn arrival).Canonical ↔ s.Canonical := Iff.rfl

@[simp] theorem State.canonical_accept (s : State) (pn r depth prio parents) : (s.accept pn r depth prio parents).1.Canonical ↔ s.Canonical := by
  unfold State.accept
  dsimp only
  split
  · exact Iff.rfl
  · split
    · exact Iff.rfl
    · split <;> exact Iff.rfl

@[simp] theorem State.Canonical.firstHandles {s : State} (h : s.Canonical) (pn) : (s.firstHandles pn).Canonical := by
  unfold State.firstHandles
  refine .ite h (.ite h (State.Canonical.foldl (s := s.setPart _ _) h (fun t k ht => ?_) _))
  split
  · exact ht.writeEntry ..
  · exact ht

@[simp] theorem State.Canonical.traceGroup {s : State} (h : s.Canonical) (pn num status) : (s.traceGroup pn num status).Canonical := by
  simp [State.traceGroup, h]

@[simp] theorem State.Canonical.place {s : State} (h : s.Canonical) (pn l r) : (s.place pn l r).Canonical := by
  unfold State.place
  split <;> simp [h]

@[simp] theorem State.Canonical.placeSaved {s : State} (h : s.Canonical) (g) : (s.placeSaved g).Canonical := by
  unfold State.placeSaved
  extract_lets s1 s2 s3 running g1 s4
  have hs2 : s2.Canonical := by simp [s2, s1, h]
  have hs3 : s3.Canonical := (State.canonical_reveal ..).mpr hs2
  have hs4 : s4.Canonical := State.Canonical.traceGroup (s := s3.setGrp g1) hs3 ..
  refine .ite ?_ (hs4.beginResume _)
  simp [hs4]

@[simp] theorem State.Canonical.flushRecords {s : State} (h : s.Canonical) (pn fuel) : (s.flushRecords pn fuel).Canonical := by
  induction fuel generalizing s with
  | zero => exact h
  | succ fuel ih =>
    unfold State.flushRecords
    extract_lets p
    split
    · exact h
    · refine .ite h (.ite h (.ite h ?_))
      split
      · exact h
      · exact ih (h.storeAt ..)

@[simp] theorem State.Canonical.addRecord {s : State} (h : s.Canonical) (pn tag status endCode cause placed depth num) : (s.addRecord pn tag status endCode cause placed depth num).Canonical := by
  simp [State.addRecord, h]

@[simp] theorem State.Canonical.wakeLaunches {s : State} (h : s.Canonical) (pn fuel) : (s.wakeLaunches pn fuel).Canonical := by
  induction fuel generalizing s with
  | zero => exact h
  | succ fuel ih =>
    unfold State.wakeLaunches
    split
    · exact h
    · exact .ite (ih ((State.canonical_modPart ..).mpr (State.Canonical.addRecord ((State.canonical_dropLaunch ..).mpr h) ..)))
        (ih ((State.canonical_modPart ..).mpr h))

@[simp] theorem State.Canonical.completed {s : State} (h : s.Canonical) (pn arrival ok) : (s.completed pn arrival ok).Canonical := by
  simp [State.completed, h]

@[simp] theorem State.Canonical.retired {s : State} (h : s.Canonical) (g code endCode cause) : (s.retired g code endCode cause).Canonical := by
  unfold State.retired
  extract_lets s1 s2 s3 status
  have hs1 : s1.Canonical := h.foldl (fun t n ht => .ite ((State.canonical_withClock ..).mpr ht) ht) _
  exact State.Canonical.addRecord (s := s3) hs1 ..

@[simp] theorem State.Canonical.complete {s : State} (h : s.Canonical) (g code endCode cause) : (s.complete g code endCode cause).Canonical := by
  simp [State.complete, h]

@[simp] theorem State.Canonical.halt {s : State} (h : s.Canonical) (g cause code) : (s.halt g cause code).Canonical := by
  unfold State.halt
  extract_lets s1 s2 s3 s4 s5
  have hs1 : s1.Canonical := h.foldl (fun _ n ht => ht.settle n) _
  have hs2 : s2.Canonical := by simp [s2, hs1]
  have hs3 : s3.Canonical := by simp [s3, hs2]
  have hs4 : s4.Canonical := hs3.foldl (fun _ n ht => ht.trace ..) _
  have hs5 : s5.Canonical := by simp [s5, hs2]
  exact .ite hs4 (.ite hs5 (.ite hs2 hs2))

@[simp] theorem State.canonical_requeued (s : State) (g pool) : (s.requeued g pool).1.Canonical ↔ s.Canonical := Iff.rfl

@[simp] theorem State.Canonical.preempt {s : State} (h : s.Canonical) (num) : (s.preempt num).Canonical := by
  unfold State.preempt
  split
  · exact .ite h (State.Canonical.halt ((State.canonical_requeued ..).mpr h) ..)
  · exact h

@[simp] theorem State.Canonical.placeCand {s : State} (h : s.Canonical) (pn c r) : (s.placeCand pn c r).Canonical := by
  unfold State.placeCand
  (repeat' split) <;> simp [h]

@[simp] theorem State.Canonical.passLoop {s : State} (h : s.Canonical) (pn cs held) : (State.passLoop pn cs held s).Canonical := by
  induction cs generalizing s held with
  | nil => exact h
  | cons c t ih =>
    unfold State.passLoop
    refine .ite (ih h _) ?_
    dsimp only
    split
    · exact ih (h.placeCand ..) _
    · split
      · refine .ite (ih h _) (ih ?_ _)
        refine State.Canonical.foldl (s := s.modPart _ _) h (fun t n ht => ?_) _
        split
        · exact ht.preempt _
        · exact ht
      · exact ih h _

@[simp] theorem State.canonical_countHealth (s : State) (lo width most) : (s.countHealth lo width most).Canonical ↔ s.Canonical := Iff.rfl

@[simp] theorem State.canonical_retireCore (s : State) (n) : (s.retireCore n).Canonical ↔ s.Canonical := by
  unfold State.retireCore
  dsimp only
  (repeat' split) <;> simp

@[simp] theorem State.canonical_retireCores (s : State) (pn) : (s.retireCores pn).Canonical ↔ s.Canonical :=
  State.canonical_foldl (fun t n => by split <;> simp) _

@[simp] theorem State.Canonical.pass {s : State} (h : s.Canonical) (pn) : (s.pass pn).Canonical := by
  have hs : ((s.retireCores pn).flushRecords pn ((s.retireCores pn).part pn).records.length).Canonical :=
    State.Canonical.flushRecords ((State.canonical_retireCores ..).mpr h) ..
  exact State.Canonical.passLoop (s := State.stampReady _ pn) hs ..

@[simp] theorem State.Canonical.cancel {s : State} (h : s.Canonical) (pn arrival) : (s.cancel pn arrival).Canonical := by
  unfold State.cancel
  (repeat' split) <;> simp [h]

@[simp] theorem State.Canonical.cancelAll {s : State} (h : s.Canonical) (pn as) : (s.cancelAll pn as).Canonical :=
  (h.foldl (fun _ _ ht => ht.cancel ..) _).foldl (fun _ _ ht => ht.completed ..) _

@[simp] theorem State.Canonical.tornRecord {s : State} (h : s.Canonical) (pn num) : (s.tornRecord pn num).Canonical := by
  unfold State.tornRecord
  split <;> simp [h]

@[simp] theorem State.Canonical.teardown {s : State} (h : s.Canonical) (num) : (s.teardown num).Canonical := by
  unfold State.teardown
  split
  · exact .ite h (h.foldl (fun _ _ ht => ht.tornRecord ..) _)
  · exact h.cancelAll ..

/-! ### Operations of Machine/Launch.lean -/

theorem State.Canonical.launchCapture {s : State} (h : s.Canonical) {n pn p t cs} (e : s.launchCapture n pn p = .ok (t, cs)) : t.Canonical := by
  unfold State.launchCapture at e
  split at e
  · cases e
  · cases e
    exact h.captured ..

@[simp] theorem State.Canonical.launch {s : State} (h : s.Canonical) (i g rd s1) : (s.launch i g rd s1).Canonical := by
  refine .ite (h.gate _ fun h => ?_) h
  dsimp only
  split
  · exact h
  · refine .ite (h.raise _) (.ite h (.ite (h.raise _) (.ite h ?_)))
    split
    · exact h.raise _
    next hc => exact (State.canonical_modMe ..).mpr ((State.canonical_pushSync ..).mpr (h.launchCapture hc))

@[simp] theorem State.canonical_launched (s : State) (n o v) : (s.launched n o v).Canonical ↔ s.Canonical := Iff.rfl

@[simp] theorem State.Canonical.launchAsk {s : State} (h : s.Canonical) (n o g r blocking) : (s.launchAsk n o g r blocking).Canonical := by
  unfold State.launchAsk
  have ha := (State.canonical_accept s g.part r (g.depth + 1) (min (recPrio r) ((s.part g.part).ceil (launchQueue o.instr))) (g.arrival :: g.parents)).mpr h
  split
  · exact .ite h h
  next t ans _ e =>
    rw [e] at ha
    cases ans with
    | accepted a => exact State.Canonical.pass (s := t.launched ..) ha _
    | status k => exact ha
    | noEntry => exact ha

@[simp] theorem State.Canonical.launchRead {s : State} (h : s.Canonical) (n o g cs blocking) : (s.launchRead n o g cs blocking).Canonical := by
  unfold State.launchRead
  split
  · exact h.failA ..
  next hw => exact h.ways hw
  · split
    · exact h.failA ..
    · exact State.Canonical.launchAsk ((State.canonical_modCore ..).mpr (h.readsDone ..)) ..

@[simp] theorem State.Canonical.launchAgain {s : State} (h : s.Canonical) (n o g) : (s.launchAgain n o g).Canonical := by
  refine .ite h (.ite (h.failA ..) (.ite h ?_))
  split
  · exact h.failA ..
  next hc => exact (State.canonical_modCore ..).mpr (h.launchCapture hc)

@[simp] theorem State.Canonical.launchStep {s : State} (h : s.Canonical) (n o blocking) : (s.launchStep n o blocking).Canonical := by
  unfold State.launchStep
  (repeat' split) <;> simp [h]

@[simp] theorem State.Canonical.finishCore {s : State} (h : s.Canonical) (n) : (s.finishCore n).Canonical := by
  unfold State.finishCore
  dsimp only
  (repeat' split) <;> simp [h]

@[simp] theorem State.Canonical.finishCores {s : State} (h : s.Canonical) (ns) : (s.finishCores ns).Canonical :=
  h.foldl (fun _ n ht => ht.finishCore n) _

/-! ### Operations of Machine/Code.lean -/

@[simp] theorem State.Canonical.csWrite {s : State} (h : s.Canonical) (pn va d) : (s.csWrite pn va d).Canonical := by
  unfold State.csWrite
  split <;> simp [h]

@[simp] theorem State.Canonical.csDone {s : State} (h : s.Canonical) (pn va status id) : (s.csDone pn va status id).Canonical := by
  unfold State.csDone
  split <;> simp [h]

@[simp] theorem State.Canonical.csCommand {s : State} (h : s.Canonical) (pn cmd) {body : Bytes → State → State × Nat × Option Nat}
    (hb : ∀ e, (body e s).1.Canonical) : (s.csCommand pn cmd body).Canonical := by
  unfold State.csCommand
  split
  · exact h
  · refine .ite h ?_
    split
    · exact h
    next e _ => exact .ite h ((hb e).csDone ..)

@[simp] theorem State.Canonical.unmap {s : State} (h : s.Canonical) (pn id) : (s.unmap pn id).Canonical := by
  unfold State.unmap
  split <;> simp [h]

@[simp] theorem State.Canonical.goneLaunch {s : State} (h : s.Canonical) (pn l) : (s.goneLaunch pn l).Canonical := by
  simp [State.goneLaunch, h]

@[simp] theorem State.Canonical.goneRecord {s : State} (h : s.Canonical) (pn va) : (s.goneRecord pn va).Canonical := by
  unfold State.goneRecord
  split <;> simp [h]

@[simp] theorem State.Canonical.forceOut {s : State} (h : s.Canonical) (pn o) : (s.forceOut pn o).Canonical := by
  unfold State.forceOut
  extract_lets torn s1 mark s2 gone s3 s4 s5
  have hs1 : s1.Canonical := h.foldl (fun _ _ ht => ht.cancel ..) _
  have hs2 : s2.Canonical := hs1
  have hs3 : s3.Canonical := hs2.foldl (fun _ _ ht => ht.goneLaunch ..) _
  have hs4 : s4.Canonical := hs3.foldl (fun _ _ ht => ht.completed ..) _
  have hs5 : s5.Canonical := hs4.foldl (fun _ _ ht => ht.goneRecord ..) _
  exact hs5.unmap ..

/-! ### Operations of Machine/Power.lean -/

@[simp] theorem State.canonical_retarget (s : State) (r) : (s.retarget r).Canonical ↔ s.Canonical := by
  unfold State.retarget
  dsimp only
  split <;> simp

@[simp] theorem State.canonical_retargets (s : State) : (s.retargets).Canonical ↔ s.Canonical := by
  simp [State.retargets]

@[simp] theorem State.canonical_postRequest (s : State) (f) : (s.postRequest f).Canonical ↔ s.Canonical := by
  unfold State.postRequest
  split <;> simp

@[simp] theorem State.Canonical.traceCores {s : State} (h : s.Canonical) (pn cores kind a b) : (s.traceCores pn cores kind a b).Canonical :=
  h.foldl (fun _ _ ht => ((ht.trace ..).trace ..).trace ..) _

@[simp] theorem State.Canonical.traceAll {s : State} (h : s.Canonical) (kind a b) : (s.traceAll kind a b).Canonical :=
  h.foldl (fun _ _ ht => (ht.traceCores ..).trace ..) _

@[simp] theorem State.canonical_enterAuto (s : State) : (s.enterAuto).Canonical ↔ s.Canonical := by
  unfold State.enterAuto
  split <;> simp

@[simp] theorem State.Canonical.evict {s : State} (h : s.Canonical) (k) : (s.evict k).Canonical := h.foldl (fun _ _ ht => ht.preempt _) _

@[simp] theorem State.canonical_retsaveGo (s : State) (k value dir) : (s.retsaveGo k value dir).Canonical ↔ s.Canonical := by
  unfold State.retsaveGo
  dsimp only
  (repeat' split) <;> simp

theorem State.Canonical.stateOf {s : State} (h : s.Canonical) {r : Result} (hr : Result.Canonical r) : (stateOf s r).Canonical := by
  cases r with
  | next t => exact hr
  | fault k => exact h
  | refused k => exact h

@[simp] theorem State.Canonical.execQreqReq {s : State} (h : s.Canonical) (k v) : Result.Canonical (execQreqReq k v s) :=
  .next (.ite h (.ite (State.Canonical.evict (s := s.setCluster k _) h k) h))

@[simp] theorem State.Canonical.execRetsaveSave {s : State} (h : s.Canonical) (k v) : Result.Canonical (execRetsaveSave k v s) :=
  .next ((State.canonical_retsaveGo ..).mpr h)

@[simp] theorem State.Canonical.execRetsaveRestore {s : State} (h : s.Canonical) (k v) : Result.Canonical (execRetsaveRestore k v s) :=
  .next ((State.canonical_retsaveGo ..).mpr h)

@[simp] theorem State.Canonical.execClkgateSet {s : State} (h : s.Canonical) (k) : Result.Canonical (execClkgateSet k s) := .next (.ite h h)

@[simp] theorem State.Canonical.execClkgateClear {s : State} (h : s.Canonical) (k) : Result.Canonical (execClkgateClear k s) := .next (.ite h h)

@[simp] theorem State.Canonical.execRailgateOff {s : State} (h : s.Canonical) (k) : Result.Canonical (execRailgateOff k s) := .next (.ite h h)

@[simp] theorem State.Canonical.execRailgateOn {s : State} (h : s.Canonical) (k) : Result.Canonical (execRailgateOn k s) :=
  .next (.ite ((State.canonical_retargets _).mpr h) h)

@[simp] theorem State.Canonical.execWakeSet {s : State} (h : s.Canonical) (k who) : Result.Canonical (execWakeSet k who s) := .next (.ite h h)

@[simp] theorem State.Canonical.execWakeackAck {s : State} (h : s.Canonical) (k) : Result.Canonical (execWakeackAck k s) := .next (.ite h h)

@[simp] theorem State.Canonical.clusterWrite {s : State} (h : s.Canonical) (k off v who) : (s.clusterWrite k off v who).Canonical := by
  unfold State.clusterWrite
  split
  · exact h.stateOf (h.execQreqReq ..)
  · exact .ite (h.stateOf (.ite (h.execRetsaveRestore ..) (h.execRetsaveSave ..))) h
  · exact h.stateOf (.ite (h.execClkgateSet _) (h.execClkgateClear _))
  · exact h.stateOf (.ite (h.execRailgateOff _) (h.execRailgateOn _))
  · exact .ite (h.stateOf (h.execWakeSet ..)) h
  · exact .ite (h.stateOf (h.execWakeackAck _)) h
  · exact h

@[simp] theorem State.Canonical.execRefsetWrite {s : State} (h : s.Canonical) (v) : Result.Canonical (execRefsetWrite v s) :=
  .next (.ite h ((State.canonical_postRequest ..).mpr h))

@[simp] theorem State.Canonical.execPwstatUpdateWrite {s : State} (h : s.Canonical) (v) : Result.Canonical (execPwstatUpdateWrite v s) :=
  .next (.ite ((State.canonical_enterAuto _).mpr h) h)

@[simp] theorem State.Canonical.execPchbWrite {s : State} (h : s.Canonical) (v) : Result.Canonical (execPchbWrite v s) :=
  .next (.ite h (.ite ((State.canonical_retargets _).mpr h) h))

@[simp] theorem State.Canonical.powerWrite {s : State} (h : s.Canonical) (off v who) : (s.powerWrite off v who).Canonical := by
  unfold State.powerWrite
  refine .ite (h.clusterWrite ..) ?_
  split
  · exact h.stateOf (h.execRefsetWrite _)
  · exact .ite h h
  · exact h.stateOf (h.execPwstatUpdateWrite _)
  · exact h.stateOf (h.execPchbWrite _)
  · exact h

/-! ### Operations of Machine/Boundary.lean -/

@[simp] theorem State.canonical_startMgmt (s : State) (n g) : (s.startMgmt n g).Canonical ↔ s.Canonical := Iff.rfl

@[simp] theorem State.Canonical.loadStage {s : State} (h : s.Canonical) (g) : (s.loadStage g).Canonical := by
  unfold State.loadStage
  dsimp only
  (repeat' split) <;> simp [h]

@[simp] theorem State.Canonical.writePlaces {s : State} (h : s.Canonical) (l d) : (s.writePlaces l d).Canonical := by
  induction l generalizing s d with
  | nil => exact h
  | cons x t ih => exact ih ((State.canonical_writeGood ..).mpr (h.writePlace ..)) _

@[simp] theorem State.Canonical.execQpopRead {s : State} (h : s.Canonical) (pn) : Result.Canonical (execQpopRead pn s) := by
  refine .next ?_
  split <;> exact h

@[simp] theorem State.Canonical.windowRead {s : State} (h : s.Canonical) (pn off) : (s.windowRead pn off).2.Canonical := by
  unfold State.windowRead
  dsimp only
  split
  · split
    next t ht =>
      have htc : t.Canonical := (h.execQpopRead pn).of_eq ht
      exact htc
    next => exact h
  · exact h

@[simp] theorem State.Canonical.execLqtailWrite {s : State} (h : s.Canonical) (pn q v) : Result.Canonical (execLqtailWrite pn q v s) := .next (.ite h h)

@[simp] theorem State.Canonical.execCrtailWrite {s : State} (h : s.Canonical) (pn v) : Result.Canonical (execCrtailWrite pn v s) :=
  .next (State.Canonical.flushRecords (s := s.modPart pn _) h ..)

@[simp] theorem State.Canonical.execVvoteWrite {s : State} (h : s.Canonical) (pn v) : Result.Canonical (execVvoteWrite pn v s) :=
  .next (.ite h ((State.canonical_retargets _).mpr h))

@[simp] theorem State.Canonical.execCstailWrite {s : State} (h : s.Canonical) (pn v) : Result.Canonical (execCstailWrite pn v s) := .next h

@[simp] theorem State.Canonical.execQpushWrite {s : State} (h : s.Canonical) (pn v) : Result.Canonical (execQpushWrite pn v s) := .next (.ite h h)

@[simp] theorem State.Canonical.execAttgoWrite {s : State} (h : s.Canonical) (pn v) : Result.Canonical (execAttgoWrite pn v s) := by
  refine .next (.ite h ?_)
  dsimp only
  split
  · exact (State.canonical_modPart ..).mpr (h.writePlaces ..)
  · exact h

@[simp] theorem State.Canonical.execMcctlRestart {s : State} (h : s.Canonical) (n v) : Result.Canonical (execMcctlRestart n v s) := by
  refine .next (.ite h (h.foldl (fun t k ht => .ite ?_ ht) _))
  split
  · exact ht
  · exact ht

@[simp] theorem State.Canonical.windowWrite {s : State} (h : s.Canonical) (pn off v) : (s.windowWrite pn off v).Canonical := by
  unfold State.windowWrite
  extract_lets p put
  have hput (w : Word) : (put w).Canonical := h
  refine .ite h (.ite ?_ (.ite (hput _) (.ite (.ite (hput _) ((State.canonical_writeWpctl ..).mpr h)) ?_)))
  · split
    case h_4 => exact h.stateOf (h.execLqtailWrite ..)
    all_goals exact h
  · split
    case h_2 => exact .ite h h
    case h_5 => exact h.stateOf (h.execQpushWrite ..)
    case h_18 => exact .ite h h
    case h_19 => exact h.stateOf (h.execCrtailWrite ..)
    case h_20 => exact h.stateOf (h.execVvoteWrite ..)
    case h_21 => exact h.stateOf (h.execAttgoWrite ..)
    case h_23 => exact h.stateOf (h.execCstailWrite ..)
    case h_24 => exact .ite h h
    all_goals exact h

@[simp] theorem State.Canonical.baloreWrite {s : State} (h : s.Canonical) (off v writer) : (s.baloreWrite off v writer).Canonical := by
  unfold State.baloreWrite
  split
  · exact h.stateOf (h.execMcctlRestart ..)
  · exact h
  · exact h

@[simp] theorem State.Canonical.arrivedAll {s : State} (h : s.Canonical) (pn node base a n kinds) : (s.arrivedAll pn node base a n kinds).Canonical :=
  h.foldl (fun _ _ ht => ht.arrived ..) _

@[simp] theorem State.Canonical.loseRoute {s : State} (h : s.Canonical) (n node) : (s.loseRoute n node).Canonical := by
  unfold State.loseRoute
  extract_lets c aims s1
  have hs1 : s1.Canonical := by
    refine h.foldl (fun t o ht => ?_) _
    split
    · exact .ite (ht.loseAccess ..) ht
    · exact ht
  clear_value s1
  split
  · split
    · refine State.Canonical.failC ?_ ..
      split
      · exact .ite hs1 (hs1.maybeChunk ..)
      · exact hs1
    · exact hs1
  · exact hs1

@[simp] theorem State.canonical_countCorrected (s : State) : (s.countCorrected).Canonical ↔ s.Canonical := Iff.rfl

@[simp] theorem State.Canonical.clientWrites {s : State} (h : s.Canonical) (pn off k d) : (s.clientWrites pn off k d).Canonical := by
  induction k generalizing s off d with
  | zero => exact h
  | succ k ih => exact ih (.ite (h.windowWrite ..) h) _ _

@[simp] theorem State.Canonical.clientReads {s : State} (h : s.Canonical) (pn off k) : (s.clientReads pn off k).2.Canonical := by
  induction k generalizing s off with
  | zero => exact h
  | succ k ih => exact ih (h.windowRead ..) _

/-! ### Operations of Machine/Sync.lean -/

@[simp] theorem State.canonical_result (s : State) (n o v) : (s.result n o v).Canonical ↔ s.Canonical := Iff.rfl

@[simp] theorem State.canonical_fenceStep (s : State) (n o ord scp) : (s.fenceStep n o ord scp).Canonical ↔ s.Canonical := by
  unfold State.fenceStep
  dsimp only
  (repeat' split) <;> simp

@[simp] theorem State.canonical_baraStep (s : State) (n o k) : (s.baraStep n o k).Canonical ↔ s.Canonical := by
  unfold State.baraStep
  split <;> simp

@[simp] theorem State.canonical_barwStep (s : State) (n o k) : (s.barwStep n o k).Canonical ↔ s.Canonical := by
  unfold State.barwStep
  dsimp only
  (repeat' split) <;> simp

@[simp] theorem State.Canonical.tkpushStep {s : State} (h : s.Canonical) (n o k) : (s.tkpushStep n o k).Canonical := by
  unfold State.tkpushStep
  dsimp only
  (repeat' split) <;> simp [h]

@[simp] theorem State.canonical_tkwaitStep (s : State) (n o k) : (s.tkwaitStep n o k).Canonical ↔ s.Canonical := by
  unfold State.tkwaitStep
  dsimp only
  split <;> simp

@[simp] theorem State.canonical_cwaitStep (s : State) (n o) : (s.cwaitStep n o).Canonical ↔ s.Canonical := by
  unfold State.cwaitStep
  dsimp only
  (repeat' split) <;> simp

@[simp] theorem State.canonical_spallocStart (s : State) (n o) : (s.spallocStart n o).Canonical ↔ s.Canonical := Iff.rfl

@[simp] theorem State.canonical_spallocDone (s : State) (n o) : (s.spallocDone n o).Canonical ↔ s.Canonical := by
  unfold State.spallocDone
  split <;> simp

@[simp] theorem State.Canonical.spfreeStep {s : State} (h : s.Canonical) (n o) : (s.spfreeStep n o).Canonical := by
  unfold State.spfreeStep
  dsimp only
  (repeat' split) <;> simp [h]

@[simp] theorem State.Canonical.syncOne {s : State} (h : s.Canonical) (n q) : (s.syncOne n q).Canonical := by
  unfold State.syncOne
  (repeat' split) <;> simp [h]

@[simp] theorem State.Canonical.syncStep {s : State} (h : s.Canonical) (n q) : (s.syncStep n q).Canonical := by
  simp [State.syncStep, h]

@[simp] theorem State.Canonical.syncAll {s : State} (h : s.Canonical) (n) : (s.syncAll n).Canonical := h.foldl (fun _ _ ht => ht.syncStep ..) _

@[simp] theorem State.Canonical.issueSync {s : State} (h : s.Canonical) (i addr data extra) : (s.issueSync i addr data extra).Canonical := by
  simp [State.issueSync, h]

@[simp] theorem State.Canonical.writeRd {s : State} (h : s.Canonical) (n q) : (s.writeRd n q).Canonical := by
  unfold State.writeRd
  (repeat' split) <;> simp [h]

@[simp] theorem State.Canonical.goOn {s : State} (h : s.Canonical) (n o) : (s.goOn n o).Canonical := by
  unfold State.goOn
  (repeat' split) <;> simp [h]

@[simp] theorem State.Canonical.towardRd {s : State} (h : s.Canonical) (n o) : (s.towardRd n o).Canonical := by
  unfold State.towardRd
  (repeat' split) <;> simp [h]

/-! ### Operations of Machine/Loads.lean -/

@[simp] theorem State.canonical_pushAccess (s : State) (i addr data extra entry) : (s.pushAccess i addr data extra entry).Canonical ↔ s.Canonical := Iff.rfl

@[simp] theorem State.Canonical.issueAccess {s : State} (h : s.Canonical) (i addr data extra) {k : State → State} (hk : ∀ t, t.Canonical → (k t).Canonical) :
    (s.issueAccess i addr data extra k).Canonical := by
  unfold State.issueAccess
  split
  · exact h
  · exact .ite (h.raise _) (.ite (h.raise _) (.ite h (hk _ h)))

@[simp] theorem State.Canonical.regWrite {s : State} (h : s.Canonical) (w v) : (s.regWrite w v).Canonical := by
  unfold State.regWrite
  split <;> simp [h]

@[simp] theorem State.Canonical.mgmtAccess {s : State} (h : s.Canonical) (i addr data extra) : (s.mgmtAccess i addr data extra).Canonical := by
  unfold State.mgmtAccess
  dsimp only
  (repeat' split) <;> simp [h]

@[simp] theorem State.Canonical.access {s : State} (h : s.Canonical) (i rs addr data extra) : (s.access i rs addr data extra).Canonical := by
  refine h.gate _ fun h => ?_
  split
  · exact h.mgmtAccess ..
  · exact h.issueAccess _ _ _ _ fun _ ht => ht

@[simp] theorem State.Canonical.atomic {s : State} (h : s.Canonical) (g i rs b s2 s3) : (s.atomic g i rs b s2 s3).Canonical := by
  unfold State.atomic
  split <;> simp [h]

/-! ### Operations of Machine/Scalar.lean -/

@[simp] theorem State.Canonical.scalarBody {s : State} (h : s.Canonical) (g regs lat rd val) : (scalarBody g regs lat rd val s).Canonical :=
  .ite (h.gate _ fun h => h.putReg ..) h

theorem State.Canonical.scalar3 {s : State} (h : s.Canonical) (lat f g rd rs1 rs2) : Result.Canonical (scalar3 lat f g rd rs1 rs2 s) :=
  .next (h.scalarBody ..)

theorem State.Canonical.scalar2 {s : State} (h : s.Canonical) (lat f g rd rs1) : Result.Canonical (scalar2 lat f g rd rs1 s) := .next (h.scalarBody ..)

@[simp] theorem State.Canonical.compareBody {s : State} (h : s.Canonical) (g regs cd val) : (compareBody g regs cd val s).Canonical :=
  .ite (h.gate _ fun h => (State.canonical_putPair ..).mpr h) h

@[simp] theorem State.Canonical.twinPut {s : State} (hs : s.Canonical) (h second v) : (TwinHalf.put h second v s).Canonical := by
  refine .ite hs ?_
  split
  · exact hs
  · exact hs.putReg ..

/-! ### Operations of Machine/Vector.lean -/

@[simp] theorem State.Canonical.vec {s : State} (h : s.Canonical) (g lat vd vs more f) : (s.vec g lat vd vs more f).Canonical := by
  unfold State.vec
  dsimp only
  split <;> simp [h]

theorem State.Canonical.vecLanes {s : State} (h : s.Canonical) (lat g vd vs f) : Result.Canonical (vecLanes lat g vd vs f s) := .next (h.vec ..)

/-! ### Instructions and events with a body of their own -/

@[simp] theorem State.Canonical.execTrmark {s : State} (h : s.Canonical) (g tag) : Result.Canonical (execTrmark g tag s) := by
  unfold Machine.execTrmark
  (repeat' split) <;> simp [h]

@[simp] theorem State.Canonical.execFix {s : State} (h : s.Canonical) (g) : Result.Canonical (execFix g s) := by
  unfold Machine.execFix
  (repeat' split) <;> simp [h]

@[simp] theorem State.Canonical.execPbr {s : State} (h : s.Canonical) (g bd off) : Result.Canonical (execPbr g bd off s) := by
  unfold Machine.execPbr
  (repeat' split) <;> simp [h]

@[simp] theorem State.Canonical.execPbrx {s : State} (h : s.Canonical) (g bd rs) : Result.Canonical (execPbrx g bd rs s) := by
  unfold Machine.execPbrx
  (repeat' split) <;> simp [h]

@[simp] theorem State.Canonical.execBr {s : State} (h : s.Canonical) (g bd) : Result.Canonical (execBr g bd s) := by
  unfold Machine.execBr
  (repeat' split) <;> simp [h]

@[simp] theorem State.Canonical.execCall {s : State} (h : s.Canonical) (g bd fr) : Result.Canonical (execCall g bd fr s) := by
  refine .next (.ite ?_ h)
  split
  · exact h.gate _ fun h => .ite h h
  · exact h.gate _ fun h => h

@[simp] theorem State.Canonical.execRet {s : State} (h : s.Canonical) (g) : Result.Canonical (execRet g s) := by
  refine .next (.ite ?_ h)
  split
  · exact h.gate _ fun h => .ite h h
  · exact h.gate _ fun h => h

@[simp] theorem State.Canonical.execLoop {s : State} (h : s.Canonical) (g lv stop trip) : Result.Canonical (execLoop g lv stop trip s) := by
  unfold Machine.execLoop
  (repeat' split) <;> simp [h]

@[simp] theorem State.Canonical.execLoopx {s : State} (h : s.Canonical) (g lv stop rs) : Result.Canonical (execLoopx g lv stop rs s) := by
  unfold Machine.execLoopx
  (repeat' split) <;> simp [h]

@[simp] theorem State.Canonical.execLoopR {s : State} (h : s.Canonical) (g lv stop stg vb sm trip) : Result.Canonical (execLoopR g lv stop stg vb sm trip s) := by
  unfold Machine.execLoopR
  (repeat' split) <;> simp [h]

@[simp] theorem State.Canonical.execLoopxR {s : State} (h : s.Canonical) (g lv stop stg vb sm rs) : Result.Canonical (execLoopxR g lv stop stg vb sm rs s) := by
  unfold Machine.execLoopxR
  (repeat' split) <;> simp [h]

@[simp] theorem State.Canonical.execLexit {s : State} (h : s.Canonical) (g lv) : Result.Canonical (execLexit g lv s) := by
  unfold Machine.execLexit
  (repeat' split) <;> simp [h]

@[simp] theorem State.Canonical.execClkdiv {s : State} (h : s.Canonical) (g rs) : Result.Canonical (execClkdiv g rs s) := by
  unfold Machine.execClkdiv
  (repeat' split) <;> simp [h]

@[simp] theorem State.Canonical.execMfs {s : State} (h : s.Canonical) (g rd sys) : Result.Canonical (execMfs g rd sys s) := by
  unfold Machine.execMfs
  dsimp only
  (repeat' split) <;> simp [h]

@[simp] theorem State.Canonical.execMts {s : State} (h : s.Canonical) (g rs sys) : Result.Canonical (execMts g rs sys s) := by
  refine .next (.ite (h.raise _) (.ite (h.gate _ fun h => ?_) h))
  split <;> exact h

@[simp] theorem State.Canonical.execExit {s : State} (h : s.Canonical) (g) : Result.Canonical (execExit g s) := by
  unfold Machine.execExit
  (repeat' split) <;> simp [h]

@[simp] theorem State.Canonical.execWatchpointArm {s : State} (h : s.Canonical) (part n ctl) : Result.Canonical (execWatchpointArm part n ctl s) := by
  unfold Machine.execWatchpointArm
  (repeat' split) <;> simp [h]

@[simp] theorem State.Canonical.execPeerWatchReport {s : State} (h : s.Canonical) (part) : Result.Canonical (execPeerWatchReport part s) := by
  unfold Machine.execPeerWatchReport
  (repeat' split) <;> simp [h]

@[simp] theorem State.Canonical.execSvchk {s : State} (h : s.Canonical) (g rd rs1) : Result.Canonical (execSvchk g rd rs1 s) := by
  refine .next (.ite (h.raise _) (.ite (h.gate _ fun h => ?_) h))
  split
  · exact State.Canonical.putReg (s := { s with free := s.free + 1 }) h ..
  · exact h.putReg ..

@[simp] theorem State.Canonical.execResume {s : State} (h : s.Canonical) (g rs1) : Result.Canonical (execResume g rs1 s) := by
  refine .next (.ite (h.raise _) (.ite (h.gate _ fun h => .ite h ?_) h))
  split
  · exact h.raise _
  · exact h

@[simp] theorem State.Canonical.execTranslationWalkEnd {s : State} (h : s.Canonical) (core iseq) : Result.Canonical (execTranslationWalkEnd core iseq s) := by
  unfold Machine.execTranslationWalkEnd
  (repeat' split) <;> simp [h]

@[simp] theorem State.Canonical.execVpop {s : State} (h : s.Canonical) (g vr q md pk cf tkop tkch) : Result.Canonical (execVpop g vr q md pk cf tkop tkch s) := by
  unfold Machine.execVpop
  (repeat' split) <;> simp [h]

@[simp] theorem State.Canonical.execYpop {s : State} (h : s.Canonical) (g vr md pk cf tkop tkch) : Result.Canonical (execYpop g vr md pk cf tkop tkch s) := by
  unfold Machine.execYpop
  (repeat' split) <;> simp [h]

@[simp] theorem State.Canonical.execSpop {s : State} (h : s.Canonical) (g sg q md pk cf tkop tkch) : Result.Canonical (execSpop g sg q md pk cf tkop tkch s) := by
  unfold Machine.execSpop
  (repeat' split) <;> simp [h]

@[simp] theorem State.Canonical.execCpop {s : State} (h : s.Canonical) (g sg md pk cf tkop tkch) : Result.Canonical (execCpop g sg md pk cf tkop tkch s) := by
  unfold Machine.execCpop
  (repeat' split) <;> simp [h]

@[simp] theorem State.Canonical.execVpush {s : State} (h : s.Canonical) (g vr q md tkop tkch) : Result.Canonical (execVpush g vr q md tkop tkch s) := by
  unfold Machine.execVpush
  (repeat' split) <;> simp [h]

@[simp] theorem State.Canonical.execApush {s : State} (h : s.Canonical) (g sg q md tkop tkch) : Result.Canonical (execApush g sg q md tkop tkch s) := by
  unfold Machine.execApush
  (repeat' split) <;> simp [h]

@[simp] theorem State.Canonical.execIpsel {s : State} (h : s.Canonical) (g fn tkop tkch) : Result.Canonical (execIpsel g fn tkop tkch s) := by
  unfold Machine.execIpsel
  (repeat' split) <;> simp [h]

@[simp] theorem State.Canonical.execIpld {s : State} (h : s.Canonical) (g fn o tkop tkch) : Result.Canonical (execIpld g fn o tkop tkch s) := by
  unfold Machine.execIpld
  (repeat' split) <;> simp [h]

@[simp] theorem State.Canonical.execIpf {s : State} (h : s.Canonical) (g vs tkop tkch) : Result.Canonical (execIpf g vs tkop tkch s) := by
  unfold Machine.execIpf
  (repeat' split) <;> simp [h]

@[simp] theorem State.Canonical.execOwr {s : State} (h : s.Canonical) (g o row vs) : Result.Canonical (execOwr g o row vs s) := by
  unfold Machine.execOwr
  (repeat' split) <;> simp [h]

@[simp] theorem State.Canonical.execFmt {s : State} (h : s.Canonical) (g rs) : Result.Canonical (execFmt g rs s) := by
  unfold Machine.execFmt
  (repeat' split) <;> simp [h]

@[simp] theorem State.Canonical.execFmti {s : State} (h : s.Canonical) (g t) : Result.Canonical (execFmti g t s) := by
  unfold Machine.execFmti
  (repeat' split) <;> simp [h]

@[simp] theorem State.Canonical.execLgsave {s : State} (h : s.Canonical) (g l n o pos) : Result.Canonical (execLgsave g l n o pos s) := by
  unfold Machine.execLgsave
  (repeat' split) <;> simp [h]

@[simp] theorem State.Canonical.execLgload {s : State} (h : s.Canonical) (g l n o pos) : Result.Canonical (execLgload g l n o pos s) := by
  unfold Machine.execLgload
  (repeat' split) <;> simp [h]

@[simp] theorem State.Canonical.execLgsum {s : State} (h : s.Canonical) (g l n vd) : Result.Canonical (execLgsum g l n vd s) := by
  unfold Machine.execLgsum
  (repeat' split) <;> simp [h]

@[simp] theorem State.Canonical.execMxStart {s : State} (h : s.Canonical) (core) : Result.Canonical (execMxStart core s) := by
  unfold Machine.execMxStart
  (repeat' split) <;> simp [h]

@[simp] theorem State.Canonical.execResultLanding {s : State} (h : s.Canonical) (core) : Result.Canonical (execResultLanding core s) := by
  unfold Machine.execResultLanding
  dsimp only
  (repeat' split) <;> simp [h]

@[simp] theorem State.Canonical.execVsendArrival {s : State} (h : s.Canonical) (core) : Result.Canonical (execVsendArrival core s) := by
  refine .next (h.foldl (fun t e ht => ?_) _)
  split
  · exact ht
  · split
    · split <;> exact ht
    · exact ht

@[simp] theorem State.Canonical.execCopy {s : State} (h : s.Canonical) (g dst src len aux dh shd tkop tkch) : Result.Canonical (execCopy g dst src len aux dh shd tkop tkch s) := by
  unfold Machine.execCopy
  (repeat' split) <;> simp [h]

@[simp] theorem State.Canonical.execGather {s : State} (h : s.Canonical) (g dst src len aux dh shd) : Result.Canonical (execGather g dst src len aux dh shd s) := by
  unfold Machine.execGather
  (repeat' split) <;> simp [h]

@[simp] theorem State.Canonical.execScatter {s : State} (h : s.Canonical) (g dst src len aux dh shd) : Result.Canonical (execScatter g dst src len aux dh shd s) := by
  unfold Machine.execScatter
  (repeat' split) <;> simp [h]

@[simp] theorem State.Canonical.execLdq2 {s : State} (h : s.Canonical) (g q a len aux) : Result.Canonical (execLdq2 g q a len aux s) := by
  refine .next (.ite (h.gate _ fun h => ?_) h)
  dsimp only
  split
  · exact h
  · exact .ite h (h.taken _ _ fun t p ht => .ite ht ht)

@[simp] theorem State.Canonical.execCommandRetire {s : State} (h : s.Canonical) (core) : Result.Canonical (execCommandRetire core s) := by
  unfold Machine.execCommandRetire
  dsimp only
  (repeat' split) <;> simp [h]

@[simp] theorem State.Canonical.execWatchCopyFreeze {s : State} (h : s.Canonical) (core skid) : Result.Canonical (execWatchCopyFreeze core skid s) := by
  unfold Machine.execWatchCopyFreeze
  dsimp only
  (repeat' split) <;> simp [h]

@[simp] theorem State.Canonical.execHld {s : State} (h : s.Canonical) (g hd s1) : Result.Canonical (execHld g hd s1 s) := by
  unfold Machine.execHld
  (repeat' split) <;> simp [h]

@[simp] theorem State.Canonical.execHnew {s : State} (h : s.Canonical) (g hd s1) : Result.Canonical (execHnew g hd s1 s) := by
  refine .next (.ite (h.gate _ fun h => ?_) h)
  split
  · exact h
  · refine .ite h ?_
    split
    · exact h.raise _
    next t cs e =>
      have ht : t.Canonical := h.hnewCapture e
      dsimp only
      split
      next hu => exact (ht.hnewGo ..).go hu
      · exact ht.raise _
      next hw =>
        rw [State.canonical_modMe]
        exact (ht.hnewGo ..).waits hw

@[simp] theorem State.Canonical.execHfree {s : State} (h : s.Canonical) (g hd) : Result.Canonical (execHfree g hd s) := by
  unfold Machine.execHfree
  dsimp only
  (repeat' split) <;> simp [h]

@[simp] theorem State.Canonical.execPublish {s : State} (h : s.Canonical) (g hd scp) : Result.Canonical (execPublish g hd scp s) := by
  unfold Machine.execPublish
  dsimp only
  (repeat' split) <;> simp [h]

@[simp] theorem State.Canonical.execPublishSwap {s : State} (h : s.Canonical) (core) : Result.Canonical (execPublishSwap core s) := by
  unfold Machine.execPublishSwap
  (repeat' split) <;> simp [h]

@[simp] theorem State.Canonical.execQseqAdvance {s : State} (h : s.Canonical) : Result.Canonical (execQseqAdvance s) := by
  refine .next (.ite h (State.Canonical.foldl ?_ (fun t k ht => .ite ht (ht.releasePages ..)) _))
  exact (State.canonical_mapCores ..).mpr h

@[simp] theorem State.Canonical.execTfence {s : State} (h : s.Canonical) (g scp) : Result.Canonical (execTfence g scp s) := by
  unfold Machine.execTfence
  dsimp only
  (repeat' split) <;> simp [h]

@[simp] theorem State.Canonical.execTfenceComplete {s : State} (h : s.Canonical) (core) : Result.Canonical (execTfenceComplete core s) := by
  unfold Machine.execTfenceComplete
  (repeat' split) <;> simp [h]

@[simp] theorem State.Canonical.execQueueRecordRead {s : State} (h : s.Canonical) (part q) : Result.Canonical (execQueueRecordRead part q s) := by
  unfold Machine.execQueueRecordRead
  dsimp only
  (repeat' split) <;> simp [h]

@[simp] theorem State.Canonical.execFirmwareLaunch {s : State} (h : s.Canonical) (part record) : Result.Canonical (execFirmwareLaunch part record s) := by
  have ha := (State.canonical_accept s part record 0 (recPrio record) []).mpr h
  unfold Machine.execFirmwareLaunch
  refine .next (.ite h ?_)
  generalize s.accept part record 0 (recPrio record) [] = r at ha
  obtain ⟨t, ans⟩ := r
  cases ans with
  | accepted a => exact State.Canonical.pass (s := { t with reply := .status (Answer.accepted a).word }) ha _
  | status k => exact ha
  | noEntry => exact h

@[simp] theorem State.Canonical.execDispatchPassTimer {s : State} (h : s.Canonical) (part) : Result.Canonical (execDispatchPassTimer part s) := by
  unfold Machine.execDispatchPassTimer
  (repeat' split) <;> simp [h]

@[simp] theorem State.Canonical.execPriorityAging {s : State} (h : s.Canonical) (part) : Result.Canonical (execPriorityAging part s) := by
  unfold Machine.execPriorityAging
  dsimp only
  (repeat' split) <;> simp [h]

@[simp] theorem State.Canonical.execLaunchWaitTimeout {s : State} (h : s.Canonical) (core) : Result.Canonical (execLaunchWaitTimeout core s) := by
  unfold Machine.execLaunchWaitTimeout
  (repeat' split) <;> simp [h]

@[simp] theorem State.Canonical.execStopDelivery {s : State} (h : s.Canonical) (ctx) : Result.Canonical (execStopDelivery ctx s) := by
  unfold Machine.execStopDelivery
  (repeat' split) <;> simp [h]

@[simp] theorem State.Canonical.execSaveImageComplete {s : State} (h : s.Canonical) (ctx) : Result.Canonical (execSaveImageComplete ctx s) := by
  unfold Machine.execSaveImageComplete
  (repeat' split) <;> simp [h]

@[simp] theorem State.Canonical.execSupervisorStop {s : State} (h : s.Canonical) (ctx) : Result.Canonical (execSupervisorStop ctx s) := by
  unfold Machine.execSupervisorStop
  (repeat' split) <;> simp [h]

@[simp] theorem State.Canonical.execSupervisorPlace {s : State} (h : s.Canonical) (ctx edits) : Result.Canonical (execSupervisorPlace ctx edits s) := by
  unfold Machine.execSupervisorPlace
  dsimp only
  (repeat' split) <;> simp [h]

@[simp] theorem State.Canonical.execAStreamExitComplete {s : State} (h : s.Canonical) (core) : Result.Canonical (execAStreamExitComplete core s) := by
  unfold Machine.execAStreamExitComplete
  dsimp only
  (repeat' split) <;> simp [h]

@[simp] theorem State.Canonical.execXExitCheck {s : State} (h : s.Canonical) (core) : Result.Canonical (execXExitCheck core s) := by
  unfold Machine.execXExitCheck
  dsimp only
  (repeat' split) <;> simp [h]

@[simp] theorem State.Canonical.execTeardownContext {s : State} (h : s.Canonical) (ctx) : Result.Canonical (execTeardownContext ctx s) := by
  unfold Machine.execTeardownContext
  (repeat' split) <;> simp [h]

@[simp] theorem State.Canonical.execTeardownPartition {s : State} (h : s.Canonical) (part) : Result.Canonical (execTeardownPartition part s) := by
  refine .next (State.Canonical.pass (State.Canonical.cancelAll ?_ ..) _)
  exact h.foldl (fun t k ht => .ite ht (ht.tornRecord ..)) _

@[simp] theorem State.Canonical.execLoad {s : State} (h : s.Canonical) (part place) : Result.Canonical (execLoad part place s) := by
  refine .next (h.csCommand _ _ fun e => ?_)
  split
  · exact h
  · split
    · exact h
    · split
      · exact h
      · exact State.Canonical.mapImage ((State.canonical_modPart ..).mpr (h.foldl (fun _ _ ht => ht.storeHbm ..) _)) ..

@[simp] theorem State.Canonical.execUnload {s : State} (h : s.Canonical) (part) : Result.Canonical (execUnload part s) := by
  refine .next (h.csCommand _ _ fun e => ?_)
  dsimp only
  split
  · exact h
  · split
    · exact h.unmap ..
    · exact h

@[simp] theorem State.Canonical.execDeferredUnmap {s : State} (h : s.Canonical) (part obj) : Result.Canonical (execDeferredUnmap part obj s) := by
  unfold Machine.execDeferredUnmap
  (repeat' split) <;> simp [h]

@[simp] theorem State.Canonical.execUnloadF {s : State} (h : s.Canonical) (part) : Result.Canonical (execUnloadF part s) := by
  refine .next (State.Canonical.pass (h.csCommand _ _ fun e => ?_) _)
  split
  · exact h
  · split
    · exact h
    · exact h.forceOut ..

@[simp] theorem State.Canonical.execPatch {s : State} (h : s.Canonical) (part) : Result.Canonical (execPatch part s) := by
  refine .next (h.csCommand _ _ fun e => ?_)
  split
  · exact h
  · split
    · exact h
    · dsimp only
      split
      · exact h
      · split
        · exact h
        · exact h.storeHbm ..

@[simp] theorem State.Canonical.execRailAtTarget {s : State} (h : s.Canonical) (rail) : Result.Canonical (execRailAtTarget rail s) := by
  unfold Machine.execRailAtTarget
  dsimp only
  (repeat' split) <;> simp [h]

@[simp] theorem State.Canonical.execReferenceFrequencyChange {s : State} (h : s.Canonical) : Result.Canonical (execReferenceFrequencyChange s) := by
  unfold Machine.execReferenceFrequencyChange
  dsimp only
  (repeat' split) <;> simp [h]

@[simp] theorem State.Canonical.execStretchTimeout {s : State} (h : s.Canonical) : Result.Canonical (execStretchTimeout s) := by
  unfold Machine.execStretchTimeout
  dsimp only
  (repeat' split) <;> simp [h]

@[simp] theorem State.Canonical.execThermalRecovery {s : State} (h : s.Canonical) : Result.Canonical (execThermalRecovery s) := by
  unfold Machine.execThermalRecovery
  (repeat' split) <;> simp [h]

@[simp] theorem State.Canonical.execHeartbeatTimeout {s : State} (h : s.Canonical) : Result.Canonical (execHeartbeatTimeout s) := by
  unfold Machine.execHeartbeatTimeout
  (repeat' split) <;> simp [h]

@[simp] theorem State.Canonical.execQreqEvict {s : State} (h : s.Canonical) (cluster) : Result.Canonical (execQreqEvict cluster s) := by
  unfold Machine.execQreqEvict
  dsimp only
  (repeat' split) <;> simp [h]

@[simp] theorem State.Canonical.execRetsaveDone {s : State} (h : s.Canonical) (cluster) : Result.Canonical (execRetsaveDone cluster s) := by
  unfold Machine.execRetsaveDone
  dsimp only
  (repeat' split) <;> simp [h]

@[simp] theorem State.Canonical.execClockGateComplete {s : State} (h : s.Canonical) (cluster) : Result.Canonical (execClockGateComplete cluster s) := by
  refine .next (.ite h (.ite h (State.Canonical.foldl (s := s.setCluster _ _) h (fun t n ht => ?_) _)))
  split
  · exact ht.traceCores ..
  · exact ht

@[simp] theorem State.Canonical.execRailSwitchComplete {s : State} (h : s.Canonical) (cluster) : Result.Canonical (execRailSwitchComplete cluster s) := by
  unfold Machine.execRailSwitchComplete
  dsimp only
  (repeat' split) <;> simp [h]

@[simp] theorem State.Canonical.execPackageReset {s : State} (h : s.Canonical) (image) : Result.Canonical (execPackageReset image s) := by
  unfold Machine.execPackageReset
  extract_lets s1 r t
  have hs : s1.Canonical := State.Canonical.storeDelayed (s := { s with copying := [], delayed := [] }) h _
  have ht : t.Canonical := ⟨hs.hbm, hs.peer⟩
  clear_value t
  exact .next (.ite (ht.loadStage _) ht)

@[simp] theorem State.Canonical.execStageLoad {s : State} (h : s.Canonical) (image) : Result.Canonical (execStageLoad image s) := by
  unfold Machine.execStageLoad
  (repeat' split) <;> simp [h]

@[simp] theorem State.Canonical.execRegisterWrite {s : State} (h : s.Canonical) (target value) : Result.Canonical (execRegisterWrite target value s) := by
  unfold Machine.execRegisterWrite
  (repeat' split) <;> simp [h]

@[simp] theorem State.Canonical.execPeerAccessArrival {s : State} (h : s.Canonical) (access) : Result.Canonical (execPeerAccessArrival access s) := by
  unfold Machine.execPeerAccessArrival
  dsimp only
  (repeat' split) <;> simp [h]

@[simp] theorem State.Canonical.execRouteLossTimeout {s : State} (h : s.Canonical) (node) : Result.Canonical (execRouteLossTimeout node s) := by
  unfold Machine.execRouteLossTimeout
  extract_lets s1
  have hs1 : s1.Canonical := h
  exact .next (hs1.foldl (fun t n ht => .ite ht (ht.loseRoute ..)) _)

@[simp] theorem State.Canonical.execChannelRetire {s : State} (h : s.Canonical) (channel) : Result.Canonical (execChannelRetire channel s) := by
  unfold Machine.execChannelRetire
  dsimp only
  (repeat' split) <;> simp [h]

@[simp] theorem State.Canonical.execChannelCopyComplete {s : State} (h : s.Canonical) (channel) : Result.Canonical (execChannelCopyComplete channel s) := .next (.ite (State.Canonical.storeDelayed (s := { s with copying := _, remapped := _, delayed := [] }) h _) h)

@[simp] theorem State.Canonical.execCoreRetire {s : State} (h : s.Canonical) (core) : Result.Canonical (execCoreRetire core s) := by
  unfold Machine.execCoreRetire
  dsimp only
  (repeat' split) <;> simp [h]

@[simp] theorem State.Canonical.execRdmaWrite {s : State} (h : s.Canonical) (part window addr data) : Result.Canonical (execRdmaWrite part window addr data s) := by
  unfold Machine.execRdmaWrite
  (repeat' split) <;> simp [h]

@[simp] theorem State.Canonical.execRdmaRead {s : State} (h : s.Canonical) (part window addr len) : Result.Canonical (execRdmaRead part window addr len s) := by
  unfold Machine.execRdmaRead
  dsimp only
  (repeat' split) <;> simp [h]

@[simp] theorem State.Canonical.execPartitionConfiguration {s : State} (h : s.Canonical) (part config) : Result.Canonical (execPartitionConfiguration part config s) := by
  unfold Machine.execPartitionConfiguration
  (repeat' split) <;> simp [h]

@[simp] theorem State.Canonical.execWindowSpillFill {s : State} (h : s.Canonical) (core) : Result.Canonical (execWindowSpillFill core s) := by
  unfold Machine.execWindowSpillFill
  dsimp only
  (repeat' split) <;> simp [h]

@[simp] theorem State.Canonical.execSlipEnd {s : State} (h : s.Canonical) (ctx) : Result.Canonical (execSlipEnd ctx s) := by
  unfold Machine.execSlipEnd
  (repeat' split) <;> simp [h]

@[simp] theorem State.Canonical.execMeridianPulse {s : State} (h : s.Canonical) (ctx) : Result.Canonical (execMeridianPulse ctx s) := by
  unfold Machine.execMeridianPulse
  dsimp only
  (repeat' split) <;> simp [h]

@[simp] theorem State.Canonical.execFence {s : State} (h : s.Canonical) (g ord scp) : Result.Canonical (execFence g ord scp s) := by
  unfold Machine.execFence
  (repeat' split) <;> simp [h]

@[simp] theorem State.Canonical.execBara {s : State} (h : s.Canonical) (g n) : Result.Canonical (execBara g n s) := by
  unfold Machine.execBara
  dsimp only
  (repeat' split) <;> simp [h]

@[simp] theorem State.Canonical.execBarw {s : State} (h : s.Canonical) (g n) : Result.Canonical (execBarw g n s) := by
  unfold Machine.execBarw
  dsimp only
  (repeat' split) <;> simp [h]

@[simp] theorem State.Canonical.execTkpush {s : State} (h : s.Canonical) (g n) : Result.Canonical (execTkpush g n s) := by
  unfold Machine.execTkpush
  (repeat' split) <;> simp [h]

@[simp] theorem State.Canonical.execTkwait {s : State} (h : s.Canonical) (g n) : Result.Canonical (execTkwait g n s) := by
  unfold Machine.execTkwait
  (repeat' split) <;> simp [h]

@[simp] theorem State.Canonical.execCwait {s : State} (h : s.Canonical) (g rd s1) : Result.Canonical (execCwait g rd s1 s) := by
  unfold Machine.execCwait
  (repeat' split) <;> simp [h]

@[simp] theorem State.Canonical.execSpalloc {s : State} (h : s.Canonical) (g rd s1) : Result.Canonical (execSpalloc g rd s1 s) := by
  unfold Machine.execSpalloc
  (repeat' split) <;> simp [h]

@[simp] theorem State.Canonical.execSpfree {s : State} (h : s.Canonical) (g s1) : Result.Canonical (execSpfree g s1 s) := by
  refine .next (.ite (h.gate _ fun h => ?_) h)
  (repeat' split) <;> simp [h]

@[simp] theorem State.Canonical.execAClassResult {s : State} (h : s.Canonical) (core iseq) : Result.Canonical (execAClassResult core iseq s) := by
  unfold Machine.execAClassResult
  (repeat' split) <;> simp [h]

@[simp] theorem State.Canonical.execAccessPerformed {s : State} (h : s.Canonical) (core iseq) : Result.Canonical (execAccessPerformed core iseq s) := by
  unfold Machine.execAccessPerformed
  (repeat' split) <;> simp [h]

@[simp] theorem State.Canonical.execAwaitSatisfied {s : State} (h : s.Canonical) (core) : Result.Canonical (execAwaitSatisfied core s) := by
  refine .next ?_
  split
  · exact .ite (State.Canonical.writeRd (State.Canonical.eased s (h.performOne ..) _) ..) h
  · exact h

@[simp] theorem State.Canonical.execBarrierPhaseComplete {s : State} (h : s.Canonical) (core) : Result.Canonical (execBarrierPhaseComplete core s) := by
  unfold Machine.execBarrierPhaseComplete
  (repeat' split) <;> simp [h]

@[simp] theorem State.Canonical.execQueueFill {s : State} (h : s.Canonical) (core iseq) : Result.Canonical (execQueueFill core iseq s) := by
  unfold Machine.execQueueFill
  (repeat' split) <;> simp [h]

@[simp] theorem State.Canonical.execBankScrubComplete {s : State} (h : s.Canonical) (core bank) : Result.Canonical (execBankScrubComplete core bank s) := by
  unfold Machine.execBankScrubComplete
  dsimp only
  (repeat' split) <;> simp [h]

@[simp] theorem State.Canonical.execLd {s : State} (h : s.Canonical) (g rd b imm sz sx ord scp) : Result.Canonical (execLd g rd b imm sz sx ord scp s) := by
  unfold Machine.execLd
  (repeat' split) <;> simp [h]

@[simp] theorem State.Canonical.execLdx {s : State} (h : s.Canonical) (g rd b ix sh sz sx ord scp) : Result.Canonical (execLdx g rd b ix sh sz sx ord scp s) := by
  unfold Machine.execLdx
  (repeat' split) <;> simp [h]

@[simp] theorem State.Canonical.execSt {s : State} (h : s.Canonical) (g rd b imm sz ord scp) : Result.Canonical (execSt g rd b imm sz ord scp s) := by
  unfold Machine.execSt
  (repeat' split) <;> simp [h]

@[simp] theorem State.Canonical.execStx {s : State} (h : s.Canonical) (g rd b ix sh sz ord scp) : Result.Canonical (execStx g rd b ix sh sz ord scp s) := by
  unfold Machine.execStx
  (repeat' split) <;> simp [h]

@[simp] theorem State.Canonical.execPref {s : State} (h : s.Canonical) (g b imm) : Result.Canonical (execPref g b imm s) := by
  refine .next (.ite (h.gate _ fun h => ?_) h)
  dsimp only
  (repeat' split) <;> simp [h]

@[simp] theorem State.Canonical.execLdq {s : State} (h : s.Canonical) (g q b imm md) : Result.Canonical (execLdq g q b imm md s) := by
  refine .next (.ite (h.gate _ fun h => ?_) h)
  (repeat' split) <;> simp [h]

@[simp] theorem State.Canonical.execStq {s : State} (h : s.Canonical) (g q b imm md) : Result.Canonical (execStq g q b imm md s) := by
  unfold Machine.execStq
  (repeat' split) <;> simp [h]

@[simp] theorem State.Canonical.execSqpush {s : State} (h : s.Canonical) (g q b md) : Result.Canonical (execSqpush g q b md s) := by
  refine .next (.ite (h.gate _ fun h => ?_) h)
  dsimp only
  (repeat' split) <;> simp [h]

@[simp] theorem State.Canonical.execAwait {s : State} (h : s.Canonical) (g rd b s2 cond sz ord scp) : Result.Canonical (execAwait g rd b s2 cond sz ord scp s) := by
  unfold Machine.execAwait
  (repeat' split) <;> simp [h]

@[simp] theorem State.Canonical.execTwin {s : State} (h : s.Canonical) (a b) : Result.Canonical (execTwin a b s) := .next (h.gate _ fun h => State.Canonical.twinPut (h.twinPut ..) ..)

@[simp] theorem State.Canonical.execVcmp {s : State} (h : s.Canonical) (g pd va vb cond) : Result.Canonical (execVcmp g pd va vb cond s) := .next (h.gate _ fun h => h)

@[simp] theorem State.Canonical.execVflag {s : State} (h : s.Canonical) (g dst ps kd) : Result.Canonical (execVflag g dst ps kd s) := by
  unfold Machine.execVflag
  (repeat' split) <;> simp [h]

@[simp] theorem State.Canonical.execVsend {s : State} (h : s.Canonical) (g va dir) : Result.Canonical (execVsend g va dir s) := by
  unfold Machine.execVsend
  dsimp only
  (repeat' split) <;> simp [h]

/-! ### The meaning of every instruction and event -/

/-- No instruction and no event spoils the memories: the classes whose bodies are shared, then those that leave the memories alone, then each of the others. -/
theorem exec_canonical (i : Instr) {s : State} (h : s.Canonical) : Result.Canonical (exec i s) := by
  unfold exec
  cases i with
  | add | sub | mul | mulh | mulhn | div | divn | rem | remn | and | or | xor | andn | shl | shr | sar | rotr | min | max | minn | maxn |
    bfi =>
    dsimp only
    exact h.scalar3 ..
  | clz | ctz | popc | mov | sext | zext | bfx | addi | andi | ori | xori | shli | shri | sari =>
    dsimp only
    exact h.scalar2 ..
  | sel | li | lih | addpc =>
    dsimp only
    exact h.scalarBody ..
  | cmp | cmpi =>
    dsimp only
    exact h.compareBody ..
  | vadd | vsub | vmul | vfma | vfms | vmin | vmax | vabs | vneg | vadds | vsubs | vmullo | vmulh | vrshr | vshl | vshr | vsar | vand | vor
    | vxor | vnot | vclamp =>
    dsimp only
    exact h.vecLanes ..
  | vsel | vmov | vmovi | vbc | viota | vperm | vrotl | vdqbx | vred | vcvt | vpack | vunpk | vqbx =>
    dsimp only
    exact h.vec ..
  | lgb | lgbc | mlu | mluc | mzero | mdrain | mdrainSt =>
    dsimp only
    exact (State.canonical_mxIssue ..).mpr h
  | aadd | amin | amax | aand | aor | axor | axchg | acas =>
    dsimp only
    exact h.atomic ..
  | launchB | launchN =>
    dsimp only
    exact h.launch ..
  | fixCommand | fixinEdge =>
    dsimp only
    exact h.raiseFix _
  | nop | targetFetch | rdmaInvalidOperation | currentExcessEnd | thermalTrip =>
    dsimp only
    exact h
  | align | contour | wait | trap | bkpt | acq | arel | oclaim | orel | lginv | bankWakeComplete | bankIdleWarm | accBankIdleWarm |
    lqcfgErrClear | currentExcess | railFallStart =>
    dsimp only
    exact State.Canonical.ite h h
  | _ =>
    dsimp only
    simp [h]

/-! ### Operations of Machine/Issue.lean -/

/-! The meaning of a syllable is an argument of the issue functions; it is assumed to keep the memories canonical. -/

/-- Every instruction and event keeps the memories canonical under a meaning `ex`. -/
def KeepsCanonical (ex : Instr → State → Result) : Prop := ∀ (i : Instr) (s : State), s.Canonical → Result.Canonical (ex i s)

theorem KeepsCanonical.stateOf {ex : Instr → State → Result} (hex : KeepsCanonical ex) (i : Instr) {s t : State} (hs : s.Canonical) (ht : t.Canonical) :
    (Machine.stateOf s (ex i t)).Canonical := hs.stateOf (hex i t ht)

/-- The state of a verdict that waits is canonical. -/
def Verdict.Canonical : Verdict → Prop
  | .waits _ t => t.Canonical
  | _ => True

theorem Verdict.Canonical.waits {v : Verdict} (h : v.Canonical) {w : Slip} {t : State} (e : v = .waits w t) : t.Canonical := by
  rw [e] at h
  exact h

theorem Verdict.Canonical.join {a b : Verdict} (ha : a.Canonical) (hb : b.Canonical) : (a.join b).Canonical := by
  unfold Verdict.join
  split
  · exact hb
  · exact ha
  · split
    · exact ha
    · exact hb
  · exact ha
  · exact hb
  · trivial
  · trivial

theorem Verdict.Canonical.first {bundle v : Verdict} (h : v.Canonical) : (bundle.first v).Canonical := by
  unfold Verdict.first
  split
  · trivial
  · trivial
  · exact h

theorem State.Canonical.verdict {s : State} (h : s.Canonical) {ex} (hex : KeepsCanonical ex) (y c) : (s.verdict ex y c).Canonical := by
  have ht : (Machine.stateOf s (ex y.instr { s with ctx := c })).Canonical := hex.stateOf _ h h
  unfold State.verdict
  dsimp only
  split
  · trivial
  · exact ht
  · trivial

theorem State.Canonical.verdicts {s : State} (h : s.Canonical) {ex} (hex : KeepsCanonical ex) (base ys k) : (s.verdicts ex base ys k).Canonical := by
  induction ys generalizing k with
  | nil => trivial
  | cons y t ih => exact (h.verdict hex ..).join (ih _)

theorem State.Canonical.issueAll {s : State} (h : s.Canonical) {ex} (hex : KeepsCanonical ex) (base syls) : (s.issueAll ex base syls).Canonical := by
  refine State.Canonical.foldl ?_ (fun t y ht => ?_) _
  · exact h
  · exact hex.stateOf _ ht ht

@[simp] theorem State.canonical_modCtrl (s : State) (f) : (s.modCtrl f).Canonical ↔ s.Canonical := by
  unfold State.modCtrl
  split <;> simp

@[simp] theorem State.canonical_modAstr (s : State) (f) : (s.modAstr f).Canonical ↔ s.Canonical := by
  unfold State.modAstr
  split <;> simp

@[simp] theorem State.canonical_applyWrite (s : State) (w) : (s.applyWrite w).Canonical ↔ s.Canonical := by
  unfold State.applyWrite
  split <;> simp

@[simp] theorem State.canonical_rest (s : State) (cycles ctl) : (s.rest cycles ctl).Canonical ↔ s.Canonical := by
  simp [State.rest]

@[simp] theorem State.canonical_keepReturn (s : State) (n c) : (s.keepReturn n c).Canonical ↔ s.Canonical := by
  unfold State.keepReturn
  dsimp only
  split <;> simp

@[simp] theorem State.Canonical.endBundle {s : State} (h : s.Canonical) (past idle last) : (s.endBundle past idle last).Canonical := by
  unfold State.endBundle
  extract_lets c d s1 r pc k s2 s3 x sx sa sm
  have hs1 : s1.Canonical := by simp [s1, h]
  have hs2 : s2.Canonical := (State.canonical_modCtrl ..).mpr hs1
  have hs3 : s3.Canonical := .ite hs2 (hs2.foldl (fun _ _ ht => ht.loopExit ..) _)
  split
  · have hx : sx.Canonical := (State.canonical_keepReturn ..).mpr hs3
    split
    · exact hx.contourAt ..
    · exact hx
  · have ha : sa.Canonical := (State.canonical_rest ..).mpr hs3
    split
    · exact ha
    · exact ha.stop ..
    · exact ha
  · have hm : sm.Canonical := (State.canonical_rest ..).mpr hs3
    split
    · exact hm
    · exact hm.raise _
    · exact hm

@[simp] theorem State.canonical_putBps (s : State) (n ws) : (s.putBps n ws).Canonical ↔ s.Canonical := by
  unfold State.putBps
  split <;> simp

@[simp] theorem State.canonical_breaks (s : State) (syls) : (s.breaks syls).1.Canonical ↔ s.Canonical := by
  unfold State.breaks
  split
  · exact Iff.rfl
  · exact Iff.rfl
  · split <;> exact Iff.rfl

/-- The state that an issue leaves is canonical, if it leaves one. -/
def Issued.Canonical : Issued → Prop
  | .issued t => t.Canonical
  | .waits t _ => t.Canonical
  | _ => True

theorem Issued.Canonical.issued {r : Issued} (h : r.Canonical) {t : State} (e : r = .issued t) : t.Canonical := by
  rw [e] at h
  exact h

theorem Issued.Canonical.waits {r : Issued} (h : r.Canonical) {t : State} {w : Slip} (e : r = .waits t w) : t.Canonical := by
  rw [e] at h
  exact h

theorem Issued.Canonical.ite {p : Prop} [Decidable p] {a b : Issued} (ha : a.Canonical) (hb : b.Canonical) : (if p then a else b).Canonical := by
  split
  · exact ha
  · exact hb

theorem State.Canonical.overfull {s : State} (h : s.Canonical) (base k) : (s.overfull base k).Canonical := Issued.Canonical.ite trivial h

theorem State.Canonical.issueGo {s : State} (h : s.Canonical) {ex} (hex : KeepsCanonical ex) (base syls past) : (s.issueGo ex base syls past).Canonical :=
  Issued.Canonical.ite ((h.issueAll hex ..).endBundle ..) (Issued.Canonical.ite h (h.overfull ..))

theorem State.Canonical.issueWait {s t : State} (hs : s.Canonical) (ht : t.Canonical) (why first n) : (s.issueWait t why first n).Canonical := by
  unfold State.issueWait
  split
  · exact ht
  · exact ht
  · exact ht
  · exact hs

theorem State.Canonical.issueBundle {s : State} (h : s.Canonical) {ex} (hex : KeepsCanonical ex) (w n tick room) : (s.issueBundle ex w n tick room).Canonical := by
  unfold State.issueBundle
  extract_lets s1 pc first k s2 e f
  have hs2 : s2.Canonical := h
  clear_value s2
  split
  · trivial
  · trivial
  · trivial
  · trivial
  next syls past _ _ =>
    extract_lets b base s3
    have hb : b.1.Canonical := (State.canonical_breaks ..).mpr hs2
    have hs3 : s3.Canonical := (State.canonical_modCtrl ..).mpr hb
    split
    · trivial
    · have hv : ((State.bundleFault { s3 with ctx := base } syls past).first (s3.verdicts ex base syls 0)).Canonical := (hs3.verdicts hex ..).first
      split
      next t e => exact .ite (hs3.overfull ..) (hs3.issueWait (hv.waits e) ..)
      next t e => exact .ite (hs3.overfull ..) (hs3.issueWait (hv.waits e) ..)
      next t _ _ e => exact hs3.issueWait (hv.waits e) ..
      · trivial
      · exact hs3.issueGo hex ..

@[simp] theorem State.Canonical.begun {s : State} (h : s.Canonical) (n mid post c bps sends) : (s.begun n mid post c bps sends).Canonical := by
  unfold State.begun
  extract_lets s1 s2 s3
  have hs2 : s2.Canonical := by simp [s2, s1, h]
  have hs3 : s3.Canonical := hs2.foldl (fun _ _ ht => ht.loopExit ..) _
  split
  · exact hs3.contourAt ..
  · exact hs3

theorem State.Canonical.applyFail {s : State} (h : s.Canonical) {ex} (hex : KeepsCanonical ex) (n f) : (s.applyFail ex n f).Canonical := by
  cases f with
  | landing => exact hex.stateOf _ h h
  | start c k => exact State.Canonical.stop (s := s.modCore n _) h ..
  | issue k w => exact State.Canonical.stop ((State.canonical_putBps ..).mpr h) ..
  | begun mid post c w sends k =>
    have hs : ((s.begun n mid post c w sends).stop n k).Canonical := (h.begun ..).stop ..
    unfold State.applyFail
    dsimp only
    split
    · exact hs.stop ..
    · exact hs
  | exit k => exact h.stop ..

theorem Tick.ite_canonical {p : Prop} [Decidable p] {a b : Tick} (ha : a.s.Canonical) (hb : b.s.Canonical) : (if p then a else b).s.Canonical := by
  split
  · exact ha
  · exact hb

theorem Tick.exitCheck_canonical {ex} (hex : KeepsCanonical ex) (num n) {t : Tick} (h : t.s.Canonical) : (t.exitCheck ex num n).s.Canonical := by
  unfold Tick.exitCheck
  extract_lets c u
  have hu : u.Canonical := hex.stateOf _ h h
  split
  · split
    · split
      · exact hu
      · exact h
    · exact hu
  · exact h

theorem Tick.sameTick_canonical {ex} (hex : KeepsCanonical ex) (num n before c) {t : Tick} (h : t.s.Canonical) :
    (t.sameTick ex num n before c).s.Canonical := by
  unfold Tick.sameTick
  extract_lets u
  have hu : u.Canonical := hex.stateOf _ h h
  split
  · exact h
  · split
    · exact h
    · split
      · exact hu
      · exact hu

theorem State.Canonical.issueX {s : State} (h : s.Canonical) {ex} (hex : KeepsCanonical ex) (look g n) : (s.issueX ex look g n).Canonical := by
  have hb (room : Bool) : (s.issueBundle ex .x n (s.core n).tick room).Canonical := h.issueBundle hex ..
  unfold State.issueX
  split
  · exact .ite (hb true) trivial
  next t e => exact .ite trivial ((hb false).issued e)
  · exact hb false

theorem Tick.issue_canonical {ex} (hex : KeepsCanonical ex) (look g n) {t : Tick} (h : t.s.Canonical) : (Tick.issue ex look g n t).s.Canonical := by
  have hi : (t.s.issueX ex look g n).Canonical := h.issueX hex ..
  unfold Tick.issue
  refine Tick.ite_canonical h (Tick.ite_canonical h ?_)
  split
  next u e =>
    have hu : u.Canonical := hi.issued e
    refine Tick.sameTick_canonical hex _ _ _ _ ?_
    exact hu
  next u e => exact (show u.Canonical from hi.waits e)
  next u w _ e => exact (show u.Canonical from hi.waits e)
  · exact h
  · exact h

theorem Tick.starts_canonical {ex} (hex : KeepsCanonical ex) (num n) {t : Tick} (h : t.s.Canonical) : (t.starts ex num n).s.Canonical := by
  unfold Tick.starts
  extract_lets u
  have hu : u.Canonical := hex.stateOf _ h h
  split
  · exact h
  · split
    · exact h
    · split
      · exact hu
      · exact hu

theorem Tick.core_canonical {ex} (hex : KeepsCanonical ex) (look g n) {t : Tick} (h : t.s.Canonical) : (Tick.core ex look g t n).s.Canonical := by
  unfold Tick.core
  extract_lets t1 t2 t3
  have h1 : t1.s.Canonical := by
    dsimp only [t1]
    split
    · exact hex.stateOf _ h h
    · exact h
  have h2 : t2.s.Canonical := by
    dsimp only [t2]
    split
    · exact Tick.starts_canonical hex _ _ h1
    · exact h1
  have h3 : t3.s.Canonical := by
    dsimp only [t3]
    split
    · exact Tick.issue_canonical hex _ _ _ h2
    · exact h2
  split
  · exact Tick.exitCheck_canonical hex _ _ h3
  · exact h3

theorem Tick.foldl_core_canonical {ex} (hex : KeepsCanonical ex) (look g) (ns : List Nat) {t : Tick} (h : t.s.Canonical) : (ns.foldl (Tick.core ex look g) t).s.Canonical := by
  induction ns generalizing t with
  | nil => exact h
  | cons n ns ih => exact ih (Tick.core_canonical hex _ _ _ h)

theorem State.Canonical.each {s : State} (h : s.Canonical) {ex} (hex : KeepsCanonical ex) (i ns) : (s.each ex i ns).Canonical :=
  h.foldl (fun _ _ ht => hex.stateOf _ ht ht) _

theorem State.Canonical.landTick {s : State} (h : s.Canonical) {ex} (hex : KeepsCanonical ex) (g ns) : (s.landTick ex g ns).s.Canonical := by
  refine State.Canonical.each ?_ hex ..
  simp [h]

theorem State.Canonical.tickStops {s : State} (h : s.Canonical) {ex} (hex : KeepsCanonical ex) (g t) : (Tick.done.stops ex s g t).Canonical :=
  h.foldl (fun _ _ ht => ht.applyFail hex ..) _

theorem Tick.done_canonical {ex} (hex : KeepsCanonical ex) {pre : State} (hpre : pre.Canonical) (g key) {t : Tick} (h : t.s.Canonical) :
    Result.Canonical (t.done ex pre g key) := by
  have htraps (f : Grp → Grp) : (t.traps.foldl (fun s p => s.stop p.1 p.2) (t.s.modGrp g.num f)).Canonical :=
    State.Canonical.foldl (s := t.s.modGrp g.num f) h (fun _ _ ht => ht.stop ..) _
  unfold Tick.done
  split
  · trivial
  · split
    · exact .ite (htraps _) (hpre.tickStops hex ..)
    · exact .ite (htraps _) (hpre.tickStops hex ..)

@[simp] theorem State.canonical_tickPre (s : State) (g) : (s.tickPre g).Canonical ↔ s.Canonical := by
  simp [State.tickPre]

theorem State.Canonical.tickOf {s : State} (h : s.Canonical) {ex} (hex : KeepsCanonical ex) (look g) : (s.tickOf ex look g).s.Canonical :=
  Tick.foldl_core_canonical hex _ _ _ (h.landTick hex ..)

theorem State.Canonical.chartTickWith {s : State} (h : s.Canonical) {ex} (hex : KeepsCanonical ex) (look g) : Result.Canonical (s.chartTickWith ex look g) := by
  have hpre : (s.tickPre g).Canonical := (State.canonical_tickPre ..).mpr h
  exact Tick.done_canonical hex hpre _ _ (hpre.tickOf hex ..)

@[simp] theorem State.canonical_earlySends (ex s g) : (State.earlySends ex s g).Canonical ↔ s.Canonical := by
  unfold State.earlySends
  dsimp only
  split
  · exact Iff.rfl
  · refine State.canonical_foldl (fun s e => ?_) _
    split
    · split <;> exact Iff.rfl
    · exact Iff.rfl

theorem State.Canonical.chartTick {s : State} (h : s.Canonical) {ex} (hex : KeepsCanonical ex) (g) : Result.Canonical (s.chartTick ex g) :=
  State.Canonical.chartTickWith ((State.canonical_earlySends ..).mpr h) hex ..

theorem State.Canonical.chartStill {s : State} (h : s.Canonical) {ex} (hex : KeepsCanonical ex) (g) : Result.Canonical (s.chartStill ex g) :=
  Tick.done_canonical hex h _ _ (Tick.foldl_core_canonical hex _ _ _ h)

theorem State.Canonical.chartTurn {s : State} (h : s.Canonical) {ex} (hex : KeepsCanonical ex) (num) : Result.Canonical (s.chartTurn ex num) := by
  unfold State.chartTurn
  split
  · exact h
  · exact .ite h (.ite (h.chartTick hex _) (h.chartStill hex _))

@[simp] theorem State.Canonical.handlersDone {s : State} (h : s.Canonical) (n) : (s.handlersDone n).Canonical := by
  unfold State.handlersDone
  (repeat' split) <;> simp [h]

@[simp] theorem State.canonical_ownTick (s : State) (n g) : (s.ownTick n g).Canonical ↔ s.Canonical := by
  unfold State.ownTick
  split <;> simp

@[simp] theorem State.Canonical.resumeTurn {s : State} (h : s.Canonical) (core n) : (s.resumeTurn core n).Canonical := by
  unfold State.resumeTurn
  (repeat' split) <;> simp [h]

theorem State.Canonical.accessTurn {s : State} (h : s.Canonical) {ex} (hex : KeepsCanonical ex) (n) : Result.Canonical (s.accessTurn ex n) := by
  unfold State.accessTurn
  split
  · exact h
  next g _ =>
    refine .ite h (.ite (h.insertedTurn n) (.ite h ?_))
    extract_lets u c
    have hu : u.Canonical := State.Canonical.syncAll ((State.canonical_ownTick ..).mpr h) n
    clear_value u
    have hb : (u.issueBundle ex .a n 0).Canonical := hu.issueBundle hex ..
    refine .ite hu (.ite (hu.resumeTurn ..) ?_)
    split
    next t e =>
      have ht : t.Canonical := hb.issued e
      exact State.Canonical.handlersDone (s := { t with ctx := {} }) ht n
    next t _ e => exact (show t.Canonical from hb.waits e)
    · exact State.Canonical.stop ((State.canonical_putBps ..).mpr hu) ..
    · trivial

theorem State.Canonical.mgmtTurn {s : State} (h : s.Canonical) {ex} (hex : KeepsCanonical ex) (n) : Result.Canonical (s.mgmtTurn ex n) := by
  have hb : (s.issueBundle ex .mgmt n 0).Canonical := h.issueBundle hex ..
  unfold State.mgmtTurn
  refine .ite h ?_
  split
  next t e => exact (show t.Canonical from hb.issued e)
  next t _ e => exact (show t.Canonical from hb.waits e)
  next k _ _ => exact State.Canonical.raise (s := { s with ctx := { who := .mgmt, core := n } }) h k
  · trivial

@[simp] theorem State.Canonical.engineTurn {s : State} (h : s.Canonical) (n) : (s.engineTurn n).Canonical := by
  unfold State.engineTurn
  (repeat' split) <;> simp [h]

@[simp] theorem State.canonical_elapse (s : State) (adv) : (s.elapse adv).Canonical ↔ s.Canonical := Iff.rfl

theorem State.Canonical.act {s : State} (h : s.Canonical) {ex} (hex : KeepsCanonical ex) (a) : Result.Canonical (s.act ex a) := by
  cases a with
  | chart num => exact h.chartTurn hex num
  | astream n => exact h.accessTurn hex n
  | mgmt n => exact h.mgmtTurn hex n
  | copy n => exact h.engineTurn n
  | corrected => exact (State.canonical_countCorrected s).mpr h
  | upset k c n => exact State.Canonical.ite h h
  | outside node off d => exact State.Canonical.ite h (h.writeOutside ..)
  | hide ms => exact h
  | spread id ms => exact (State.canonical_spread ..).mpr h
  | early n q => exact State.Canonical.ite h (State.Canonical.eased s (h.early n q) n)
  | under n q => exact State.Canonical.ite h (State.Canonical.eased s (h.under n q) n)
  | event i => exact Result.Canonical.ite h (hex i s h)

/-! ### Operations of Machine/Step.lean -/

theorem State.Canonical.step {s : State} (h : s.Canonical) : Result.Canonical (step s) := by
  unfold Machine.step
  split
  · exact h
  next t rest _ =>
    exact State.Canonical.act (s := ({ s with turns := rest } : State).elapse t.adv) ((State.canonical_elapse ..).mpr h) (fun i _ hs => exec_canonical i hs) _

/-- Settles O60: no operation that a step reaches stores into HBM or a peer's window but through the stores that keep the canonical form. -/
theorem memoryStaysCanonical : Obligations.MemoryStaysCanonical := by
  unfold Obligations.MemoryStaysCanonical
  intro s t hhbm hpeer hstep
  exact (State.Canonical.step ⟨hhbm, hpeer⟩).of_eq hstep

end Sys2Proof.Machine

/-! PROOFS. Register writes, peer accesses, lost nodes, RoCEv2 operations and partition configuration (O56). -/

namespace Sys2Proof.Machine

/-! ### Register writes of the firmware -/

theorem exec_registerWrite_part (p off : Nat) (v : Word) (s : State) : exec (.registerWrite (.part p off) v) s = .next (s.windowWrite p off v) := rfl

/-- Read-only registers, reserved offsets and unaligned ones ignore a write (R7). -/
theorem State.windowWrite_of_noWrite {off : Nat} (h : noWrite off = true) (s : State) (pn : Nat) (v : Word) : s.windowWrite pn off v = s := by
  simp only [noWrite, Bool.or_eq_true, Bool.and_eq_true, bne_iff_ne, decide_eq_true_eq, List.contains_iff_mem, or_assoc] at h
  obtain hodd | ⟨hlo, hq⟩ | hhi | hlist := h
  · simp [State.windowWrite, hodd]
  · unfold State.windowWrite
    dsimp only
    rw [if_pos hlo]
    split
    · rfl
    · split
      case h_5 => rfl
      all_goals omega
  · unfold State.windowWrite
    dsimp only
    rw [if_neg (by omega : ¬ off < 0x400), if_neg (by omega : ¬ (0x500 ≤ off ∧ off < 0x580)), if_neg (by omega : ¬ (0x580 ≤ off ∧ off < 0x600))]
    split
    · rfl
    · split
      case h_24 => rw [if_neg (by omega)]
      all_goals omega
  · simp only [List.mem_cons, List.not_mem_nil, or_false] at hlist
    rcases hlist with rfl | rfl | rfl | rfl | rfl | rfl | rfl | rfl | rfl | rfl <;> rfl

/-- A plain register takes the writable bits of the value (R92). -/
theorem State.windowWrite_of_plainMask {off : Nat} {m : Word} (h : plainMask off = some m) (s : State) (pn : Nat) (v : Word) :
    s.windowWrite pn off v = s.modPart pn fun x => x.setReg off (v &&& m) := by
  have hones : v &&& ones = v := BitVec.and_allOnes
  unfold plainMask at h
  split at h
  · cases h
  next hal =>
    unfold State.windowWrite
    dsimp only
    rw [if_neg hal]
    split at h
    next hlo =>
      rw [if_pos hlo]
      split at h
      · cases h
        have hq : off % 0x40 = 0 ∨ off % 0x40 = 8 := by omega
        rw [hones]
        obtain hq | hq := hq
        · rw [hq]
          rfl
        · rw [hq]
          rfl
      · cases h
    next hlo =>
      rw [if_neg hlo]
      split at h
      next hbp =>
        cases h
        rw [if_pos hbp]
        by_cases h16 : off % 16 = 0
        · rw [if_pos h16, if_pos h16, hones]
          rfl
        · rw [if_neg h16, if_neg h16]
          rfl
      next hbp =>
        rw [if_neg hbp]
        split at h
        next hwp =>
          rw [if_pos hwp]
          split at h
          next h16 =>
            cases h
            rw [if_pos h16, hones]
            rfl
          · cases h
        next hwp =>
          rw [if_neg hwp]
          split at h
          next hatt =>
            cases h
            split
            case h_24 =>
              rw [if_pos hatt, hones]
              rfl
            all_goals omega
          next hatt =>
            split at h <;> cases h
            case h_2 | h_10 | h_11 =>
              rw [hones]
              rfl
            all_goals rfl

theorem State.windowWrite_lqtail {q : Nat} (hq : q < 16) (s : State) (pn : Nat) (v : Word) :
    s.windowWrite pn (0x40 * q + 0x18) v = stateOf s (execLqtailWrite pn q v s) := by
  have hlow : (0x40 * q + 0x18) % 0x40 = 0x18 := by omega
  have hnum : (0x40 * q + 0x18) / 0x40 = q := by omega
  unfold State.windowWrite
  dsimp only
  rw [if_neg (by omega), if_pos (by omega), hlow, hnum]
  rfl

theorem State.windowWrite_wpctl {n : Nat} (hn : n < 8) (s : State) (pn : Nat) (v : Word) :
    s.windowWrite pn (0x588 + 16 * n) v = s.writeWpctl pn n v := by
  have hnum : (0x588 + 16 * n - 0x588) / 16 = n := by omega
  unfold State.windowWrite
  dsimp only
  rw [if_neg (by omega), if_neg (by omega), if_neg (by omega), if_pos (by omega), if_neg (by omega), hnum]

theorem State.windowWrite_trsrc {k : Nat} (hk : k < 3) (s : State) (pn : Nat) (v : Word) :
    s.windowWrite pn (0x648 + 8 * k) v = s.modPart pn fun x => x.setReg (0x648 + 8 * k) (v &&& x.owned k) := by
  obtain rfl | rfl | rfl : k = 0 ∨ k = 1 ∨ k = 2 := by omega
  · rfl
  · rfl
  · rfl

/-- The supervisor handler's entry changes only while the partition has nothing placed (R92). -/
theorem State.windowWrite_408_placed {s : State} {pn : Nat} (h : ∃ g ∈ s.groups, g.part = pn ∧ g.images = []) (v : Word) :
    s.windowWrite pn 0x408 v = s := by
  have hany : (s.groups.any fun g => g.part == pn && g.images.isEmpty) = true := by simpa using h
  exact if_pos hany

theorem State.windowWrite_408_free {s : State} {pn : Nat} (h : ∀ g ∈ s.groups, g.part = pn → g.images ≠ []) (v : Word) :
    s.windowWrite pn 0x408 v = s.modPart pn fun x => x.setReg 0x408 (v &&& 1#64) := by
  have hany : ¬ (s.groups.any fun g => g.part == pn && g.images.isEmpty) = true := by simpa using h
  exact if_neg hany

theorem State.windowWrite_trcfg {v : Word} (h : v.toNat % 32 ≤ 16) (s : State) (pn : Nat) :
    s.windowWrite pn 0x628 v = s.modPart pn fun x => x.setReg 0x628 (v &&& 0x800000000000001F#64) := by
  have hor : (v &&& 0x8000000000000000#64) ||| (v &&& 0x1F#64) = v &&& 0x800000000000001F#64 := by
    rw [← BitVec.and_or_distrib_left]
    rfl
  rw [← hor]
  show s.setPart pn _ = s.setPart pn _
  rw [if_pos h]

theorem State.windowWrite_crcfg {v : Word} (h : v.toNat % 16 ≤ 8) (s : State) (pn : Nat) :
    s.windowWrite pn 0x708 v = s.modPart pn fun x => x.setReg 0x708 (v &&& 0xF#64) := if_pos h

theorem State.windowWrite_crcfg_ignored {v : Word} (h : 8 < v.toNat % 16) (s : State) (pn : Nat) : s.windowWrite pn 0x708 v = s :=
  if_neg (Nat.not_le.mpr h)

/-! ### The power controller's package registers and the Balore window -/

theorem State.powerHeld_of_package {o : Nat} (h : 0x21000 ≤ o) (s : State) (v : Word) : s.powerHeld o v = false := by
  have hno : decide (o < 0x20000 + 0x40 * 24) = false := by
    rw [decide_eq_false_iff_not]
    omega
  simp [State.powerHeld, hno]

theorem exec_registerWrite_power {o : Nat} (h : 0x21000 ≤ o) (v : Word) (s : State) :
    exec (.registerWrite (.power o) v) s = .next (s.powerWrite o v (.mgmt 0)) := by
  show Host.Outcome.next (if s.powerHeld o v = true then s else s.powerWrite o v (.mgmt 0)) = _
  rw [State.powerHeld_of_package h, if_neg Bool.false_ne_true]

theorem State.powerWrite_plimit {s : State} {v : Word} (ha : s.power.auto = false) (hlo : 900 ≤ v.toNat % 2048) (hhi : v.toNat % 2048 ≤ 1800) (who : ClientId) :
    s.powerWrite 0x21010 v who = { s with power := { s.power with plimit := v.toNat % 2048 } } := by
  have hok : ¬ ((s.power.auto = true) ∨ v.toNat % 2 ^ 11 < 900 ∨ 1800 < v.toNat % 2 ^ 11) := by
    rintro (hauto | hout)
    · rw [ha] at hauto
      cases hauto
    · omega
  exact if_neg hok

theorem State.powerWrite_plimit_ignored {s : State} {v : Word} (h : s.power.auto = true ∨ v.toNat % 2048 < 900 ∨ 1800 < v.toNat % 2048) (who : ClientId) :
    s.powerWrite 0x21010 v who = s := if_pos h

/-- Of the package registers four can be written (R373). -/
theorem State.powerWrite_other {o : Nat} (hlo : 0x21000 ≤ o) (h : o ∉ [0x21000, 0x21010, 0x21018, 0x21020]) (s : State) (v : Word) (who : ClientId) :
    s.powerWrite o v who = s := by
  simp only [List.mem_cons, List.not_mem_nil, or_false, not_or] at h
  unfold State.powerWrite
  rw [if_neg (by omega)]
  split
  case h_5 => rfl
  all_goals omega

/-! ### Peer accesses -/

/-- What counting and watching a peer's access may change. -/
def State.ArrivesTo (s t : State) : Prop := ∃ m ms ps, t = { s with hbm := m, meters := ms, parts := ps }

theorem State.ArrivesTo.refl (s : State) : s.ArrivesTo s := ⟨s.hbm, s.meters, s.parts, rfl⟩

theorem State.ArrivesTo.trans {s t u : State} (h : s.ArrivesTo t) (h' : t.ArrivesTo u) : s.ArrivesTo u := by
  obtain ⟨_, _, _, rfl⟩ := h
  obtain ⟨m, ms, ps, rfl⟩ := h'
  exact ⟨m, ms, ps, rfl⟩

theorem State.ArrivesTo.cores_eq {s t : State} (h : s.ArrivesTo t) : t.cores = s.cores := by
  obtain ⟨_, _, _, rfl⟩ := h
  rfl

theorem State.ArrivesTo.readBad_hbm {s t : State} (h : s.ArrivesTo t) (a n : Nat) : t.readBad (.hbm a) n = s.readBad (.hbm a) n := by
  obtain ⟨_, _, _, rfl⟩ := h
  rfl

theorem State.arrivesTo_countPage (s : State) (pn : Nat) (p : Place) (rd wr remote : Nat) : s.ArrivesTo (s.countPage pn p rd wr remote) := by
  unfold State.countPage
  split
  · split
    · exact ⟨_, s.meters, s.parts, rfl⟩
    · exact .refl s
  · exact .refl s

theorem State.arrivesTo_countPages (s : State) (pn : Nat) (p : Place) (n rd wr remote : Nat) : s.ArrivesTo (s.countPages pn p n rd wr remote) := by
  unfold State.countPages
  split
  · exact List.foldlRecOn _ _ (.refl s) fun t ht _ _ => ht.trans (t.arrivesTo_countPage ..)
  · exact .refl s

theorem State.arrivesTo_chargeKind (s : State) (pn kind : Nat) (d : Bytes) : s.ArrivesTo (s.chargeKind pn kind d) := ⟨s.hbm, _, s.parts, rfl⟩

theorem State.arrivesTo_modPart (s : State) (pn : Nat) (f : Part → Part) : s.ArrivesTo (s.modPart pn f) := ⟨s.hbm, s.meters, _, rfl⟩

theorem State.arrivesTo_arrived (s : State) (pn node off : Nat) (kinds : List WatchKind) (p : Place) (n : Nat) :
    s.ArrivesTo (s.arrived pn node off kinds p n) := by
  have hcount : s.ArrivesTo ((s.countPages pn p n 0 0 1).chargeKind pn 1 (s.readPlace p n)) :=
    (s.arrivesTo_countPages ..).trans (State.arrivesTo_chargeKind ..)
  unfold State.arrived
  dsimp only
  rw [if_pos rfl]
  split
  · exact hcount
  · exact hcount.trans (State.arrivesTo_modPart ..)

theorem State.arrivesTo_arrivedAll (s : State) (pn node base a n : Nat) (kinds : List WatchKind) :
    s.ArrivesTo (s.arrivedAll pn node base a n kinds) :=
  List.foldlRecOn _ _ (.refl s) fun t ht _ _ => ht.trans (t.arrivesTo_arrived ..)

/-! With the page counters off and no watchpoint armed only the meters move. -/

theorem State.countPages_off {s : State} (h : s.balore.pcbase.getLsbD 0 = false) (pn : Nat) (p : Place) (n rd wr remote : Nat) :
    s.countPages pn p n rd wr remote = s := by
  have hpage (p : Place) : s.countPage pn p rd wr remote = s := by
    unfold State.countPage
    split
    · rw [h, if_neg Bool.false_ne_true]
    · rfl
  unfold State.countPages
  split
  · exact List.foldlRecOn (motive := (· = s)) _ _ rfl fun t ht _ _ => by
      rw [ht]
      exact hpage _
  · rfl

theorem State.watchHit_unarmed {s : State} {pn : Nat} (h : (s.part pn).armed = []) (kind : WatchKind) (p : Place) (n : Nat) :
    s.watchHit pn kind p n = none := by
  simp [State.watchHit, h]

theorem State.arrived_unwatched {s : State} {pn : Nat} (hc : s.balore.pcbase.getLsbD 0 = false) (hw : (s.part pn).armed = [])
    (node off : Nat) (kinds : List WatchKind) (p : Place) (n : Nat) :
    s.arrived pn node off kinds p n = s.chargeKind pn 1 (s.readPlace p n) := by
  have hnone (k : WatchKind) : (s.chargeKind pn 1 (s.readPlace p n)).watchHit pn k p n = none :=
    State.watchHit_unarmed (s := s.chargeKind pn 1 (s.readPlace p n)) hw k p n
  simp [State.arrived, State.countPages_off hc, hnone]

theorem State.arrivedAll_unwatched {s : State} {pn : Nat} (hc : s.balore.pcbase.getLsbD 0 = false) (hw : (s.part pn).armed = [])
    (node base a n : Nat) (kinds : List WatchKind) : ∃ ms : Store Meter, s.arrivedAll pn node base a n kinds = { s with meters := ms } := by
  refine List.foldlRecOn (motive := fun t : State => ∃ ms : Store Meter, t = { s with meters := ms }) _ _ ⟨s.meters, rfl⟩ ?_
  rintro _ ⟨ms, rfl⟩ e -
  rw [State.arrived_unwatched (s := { s with meters := ms }) hc hw]
  exact ⟨_, rfl⟩

/-- A read from outside changes who has seen which store and nothing else. -/
theorem State.readsOutside_frame (s : State) (p : Place) (n : Nat) : ∃ o, s.readsOutside p n = { s with order := o } := by
  refine List.foldlRecOn (motive := fun t => ∃ o, t = { s with order := o }) _ _ ⟨s.order, rfl⟩ ?_
  rintro _ ⟨o, rfl⟩ v -
  rw [State.reveal_frame]
  exact ⟨_, rfl⟩

/-! One equation per operation, for an access inside the window that no copy holds up. -/

/-- A peer's access at an address that the part answers and no page copy holds up. -/
structure PeerAnswered (x : PeerAccess) (s : State) : Prop where
  running : s.attestOnly = false
  free : s.copied (.hbm ((s.part x.part).windowBase + x.off)) (peerSize x.op) = false
  inside : x.off + peerSize x.op ≤ (s.part x.part).windowSize

theorem exec_peerAccessArrival_outside {x : PeerAccess} {s : State} (hr : s.attestOnly = false)
    (hf : s.copied (.hbm ((s.part x.part).windowBase + x.off)) (peerSize x.op) = false) (h : (s.part x.part).windowSize < x.off + peerSize x.op) :
    exec (.peerAccessArrival x) s = .next { s with reply := .nakAccess } := by
  show Host.Outcome.next (if (s.copied (.hbm ((s.part x.part).windowBase + x.off)) (peerSize x.op) || s.attestOnly) = true then s
    else if (s.part x.part).windowSize < x.off + peerSize x.op then { s with reply := .nakAccess } else _) = _
  rw [hf, hr, if_neg (by decide), if_pos h]

section Answered
variable {node part off : Nat} {s : State}

theorem exec_peerAccessArrival_read {n : Nat} (h : PeerAnswered ⟨node, part, off, .read n⟩ s) :
    exec (.peerAccessArrival ⟨node, part, off, .read n⟩) s =
      .next (let a := (s.part part).windowBase + off
        let u := s.arrivedAll part node (s.part part).windowBase a n [.read]
        if u.readBad (.hbm a) n then { u with reply := .uncorrected } else { u.readsOutside (.hbm a) n with reply := .data (Memory.bytes u.hbm a n) }) := by
  obtain ⟨hr, hf, hi⟩ := h
  dsimp only [peerSize] at hf hi
  unfold exec execPeerAccessArrival
  dsimp only
  rw [hf, hr, if_neg (by decide), if_neg (by omega)]
  rfl

theorem exec_peerAccessArrival_write {d : Bytes} (h : PeerAnswered ⟨node, part, off, .write d⟩ s) :
    exec (.peerAccessArrival ⟨node, part, off, .write d⟩) s =
      .next (let a := (s.part part).windowBase + off
        let u := s.arrivedAll part node (s.part part).windowBase a d.length [.write]
        { (u.writeOutside (.hbm a) d).writeGood (.hbm a) d.length with reply := .ack }) := by
  obtain ⟨hr, hf, hi⟩ := h
  dsimp only [peerSize] at hf hi
  unfold exec execPeerAccessArrival
  dsimp only
  rw [hf, hr, if_neg (by decide), if_neg (by omega)]

theorem exec_peerAccessArrival_atomic {op sz : Nat} {v new : Word} (h : PeerAnswered ⟨node, part, off, .atomic op sz v new⟩ s) :
    exec (.peerAccessArrival ⟨node, part, off, .atomic op sz v new⟩) s =
      .next (let a := (s.part part).windowBase + off
        let u := s.arrivedAll part node (s.part part).windowBase a (2 ^ sz) [.atomic]
        if u.readBad (.hbm a) (2 ^ sz) then { u with reply := .uncorrected }
        else
          let old := BitVec.ofNat 64 (Memory.le u.hbm a (2 ^ sz))
          { (match atomicNew (atomicOf op) (8 * 2 ^ sz) old v new with
            | some w => ((u.readsOutside (.hbm a) (2 ^ sz)).writeOutside (.hbm a) (leBytes (2 ^ sz) w.toNat)
                (u.relsSeen outsider (.hbm a) (2 ^ sz))).writeGood (.hbm a) (2 ^ sz)
            | none => u.readsOutside (.hbm a) (2 ^ sz)) with reply := .data (leBytes (2 ^ sz) old.toNat) }) := by
  obtain ⟨hr, hf, hi⟩ := h
  dsimp only [peerSize] at hf hi
  unfold exec execPeerAccessArrival
  dsimp only
  rw [hf, hr, if_neg (by decide), if_neg (by omega)]
  rfl

theorem exec_peerAccessArrival_await {sz cond : Nat} {v : Word} (h : PeerAnswered ⟨node, part, off, .await sz cond v⟩ s) :
    exec (.peerAccessArrival ⟨node, part, off, .await sz cond v⟩) s =
      .next (let a := (s.part part).windowBase + off
        let u := s.arrivedAll part node (s.part part).windowBase a (2 ^ sz) [.atomic]
        if s.readBad (.hbm a) (2 ^ sz) then { u with reply := .uncorrected }
        else
          let w := loadValue sz (2 ≤ cond && cond ≤ 5) (Memory.bytes s.hbm a (2 ^ sz))
          if awaitHolds cond sz w v then { u.readsOutside (.hbm a) (2 ^ sz) with reply := .data (leBytes (2 ^ sz) w.toNat) } else s) := by
  obtain ⟨hr, hf, hi⟩ := h
  dsimp only [peerSize] at hf hi
  unfold exec execPeerAccessArrival
  dsimp only
  rw [hf, hr, if_neg (by decide), if_neg (by omega)]
  rfl

end Answered

section Effects
variable {x : PeerAccess} {s u : State} {a n : Nat}

theorem PeerAnswered.read (h : PeerAnswered x s) (hop : x.op = .read n) (ha : a = (s.part x.part).windowBase + x.off)
    (hu : u = s.arrivedAll x.part x.node (s.part x.part).windowBase a n [.read]) (hgood : s.readBad (.hbm a) n = false) :
    ∃ t, exec (.peerAccessArrival x) s = .next t ∧ t.reply = .data (Memory.bytes u.hbm a n) ∧ t.hbm = u.hbm ∧ t.cores = s.cores ∧ t.parts = u.parts := by
  obtain ⟨node, part, off, op⟩ := x
  dsimp only at hop
  subst hop ha
  have harr : s.ArrivesTo u := hu ▸ s.arrivesTo_arrivedAll ..
  rw [exec_peerAccessArrival_read h]
  dsimp only at hu ⊢
  rw [← hu, harr.readBad_hbm, hgood, if_neg Bool.false_ne_true]
  obtain ⟨o, ho⟩ := u.readsOutside_frame (.hbm ((s.part part).windowBase + off)) n
  rw [ho]
  exact ⟨_, rfl, rfl, rfl, harr.cores_eq, rfl⟩

theorem PeerAnswered.read_bad (h : PeerAnswered x s) (hop : x.op = .read n) (ha : a = (s.part x.part).windowBase + x.off)
    (hu : u = s.arrivedAll x.part x.node (s.part x.part).windowBase a n [.read]) (hbad : s.readBad (.hbm a) n = true) :
    exec (.peerAccessArrival x) s = .next { u with reply := .uncorrected } := by
  obtain ⟨node, part, off, op⟩ := x
  dsimp only at hop
  subst hop ha
  have harr : s.ArrivesTo u := hu ▸ s.arrivesTo_arrivedAll ..
  rw [exec_peerAccessArrival_read h]
  dsimp only at hu ⊢
  rw [← hu, harr.readBad_hbm, hbad, if_pos rfl]

theorem PeerAnswered.write {d : Bytes} (h : PeerAnswered x s) (hop : x.op = .write d) (ha : a = (s.part x.part).windowBase + x.off)
    (hu : u = s.arrivedAll x.part x.node (s.part x.part).windowBase a d.length [.write]) :
    ∃ t, exec (.peerAccessArrival x) s = .next t ∧ t.hbm = Memory.store u.hbm a d ∧ t.reply = .ack ∧ t.cores = s.cores ∧ t.parts = u.parts := by
  obtain ⟨node, part, off, op⟩ := x
  dsimp only at hop
  subst hop ha
  have harr : s.ArrivesTo u := hu ▸ s.arrivesTo_arrivedAll ..
  rw [exec_peerAccessArrival_write h]
  dsimp only at hu ⊢
  rw [← hu]
  exact ⟨_, rfl, rfl, rfl, harr.cores_eq, rfl⟩

theorem PeerAnswered.atomic {op sz : Nat} {v new : Word} (h : PeerAnswered x s) (hop : x.op = .atomic op sz v new)
    (ha : a = (s.part x.part).windowBase + x.off) (hu : u = s.arrivedAll x.part x.node (s.part x.part).windowBase a (2 ^ sz) [.atomic])
    (hgood : s.readBad (.hbm a) (2 ^ sz) = false) :
    ∃ t, exec (.peerAccessArrival x) s = .next t ∧ t.cores = s.cores ∧ t.parts = u.parts ∧
      t.reply = .data (leBytes (2 ^ sz) (BitVec.ofNat 64 (Memory.le u.hbm a (2 ^ sz))).toNat) ∧
      t.hbm = (match atomicNew (atomicOf op) (8 * 2 ^ sz) (BitVec.ofNat 64 (Memory.le u.hbm a (2 ^ sz))) v new with
        | some r => Memory.store u.hbm a (leBytes (2 ^ sz) r.toNat)
        | none => u.hbm) := by
  obtain ⟨node, part, off, op⟩ := x
  dsimp only at hop
  subst hop ha
  have harr : s.ArrivesTo u := hu ▸ s.arrivesTo_arrivedAll ..
  rw [exec_peerAccessArrival_atomic h]
  dsimp only at hu ⊢
  rw [← hu, harr.readBad_hbm, hgood, if_neg Bool.false_ne_true]
  obtain ⟨o, ho⟩ := u.readsOutside_frame (.hbm ((s.part part).windowBase + off)) (2 ^ sz)
  rw [ho]
  cases atomicNew (atomicOf op) (8 * 2 ^ sz) (BitVec.ofNat 64 (Memory.le u.hbm ((s.part part).windowBase + off) (2 ^ sz))) v new with
  | some r => exact ⟨_, rfl, harr.cores_eq, rfl, rfl, rfl⟩
  | none => exact ⟨_, rfl, harr.cores_eq, rfl, rfl, rfl⟩

theorem PeerAnswered.await {sz cond : Nat} {v w : Word} (h : PeerAnswered x s) (hop : x.op = .await sz cond v)
    (ha : a = (s.part x.part).windowBase + x.off) (hu : u = s.arrivedAll x.part x.node (s.part x.part).windowBase a (2 ^ sz) [.atomic])
    (hgood : s.readBad (.hbm a) (2 ^ sz) = false) (hw : w = loadValue sz (2 ≤ cond && cond ≤ 5) (Memory.bytes s.hbm a (2 ^ sz))) :
    (awaitHolds cond sz w v = true → ∃ t, exec (.peerAccessArrival x) s = .next t ∧ t.reply = .data (leBytes (2 ^ sz) w.toNat) ∧
      t.hbm = u.hbm ∧ t.cores = s.cores ∧ t.parts = u.parts) ∧
    (awaitHolds cond sz w v = false → exec (.peerAccessArrival x) s = .next s) := by
  obtain ⟨node, part, off, op⟩ := x
  dsimp only at hop
  subst hop ha
  have harr : s.ArrivesTo u := hu ▸ s.arrivesTo_arrivedAll ..
  rw [exec_peerAccessArrival_await h]
  dsimp only at hu ⊢
  rw [← hu, ← hw, hgood, if_neg Bool.false_ne_true]
  constructor
  · intro hholds
    obtain ⟨o, ho⟩ := u.readsOutside_frame (.hbm ((s.part part).windowBase + off)) (2 ^ sz)
    rw [if_pos hholds, ho]
    exact ⟨_, rfl, rfl, rfl, harr.cores_eq, rfl⟩
  · intro hnot
    rw [hnot, if_neg Bool.false_ne_true]

end Effects

/-! All operations together: with the page counters off and nothing armed, and in general. -/

theorem exec_peerAccessArrival_unwatched (x : PeerAccess) (s : State) (hc : s.balore.pcbase.getLsbD 0 = false) (hw : (s.part x.part).armed = [])
    (hr : s.attestOnly = false) :
    let a := (s.part x.part).windowBase + x.off
    let size := (s.part x.part).windowSize
    (∀ n, x.op = .read n → s.copied (.hbm a) n = false → x.off + n ≤ size → s.readBad (.hbm a) n = false →
      ∃ t, exec (.peerAccessArrival x) s = .next t ∧ t.reply = .data (Memory.bytes s.hbm a n) ∧ t.hbm = s.hbm ∧ t.cores = s.cores ∧ t.parts = s.parts) ∧
    (∀ d, x.op = .write d → s.copied (.hbm a) d.length = false → x.off + d.length ≤ size →
      ∃ t, exec (.peerAccessArrival x) s = .next t ∧ t.hbm = Memory.store s.hbm a d ∧ t.reply = .ack ∧ t.cores = s.cores) ∧
    (∀ op sz v w, x.op = .atomic op sz v w → s.copied (.hbm a) (2 ^ sz) = false → x.off + 2 ^ sz ≤ size → s.readBad (.hbm a) (2 ^ sz) = false →
      ∃ t, exec (.peerAccessArrival x) s = .next t ∧ t.cores = s.cores ∧
        t.hbm = (match atomicNew (atomicOf op) (8 * 2 ^ sz) (BitVec.ofNat 64 (Memory.le s.hbm a (2 ^ sz))) v w with
          | some r => Memory.store s.hbm a (leBytes (2 ^ sz) r.toNat)
          | none => s.hbm)) := by
  intro a size
  have answered {n : Nat} (hn : peerSize x.op = n) (hf : s.copied (.hbm a) n = false) (hi : x.off + n ≤ size) : PeerAnswered x s := by
    subst hn
    exact ⟨hr, hf, hi⟩
  refine ⟨fun n hop hf hi hgood => ?_, fun d hop hf hi => ?_, fun op sz v w hop hf hi hgood => ?_⟩
  · obtain ⟨ms, hu⟩ := State.arrivedAll_unwatched hc hw x.node (s.part x.part).windowBase a n [.read]
    exact (answered (by rw [hop]; rfl) hf hi).read (u := { s with meters := ms }) hop rfl hu.symm hgood
  · obtain ⟨ms, hu⟩ := State.arrivedAll_unwatched hc hw x.node (s.part x.part).windowBase a d.length [.write]
    obtain ⟨t, hstep, hhbm, hreply, hcores, -⟩ := (answered (by rw [hop]; rfl) hf hi).write (u := { s with meters := ms }) hop rfl hu.symm
    exact ⟨t, hstep, hhbm, hreply, hcores⟩
  · obtain ⟨ms, hu⟩ := State.arrivedAll_unwatched hc hw x.node (s.part x.part).windowBase a (2 ^ sz) [.atomic]
    obtain ⟨t, hstep, hcores, -, -, hhbm⟩ := (answered (by rw [hop]; rfl) hf hi).atomic (u := { s with meters := ms }) hop rfl hu.symm hgood
    exact ⟨t, hstep, hcores, hhbm⟩

theorem exec_peerAccessArrival_watched (x : PeerAccess) (s : State) (hr : s.attestOnly = false)
    (hf : s.copied (.hbm ((s.part x.part).windowBase + x.off)) (peerSize x.op) = false) :
    let a := (s.part x.part).windowBase + x.off
    let n := peerSize x.op
    let u (k : WatchKind) : State := s.arrivedAll x.part x.node (s.part x.part).windowBase a n [k]
    ((s.part x.part).windowSize < x.off + n → exec (.peerAccessArrival x) s = .next { s with reply := .nakAccess }) ∧
    (x.off + n ≤ (s.part x.part).windowSize →
      (x.op = .read n →
        (s.readBad (.hbm a) n = false → ∃ t, exec (.peerAccessArrival x) s = .next t ∧ t.reply = .data (Memory.bytes (u .read).hbm a n) ∧
          t.hbm = (u .read).hbm ∧ t.cores = s.cores ∧ t.parts = (u .read).parts) ∧
        (s.readBad (.hbm a) n = true → exec (.peerAccessArrival x) s = .next { u .read with reply := .uncorrected })) ∧
      (∀ d, x.op = .write d →
        ∃ t, exec (.peerAccessArrival x) s = .next t ∧ t.hbm = Memory.store (u .write).hbm a d ∧ t.reply = .ack ∧ t.cores = s.cores ∧
          t.parts = (u .write).parts) ∧
      (∀ op sz v w, x.op = .atomic op sz v w → s.readBad (.hbm a) n = false →
        let old := BitVec.ofNat 64 (Memory.le (u .atomic).hbm a n)
        ∃ t, exec (.peerAccessArrival x) s = .next t ∧ t.cores = s.cores ∧ t.parts = (u .atomic).parts ∧ t.reply = .data (leBytes n old.toNat) ∧
          t.hbm = (match atomicNew (atomicOf op) (8 * n) old v w with
            | some r => Memory.store (u .atomic).hbm a (leBytes n r.toNat)
            | none => (u .atomic).hbm)) ∧
      (∀ sz cond v, x.op = .await sz cond v → s.readBad (.hbm a) n = false →
        let w := loadValue sz (2 ≤ cond && cond ≤ 5) (Memory.bytes s.hbm a n)
        (awaitHolds cond sz w v = true → ∃ t, exec (.peerAccessArrival x) s = .next t ∧ t.reply = .data (leBytes n w.toNat) ∧
          t.hbm = (u .atomic).hbm ∧ t.cores = s.cores ∧ t.parts = (u .atomic).parts) ∧
        (awaitHolds cond sz w v = false → exec (.peerAccessArrival x) s = .next s))) := by
  intro a n u
  refine ⟨exec_peerAccessArrival_outside hr hf, fun hi => ?_⟩
  have answered : PeerAnswered x s := ⟨hr, hf, hi⟩
  refine ⟨fun hop => ⟨answered.read hop rfl rfl, answered.read_bad hop rfl rfl⟩, fun d hop => ?_, fun op sz v w hop => ?_, fun sz cond v hop => ?_⟩
  · have hn : n = d.length := congrArg peerSize hop
    exact answered.write hop rfl (by rw [← hn])
  · have hn : n = 2 ^ sz := congrArg peerSize hop
    rw [hn]
    exact answered.atomic hop rfl (by rw [← hn])
  · have hn : n = 2 ^ sz := congrArg peerSize hop
    rw [hn]
    exact fun hgood => answered.await hop rfl (by rw [← hn]) hgood rfl

/-! ### The loss of a node

Losing a route stops groups and may leave part of a store behind; it never changes which context a core belongs to,
nor which nodes are lost. -/

@[simp] theorem Core.modAop_owner (c : Core) (q : Nat) (f : AOp → AOp) : (c.modAop q f).owner = c.owner := rfl

@[simp] theorem Core.leftBuffer_owner (c : Core) (o : AOp) : (c.leftBuffer o).owner = c.owner := by
  unfold Core.leftBuffer
  (repeat' split) <;> rfl

@[simp] theorem Core.markOp_owner (c : Core) (k : Cause) : (c.markOp k).owner = c.owner := by
  unfold Core.markOp
  split <;> rfl

@[simp] theorem Core.joinCause_owner (c : Core) (k : Cause) : (c.joinCause k).owner = c.owner := by
  unfold Core.joinCause
  split <;> simp

@[simp] theorem Core.joinWatch_owner (c : Core) : c.joinWatch.owner = c.owner := by
  refine List.foldlRecOn (motive := fun d : Core => d.owner = c.owner) _ _ rfl fun d hd m _ => ?_
  (repeat' split) <;> simp [hd]

@[simp] theorem Core.giveBack_owner (c : Core) : c.giveBack.owner = c.owner := by
  unfold Core.giveBack
  dsimp only
  (repeat' split) <;> rfl

@[simp] theorem Core.writeSurvey_owner (c : Core) (n now : Nat) : (c.writeSurvey n now).owner = c.owner := by
  rw [Core.writeSurvey, Core.touch_owner]

/-- The lost nodes are `lost`, and each core's context is what `own` says. -/
def State.Owned (lost : List Nat) (own : Nat → Nat) (s : State) : Prop := s.lostNodes = lost ∧ ∀ n, (s.core n).owner = own n

section Owned
variable {lost : List Nat} {own : Nat → Nat} {s : State}

theorem State.Owned.self (s : State) : s.Owned s.lostNodes fun n => (s.core n).owner := ⟨rfl, fun _ => rfl⟩

/-- The changes of a state that leave its cores and its lost nodes alone. -/
theorem State.Owned.of_cores (h : s.Owned lost own) {t : State} (hc : t.cores = s.cores) (hl : t.lostNodes = s.lostNodes) : t.Owned lost own := by
  refine ⟨hl.trans h.1, fun n => ?_⟩
  unfold State.core
  rw [hc]
  exact h.2 n

theorem State.Owned.ite {p : Prop} [Decidable p] {a b : State} (ha : a.Owned lost own) (hb : b.Owned lost own) : (if p then a else b).Owned lost own := by
  split
  · exact ha
  · exact hb

theorem State.Owned.foldl {α : Type} (h : s.Owned lost own) {f : State → α → State} (hf : ∀ s x, s.Owned lost own → (f s x).Owned lost own) (l : List α) :
    (l.foldl f s).Owned lost own :=
  List.foldlRecOn _ _ h fun t ht x _ => hf t x ht

theorem State.Owned.modCore (h : s.Owned lost own) (n : Nat) {f : Core → Core} (hf : ∀ c, (f c).owner = c.owner) : (s.modCore n f).Owned lost own := by
  refine ⟨h.1, fun m => ?_⟩
  by_cases hm : m = n
  · rw [hm, State.core_modCore_self, hf, h.2]
  · rw [State.core_modCore_other _ _ hm, h.2]

theorem State.Owned.setGrp (h : s.Owned lost own) (g : Grp) : (s.setGrp g).Owned lost own := h

theorem State.Owned.writeRaw (h : s.Owned lost own) (me : Nat) (p : Place) (d : Bytes) : (s.writeRaw me p d).Owned lost own := by
  cases p with
  | hbm a => exact h
  | sp c off => exact h.modCore c fun _ => rfl
  | slot o off => exact h.modCore me fun _ => rfl
  | peer node off => exact h
  | reg r => exact h

theorem State.Owned.writePlace (h : s.Owned lost own) (me : Nat) (p : Place) (d : Bytes) (t : Tag) : (s.writePlace me p d t).Owned lost own :=
  (h.writeRaw me p d).of_cores rfl rfl

theorem State.Owned.reveal (h : s.Owned lost own) (ms : List Nat) (sel : Veil → Bool) (learn : Bool) : (s.reveal ms sel learn).Owned lost own := by
  rw [State.reveal_frame]
  exact h

theorem State.Owned.reads (h : s.Owned lost own) (m space : Nat) (p : Place) (n : Nat) (acq : Option Nat) : (s.reads m space p n acq).Owned lost own := by
  unfold State.reads
  split
  · exact h
  · have hheard (rs : List Rel) : (s.modCore m fun c => { c with heard := (rs ++ c.heard).eraseDups }).Owned lost own := h.modCore m fun _ => rfl
    dsimp only
    split
    · exact (hheard _).foldl (fun _ _ ht => ht.reveal ..) _
    · exact hheard _

theorem State.Owned.charge (h : s.Owned lost own) (pn : Nat) (p : Place) (d : Bytes) : (s.charge pn p d).Owned lost own := by
  cases p <;> exact h

theorem State.Owned.settleOne (h : s.Owned lost own) (n : Nat) (o : AOp) : (s.settleOne n o).Owned lost own := by
  have hload (pn space : Nat) (d : Bytes) (k : Nat) (acq : Option Nat) (f : Core → Core) (hf : ∀ c, (f c).owner = c.owner) :
      (((s.charge pn o.place d).reads n space o.place k acq).modCore n f).Owned lost own := ((h.charge ..).reads ..).modCore n hf
  have hstore (pn : Nat) (d : Bytes) (t : Tag) (f : Core → Core) (hf : ∀ c, (f c).owner = c.owner) :
      (((s.charge pn o.place d).writePlace n o.place d t).modCore n f).Owned lost own := ((h.charge ..).writePlace ..).modCore n hf
  unfold State.settleOne
  split
  · refine .ite h ?_
    dsimp only
    split
    case h_5 => exact h
    case h_1 | h_2 => exact hload _ _ _ _ _ _ fun _ => rfl
    case h_3 | h_4 => exact hstore _ _ _ _ fun _ => rfl
  · exact h

theorem State.Owned.settle (h : s.Owned lost own) (n : Nat) : (s.settle n).Owned lost own := by
  unfold State.settle
  exact .ite h (h.foldl (fun _ o ht => ht.settleOne n o) _)

theorem State.Owned.storeHbm (h : s.Owned lost own) (a : Nat) (d : Bytes) : (s.storeHbm a d).Owned lost own := .ite h h

theorem State.Owned.setPart (h : s.Owned lost own) (pn : Nat) (v : Part) : (s.setPart pn v).Owned lost own := h

theorem State.Owned.trace (h : s.Owned lost own) (pn src kind a : Nat) (b : Word) : (s.trace pn src kind a b).Owned lost own := by
  unfold State.trace
  exact .ite h (.ite (h.setPart ..) ((h.setPart ..).storeHbm ..))

theorem State.Owned.slipEnds (h : s.Owned lost own) (g : Grp) : (s.slipEnds g).Owned lost own := by
  unfold State.slipEnds
  split
  · exact h.trace ..
  · exact h

theorem State.Owned.freeze (h : s.Owned lost own) (g : Grp) (n : Nat) : (s.freeze g n).Owned lost own := by
  refine h.modCore n fun c => ?_
  dsimp only
  split
  · exact c.giveBack_owner
  · exact (Core.writeSurvey_owner ..).trans c.giveBack_owner

theorem State.Owned.stop (h : s.Owned lost own) (n : Nat) (k : Cause) : (s.stop n k).Owned lost own := by
  unfold State.stop
  split
  · exact h
  next g _ =>
    have hs : (g.cores.foldl State.settle s).Owned lost own := h.foldl (fun _ m ht => ht.settle m) _
    refine .ite ?_ (.ite ?_ (.ite ?_ hs))
    · have hcleared := (hs.slipEnds g).foldl (f := fun s c => s.modCore c fun x => x.putCause { cause := 0 }) (fun _ c ht => ht.modCore c fun _ => rfl) g.cores
      have hjoined := hcleared.modCore n (f := fun c => c.joinCause k) fun c => c.joinCause_owner k
      have hwatched := hjoined.foldl (f := fun s c => s.modCore c Core.joinWatch) (fun _ c ht => ht.modCore c Core.joinWatch_owner) g.cores
      exact State.Owned.setGrp ((hwatched.foldl (fun _ c ht => ht.freeze g c) _).foldl (fun _ c ht => ht.trace ..) _) _
    · have hput : ∀ c : Core, ({ c.putCause k with toSupv := true } : Core).owner = c.owner := fun c => c.putCause_owner k
      exact State.Owned.setGrp (hs.modCore n hput) _
    · refine hs.modCore n fun c => ?_
      split
      · exact c.joinCause_owner k
      · exact (Core.writeSurvey_owner ..).trans (c.joinCause_owner k)

theorem State.Owned.maybeStore (h : s.Owned lost own) (o : AOp) (a : Acc) : (s.maybeStore o a).Owned lost own := by
  have hs1 : State.Owned lost own { s with free := s.free + 1 } := h
  unfold State.maybeStore
  refine .ite (.ite ?_ hs1) h
  extract_lets old d
  cases d with
  | some d => exact hs1.writePlace ..
  | none => exact hs1

theorem State.Owned.loseAccess (h : s.Owned lost own) (n pn : Nat) (o : AOp) (a : Acc) : (s.loseAccess n pn o a).Owned lost own := by
  have hleft {t : State} (ht : t.Owned lost own) : (t.modCore n fun c => c.leftBuffer o).Owned lost own := ht.modCore n fun c => c.leftBuffer_owner o
  unfold State.loseAccess
  dsimp only
  refine (hleft ?_).stop ..
  split
  · exact .ite (h.maybeStore ..) h
  · exact h

theorem State.Owned.maybeChunk (h : s.Owned lost own) (n pn : Nat) (m : Cmd) (w : Place) (k : Nat) : (s.maybeChunk n pn m w k).Owned lost own :=
  .ite h (State.Owned.of_cores (h.writePlace outsider w _ {}) rfl rfl)

theorem State.Owned.loseRoute (h : s.Owned lost own) (n node : Nat) : (s.loseRoute n node).Owned lost own := by
  unfold State.loseRoute
  extract_lets c aims s1
  have hs1 : s1.Owned lost own := by
    refine h.foldl (fun t o ht => ?_) _
    split
    · exact .ite (ht.loseAccess ..) ht
    · exact ht
  clear_value s1
  split
  · split
    · refine State.Owned.stop ?_ ..
      split
      · exact .ite hs1 (hs1.maybeChunk ..)
      · exact hs1
    · exact hs1
  · exact hs1

end Owned

/-! Folds in which only one element counts. -/

theorem foldl_eq_self {α : Type} {f : State → α → State} {s : State} {l : List α} (h : ∀ x ∈ l, f s x = s) : l.foldl f s = s :=
  List.foldlRecOn (motive := (· = s)) _ _ rfl fun t ht x hx => by rw [ht, h x hx]

theorem foldl_eq_single {α : Type} {f : State → α → State} {s : State} {l : List α} {n : α} (hl : l.Nodup) (hn : n ∈ l)
    (hs : ∀ x ∈ l, x ≠ n → f s x = s) (hfs : ∀ x ∈ l, x ≠ n → f (f s n) x = f s n) : l.foldl f s = f s n := by
  obtain ⟨l₁, l₂, rfl⟩ := List.append_of_mem hn
  obtain ⟨hn₁, hn₂⟩ : n ∉ l₁ ∧ n ∉ l₂ := by
    rw [List.nodup_append, List.nodup_cons] at hl
    obtain ⟨-, ⟨hn₂, -⟩, hne⟩ := hl
    exact ⟨fun hn₁ => hne n hn₁ n (List.mem_cons_self) rfl, hn₂⟩
  have h₁ : l₁.foldl f s = s := foldl_eq_self fun x hx => hs x (by simp [hx]) fun heq => hn₁ (heq ▸ hx)
  have h₂ : l₂.foldl f (f s n) = f s n := foldl_eq_self fun x hx => hfs x (by simp [hx]) fun heq => hn₂ (heq ▸ hx)
  rw [List.foldl_append, h₁, List.foldl_cons, h₂]

/-- A core none of whose accesses aims at the lost node goes on. -/
theorem State.loseRoute_of_notAimed {s : State} {n k : Nat} (hcmds : (s.core n).cmds = [])
    (haops : ∀ o ∈ (s.core n).aops, spaceOf o.addr = 2 → peerNode o.addr ≠ k) : s.loseRoute n k = s := by
  unfold State.loseRoute
  extract_lets c aims s1
  have hs1 : s1 = s := by
    refine foldl_eq_self fun o ho => ?_
    have haim : aims o.addr = false := by
      simp only [aims, Bool.and_eq_false_imp, beq_iff_eq, beq_eq_false_iff_ne]
      exact haops o ho
    rw [haim, Bool.and_false]
    split <;> rfl
  rw [hcmds]
  exact hs1

/-- Of an access that was not yet about to be performed nothing has reached the lost node. -/
theorem State.loseAccess_of_notReady {o : AOp} (h : (o.phase == APhase.ready) = false) (s : State) (n pn : Nat) (a : Acc) :
    s.loseAccess n pn o a = (s.modCore n fun c => c.leftBuffer o).failA n o { cause := 0x20 } := by
  unfold State.loseAccess
  extract_lets c sent s1
  have hs1 : s1 = s := by
    clear_value sent
    dsimp only [s1]
    rw [h, Bool.false_and]
    cases sent <;> rfl
  rw [hs1]

/-- A walking access of a core that aims at the lost node raises MEMORY-UNCORRECTED; a prefetch raises nothing (R292). -/
theorem State.loseRoute_walking {s : State} {n k pn : Nat} {o : AOp} (haops : (s.core n).aops = [o]) (hcmds : (s.core n).cmds = [])
    (hpart : (s.core n).part = some pn) (hphase : o.phase = .walking) (hbuf : o.buf = none) (hspace : spaceOf o.addr = 2) (hnode : peerNode o.addr = k) :
    (∀ a, accOf o.instr = some a →
      s.loseRoute n k = (s.modCore n fun c => c.leftBuffer o).stop n { cause := 0x20, engine := 1, iseq := o.iseq, addr := o.addr }) ∧
    (accOf o.instr = none → s.loseRoute n k = s) := by
  have hroute : s.loseRoute n k = match accOf o.instr with
      | some a => s.loseAccess n pn o a
      | none => s := by
    unfold State.loseRoute
    dsimp only
    rw [hcmds, haops, hpart]
    cases ha : accOf o.instr <;> simp [ha, hphase, hspace, hnode]
  refine ⟨fun a ha => ?_, fun ha => ?_⟩
  · have hnotReady : (o.phase == APhase.ready) = false := by
      rw [hphase]
      rfl
    rw [hroute, ha]
    dsimp only
    rw [State.loseAccess_of_notReady hnotReady, State.failA, hbuf]
    rfl
  · rw [hroute, ha]

/-- What the loss of a node does to one core: a core with no context has no accesses to lose. -/
def State.loseNode (node : Nat) (s : State) (n : Nat) : State := if (s.core n).owner = 0 then s else s.loseRoute n node

theorem exec_routeLossTimeout (k : Nat) (s : State) :
    exec (.routeLossTimeout k) s = .next ((List.range 192).foldl (State.loseNode k)
      { s with lostNodes := if s.lostNodes.contains k then s.lostNodes else k :: s.lostNodes }) := rfl

theorem State.loseNode_of_free {k n : Nat} {s : State} (h : (s.core n).owner = 0) : State.loseNode k s n = s := if_pos h

theorem State.loseNode_of_owned {k n : Nat} {s : State} (h : (s.core n).owner ≠ 0) : State.loseNode k s n = s.loseRoute n k := if_neg h

theorem State.Owned.loseNode {lost : List Nat} {own : Nat → Nat} {s : State} (h : s.Owned lost own) (k n : Nat) : (State.loseNode k s n).Owned lost own :=
  .ite h (h.loseRoute n k)

theorem mem_lostNodes_insert (l : List Nat) (k : Nat) : k ∈ if l.contains k then l else k :: l := by
  by_cases h : l.contains k
  · rw [if_pos h]
    exact List.contains_iff_mem.mp h
  · rw [if_neg h]
    exact List.mem_cons_self

theorem exec_routeLossTimeout_lostNodes (k : Nat) (s : State) : ∃ t, exec (.routeLossTimeout k) s = .next t ∧ k ∈ t.lostNodes := by
  refine ⟨_, exec_routeLossTimeout k s, ?_⟩
  rw [((State.Owned.self _).foldl (fun _ n ht => ht.loseNode k n) _).1]
  exact mem_lostNodes_insert s.lostNodes k

theorem exec_routeLossTimeout_notAimed {k : Nat} {s : State}
    (h : ∀ n, n < 192 → (s.core n).owner = 0 ∨ ((s.core n).cmds = [] ∧ ∀ o ∈ (s.core n).aops, spaceOf o.addr = 2 → peerNode o.addr ≠ k)) :
    ∃ t, exec (.routeLossTimeout k) s = .next t ∧ k ∈ t.lostNodes ∧ t.cores = s.cores ∧ t.hbm = s.hbm := by
  rw [exec_routeLossTimeout, foldl_eq_self]
  · exact ⟨_, rfl, mem_lostNodes_insert s.lostNodes k, rfl, rfl⟩
  · intro n hn
    obtain hfree | ⟨hcmds, haops⟩ := h n (List.mem_range.mp hn)
    · exact State.loseNode_of_free hfree
    · exact (ite_eq_left_iff.mpr fun _ => State.loseRoute_of_notAimed hcmds haops)

theorem exec_routeLossTimeout_only {k n : Nat} {s : State} (hn : n < 192) (hown : (s.core n).owner ≠ 0)
    (hfree : ∀ m, m < 192 → m ≠ n → (s.core m).owner = 0) (hk : k ∉ s.lostNodes) :
    exec (.routeLossTimeout k) s = .next (State.loseRoute { s with lostNodes := k :: s.lostNodes } n k) := by
  have hnot : ¬ s.lostNodes.contains k = true := fun h => hk (List.contains_iff_mem.mp h)
  rw [exec_routeLossTimeout, if_neg hnot]
  have hcore (m : Nat) : State.core { s with lostNodes := k :: s.lostNodes } m = s.core m := rfl
  generalize ({ s with lostNodes := k :: s.lostNodes } : State) = s1 at hcore ⊢
  rw [← hcore] at hown
  have hother (m : Nat) (hm : m ∈ List.range 192) (hne : m ≠ n) : (s1.core m).owner = 0 := by
    rw [hcore]
    exact hfree m (List.mem_range.mp hm) hne
  rw [foldl_eq_single (n := n) List.nodup_range (List.mem_range.mpr hn), State.loseNode_of_owned hown]
  · exact fun m hm hne => State.loseNode_of_free (hother m hm hne)
  · exact fun m hm hne => State.loseNode_of_free ((((State.Owned.self s1).loseNode k n).2 m).trans (hother m hm hne))

/-! ### RoCEv2 operations -/

theorem State.vaCopied_of_nothing_copied {s : State} (h : s.copying = []) (pn va n : Nat) : s.vaCopied pn va n = false := by
  simp [State.vaCopied, h]

theorem State.copied_of_nothing_copied {s : State} (h : s.copying = []) (p : Place) (n : Nat) : s.copied p n = false := by
  unfold State.copied
  split
  · simp [h]
  · rfl

/-- A part whose stage 1 was refused answers only the attestation registers (log entry 71). -/
theorem State.unanswered_of_attestOnly {s : State} (h : s.attestOnly = true) {w : Bool} {a n : Nat} (hn : 0 < n)
    (hout : w = false ∨ a < 0x840 ∨ 0x880 ≤ a) : s.unanswered w a n = true := by
  have hnot : (w && decide (0x840 ≤ a) && decide (a + n ≤ 0x880)) = false := by
    obtain rfl | hlo | hhi := hout
    · rfl
    · rw [decide_eq_false (by omega : ¬ 0x840 ≤ a), Bool.and_false, Bool.false_and]
    · rw [decide_eq_false (by omega : ¬ a + n ≤ 0x880), Bool.and_false]
  simp [State.unanswered, h, hnot]

theorem exec_rdma_unanswered {s : State} (h : s.attestOnly = true) {w : Bool} {a : Word} (hout : w = false ∨ a.toNat < 0x840 ∨ 0x880 ≤ a.toNat)
    {n : Nat} {d : Bytes} (hn : 0 < n) (hd : d ≠ []) (p : Nat) :
    exec (.rdmaWrite p w a d) s = .next { s with reply := .none } ∧ exec (.rdmaRead p w a n) s = .next { s with reply := .none } :=
  ⟨congrArg Host.Outcome.next (if_pos (State.unanswered_of_attestOnly h (List.length_pos_iff.mpr hd) hout)),
    congrArg Host.Outcome.next (if_pos (State.unanswered_of_attestOnly h hn hout))⟩

section Space0
variable {s : State} {a : Word} (hr : s.attestOnly = false) (hc : s.copying = [])
include hr hc

/-- With nothing copied a write of space 0 is answered by what its range maps to. -/
theorem exec_rdmaWrite_space0 {d : Bytes} (hend : a.toNat + d.length ≤ 2 ^ 48) (ha : a.toNat < 2 ^ 48) (p : Nat) :
    exec (.rdmaWrite p false a d) s = .next (match s.places p a.toNat d.length true with
      | some l => { s.writePlaces l d with reply := .ack }
      | none => { s with reply := .nakAccess }) := by
  have hrange : ¬ (a.toNat / 2 ^ 48 ≠ 0 ∨ 2 ^ 48 < a.toNat + d.length) := by omega
  show execRdmaWrite p false a d s = _
  unfold execRdmaWrite State.unanswered
  rw [hr, Bool.false_and, if_neg Bool.false_ne_true, if_neg Bool.false_ne_true, if_neg hrange, State.vaCopied_of_nothing_copied hc,
    if_neg Bool.false_ne_true]
  cases s.places p a.toNat d.length true with
  | some l => simp [State.copied_of_nothing_copied hc]
  | none => rfl

theorem exec_rdmaRead_space0 {n : Nat} (hend : a.toNat + n ≤ 2 ^ 48) (ha : a.toNat < 2 ^ 48) (p : Nat) :
    exec (.rdmaRead p false a n) s = .next (match s.places p a.toNat n false with
      | some l => if l.any fun e => s.readBad e.1 e.2 then { s with reply := .uncorrected }
          else { s with reply := .data (l.flatMap fun e => s.readPlace e.1 e.2) }
      | none => { s with reply := .nakAccess }) := by
  have hrange : ¬ (a.toNat / 2 ^ 48 ≠ 0 ∨ 2 ^ 48 < a.toNat + n) := by omega
  show execRdmaRead p false a n s = _
  unfold execRdmaRead State.unanswered
  rw [hr, Bool.false_and, if_neg Bool.false_ne_true, if_neg Bool.false_ne_true, if_neg hrange, State.vaCopied_of_nothing_copied hc,
    if_neg Bool.false_ne_true]
  cases s.places p a.toNat n false with
  | some l => simp [State.copied_of_nothing_copied hc]
  | none => rfl

theorem exec_rdma_space0 {d : Bytes} (hend : a.toNat + d.length ≤ 2 ^ 48) (ha : a.toNat < 2 ^ 48) (p : Nat) :
    (∀ l, s.places p a.toNat d.length true = some l → exec (.rdmaWrite p false a d) s = .next { s.writePlaces l d with reply := .ack }) ∧
    (s.places p a.toNat d.length true = none → exec (.rdmaWrite p false a d) s = .next { s with reply := .nakAccess }) ∧
    (∀ l, s.places p a.toNat d.length false = some l → (∀ e ∈ l, s.readBad e.1 e.2 = false) →
      exec (.rdmaRead p false a d.length) s = .next { s with reply := .data (l.flatMap fun e => s.readPlace e.1 e.2) }) ∧
    (s.places p a.toNat d.length false = none → exec (.rdmaRead p false a d.length) s = .next { s with reply := .nakAccess }) := by
  rw [exec_rdmaWrite_space0 hr hc hend ha, exec_rdmaRead_space0 hr hc hend ha]
  refine ⟨fun l hl => ?_, fun hl => ?_, fun l hl hgood => ?_, fun hl => ?_⟩
  · rw [hl]
  · rw [hl]
  · have hany : ¬ (l.any fun e => s.readBad e.1 e.2) = true := by simpa using hgood
    rw [hl]
    dsimp only
    rw [if_neg hany]
  · rw [hl]

end Space0

/-! ### Partition configuration -/

theorem State.foldl_modCore_parts (f : Core → Core) (l : List Nat) (s : State) : (l.foldl (fun s c => s.modCore c f) s).parts = s.parts :=
  List.foldlRecOn (motive := fun t : State => t.parts = s.parts) _ _ rfl fun _ ht _ _ => ht

theorem State.core_foldl_modCore_of_notMem (f : Core → Core) {l : List Nat} {n : Nat} (h : n ∉ l) (s : State) :
    (l.foldl (fun s c => s.modCore c f) s).core n = s.core n := by
  refine List.foldlRecOn (motive := fun t : State => t.core n = s.core n) _ _ rfl fun t ht c hc => ?_
  have hne : n ≠ c := fun heq => h (heq ▸ hc)
  rw [State.core_modCore_other _ _ hne, ht]

theorem State.core_part_foldl_modCore {f : Core → Core} {v : Option Nat} (hf : ∀ k, (f k).part = v) {l : List Nat} {n : Nat} (h : n ∈ l) (s : State) :
    ((l.foldl (fun s c => s.modCore c f) s).core n).part = v := by
  induction l generalizing s with
  | nil => cases h
  | cons m l ih =>
    by_cases hn : n ∈ l
    · exact ih hn _
    · obtain rfl : n = m := (List.mem_cons.mp h).resolve_right hn
      rw [List.foldl_cons, State.core_foldl_modCore_of_notMem f hn, State.core_modCore_self, hf]

theorem State.retarget_frame (s : State) (r : Nat) : ∃ pw, s.retarget r = { s with power := pw } := by
  unfold State.retarget
  dsimp only
  split
  · exact ⟨s.power, rfl⟩
  · exact ⟨_, rfl⟩

theorem State.retargets_frame (s : State) : ∃ pw, s.retargets = { s with power := pw } := by
  refine List.foldlRecOn (motive := fun t : State => ∃ pw : Power, t = { s with power := pw }) _ _ ⟨s.power, rfl⟩ ?_
  rintro _ ⟨pw, rfl⟩ r -
  obtain ⟨pw', h⟩ := State.retarget_frame { s with power := pw } r
  exact ⟨pw', h⟩

@[simp] theorem State.part_retargets (s : State) (p : Nat) : s.retargets.part p = s.part p := by
  obtain ⟨pw, h⟩ := s.retargets_frame
  rw [h]
  rfl

@[simp] theorem State.core_retargets (s : State) (n : Nat) : s.retargets.core n = s.core n := by
  obtain ⟨pw, h⟩ := s.retargets_frame
  rw [h]
  rfl

/-- What a configuration makes of the partition's own record: a partition without cores is created anew. -/
def Part.configure (f : PartConfig) (q : Part) : Part :=
  let q := if q.cores.isEmpty then { q with arrivals := 0, history := [], pending := [], reserved := [] } else q
  { q with cores := f.cores, peers := f.peers, windowBase := f.windowBase, windowSize := f.windowSize }

theorem Part.configure_empty (f : PartConfig) {q : Part} (h : q.cores = []) : (q.configure f).arrivals = 0 ∧ (q.configure f).pending = [] := by
  simp [Part.configure, h]

theorem exec_partitionConfiguration_refused {s : State} {p : Nat} {f : PartConfig} (h : s.configOk p f = false) :
    exec (.partitionConfiguration p f) s = .next s := by
  show execPartitionConfiguration p f s = _
  unfold execPartitionConfiguration
  rw [h]
  rfl

theorem exec_partitionConfiguration_taken {s : State} {p : Nat} {f : PartConfig} (h : s.configOk p f = true) :
    ∃ t, exec (.partitionConfiguration p f) s = .next t ∧ (t.part p).cores = f.cores ∧ (t.part p).peers = f.peers ∧
      (t.part p).windowBase = f.windowBase ∧ (∀ c ∈ f.cores, (t.core c).part = some p) ∧
      (∀ c ∈ (s.part p).cores, c ∉ f.cores → (t.core c).part = none) ∧
      ((s.part p).cores = [] → (t.part p).arrivals = 0 ∧ (t.part p).pending = []) := by
  change ∃ t, execPartitionConfiguration p f s = .next t ∧ _
  unfold execPartitionConfiguration
  rw [h, if_neg (by decide)]
  dsimp only
  generalize hleft : List.foldl _ s _ = left
  generalize htaken : List.foldl _ left _ = taken
  have hparts : taken.part p = s.part p := by
    unfold State.part
    rw [← htaken, State.foldl_modCore_parts, ← hleft, State.foldl_modCore_parts]
  have hin : ∀ c ∈ f.cores, (taken.core c).part = some p := fun c hc => by
    rw [← htaken]
    refine State.core_part_foldl_modCore ?_ hc left
    exact fun _ => rfl
  have hout : ∀ c ∈ (s.part p).cores, c ∉ f.cores → (taken.core c).part = none := fun c hc hn => by
    rw [← htaken, State.core_foldl_modCore_of_notMem _ hn, ← hleft]
    refine State.core_part_foldl_modCore ?_ (List.mem_filter.mpr ⟨hc, by simpa using hn⟩) s
    exact fun _ => rfl
  clear hleft htaken
  refine ⟨State.retargets (State.modPart _ p (Part.configure f)), rfl, ?_⟩
  rw [State.part_retargets, State.modPart, State.part_setPart_self]
  refine ⟨rfl, rfl, rfl, fun c hc => ?_, fun c hc hn => ?_, fun hempty => ?_⟩
  · rw [State.core_retargets]
    exact hin c hc
  · rw [State.core_retargets]
    exact hout c hc hn
  · exact Part.configure_empty f (hparts.symm ▸ hempty)

/-- Settles O56: a write of the firmware by the class of its offset, a peer's access by its operation, and the loss of a node
from the fact that it leaves every core in its context. -/
theorem registersPeersAndPartitions : Obligations.RegistersPeersAndPartitions := by
  unfold Obligations.RegistersPeersAndPartitions
  refine ⟨fun p off v s => ?window, fun o v s => ?package, exec_peerAccessArrival_unwatched, exec_peerAccessArrival_watched, fun k s => ?lost,
    fun n k pn s o haops hcmds hpart hphase hbuf hspace hnode => State.loseRoute_walking haops hcmds hpart hphase hbuf hspace hnode,
    fun p n w a d s hr hout hn hd => exec_rdma_unanswered hr hout hn hd p, fun p a d s hr hc hend ha => exec_rdma_space0 hr hc hend ha p,
    fun _ _ => rfl, fun p f s => ⟨exec_partitionConfiguration_taken, exec_partitionConfiguration_refused⟩⟩
  case window =>
    refine ⟨fun h => ?_, fun m h => ?_, fun q hq => ?_, fun n hn => ?_, fun k hk => ?_, rfl, rfl, rfl, rfl, rfl, fun h => ?_, fun h => ?_, fun h => ?_,
      fun h => ?_, fun h => ?_⟩ <;> rw [exec_registerWrite_part]
    · rw [State.windowWrite_of_noWrite h]
    · rw [State.windowWrite_of_plainMask h]
    · rw [State.windowWrite_lqtail hq]
      rfl
    · rw [State.windowWrite_wpctl hn]
      show _ = Host.Outcome.next (if n < 8 then s.writeWpctl p n v else s)
      rw [if_pos hn]
    · rw [State.windowWrite_trsrc hk]
    · rw [State.windowWrite_408_placed h]
    · rw [State.windowWrite_408_free h]
    · rw [State.windowWrite_trcfg h]
    · rw [State.windowWrite_crcfg h]
    · rw [State.windowWrite_crcfg_ignored h]
  case package =>
    refine ⟨exec_registerWrite_power (by omega) v s, exec_registerWrite_power (by omega) v s, exec_registerWrite_power (by omega) v s,
      fun ha hlo hhi => ?_, fun h => ?_, fun hlo h => ?_, rfl, rfl⟩
    · rw [exec_registerWrite_power (by omega), State.powerWrite_plimit ha hlo hhi]
    · rw [exec_registerWrite_power (by omega), State.powerWrite_plimit_ignored h]
    · rw [exec_registerWrite_power hlo, State.powerWrite_other hlo h]
  case lost => exact ⟨exec_routeLossTimeout_lostNodes k s, exec_routeLossTimeout_notAimed, fun n hn => exec_routeLossTimeout_only hn⟩

end Sys2Proof.Machine

/-! SUPPORT. Registers of a partition's window, the entry of a context by its number, and what the shared writes of the device leave alone. -/

namespace Sys2Proof.Machine

/-! ### Registers of a partition's window -/

@[simp] theorem Part.reg_setReg_self (p : Part) (off : Nat) (v : Word) : (p.setReg off v).reg off = v := by
  simp [Part.reg, Part.setReg]

theorem Part.reg_setReg_other (p : Part) {off o : Nat} (v : Word) (h : o ≠ off) : (p.setReg off v).reg o = p.reg o := by
  rw [Part.reg, Part.setReg, sget_sset_other _ _ _ h, Part.reg]

/-- An index written to a register reads back. -/
@[simp] theorem Part.idx_setReg_mod (p : Part) (off n : Nat) : (p.setReg off (BitVec.ofNat 64 (n % 2 ^ 32))).idx off = n % 2 ^ 32 := by
  simp only [Part.idx, Part.reg_setReg_self, BitVec.toNat_ofNat]
  omega

@[simp] theorem Part.setReg_objs (p : Part) (off : Nat) (v : Word) : (p.setReg off v).objs = p.objs := rfl
@[simp] theorem Part.setReg_pending (p : Part) (off : Nat) (v : Word) : (p.setReg off v).pending = p.pending := rfl
@[simp] theorem Part.setReg_records (p : Part) (off : Nat) (v : Word) : (p.setReg off v).records = p.records := rfl

/-! ### Parts, cores and contexts of a state -/

@[simp] theorem State.part_modPart_self (s : State) (p : Nat) (f : Part → Part) : (s.modPart p f).part p = f (s.part p) := State.part_setPart_self ..

theorem State.part_of_parts {s t : State} (h : t.parts = s.parts) (p : Nat) : t.part p = s.part p := by
  rw [State.part, h, State.part]

theorem State.core_of_cores {s t : State} (h : t.cores = s.cores) (n : Nat) : t.core n = s.core n := by
  rw [State.core, h, State.core]

theorem State.grp?_of_groups {s t : State} (h : t.groups = s.groups) (k : Nat) : t.grp? k = s.grp? k := by
  rw [State.grp?, h, State.grp?]

/-- A context found by its number has it. -/
theorem State.num_of_grp? {s : State} {k : Nat} {g : Grp} (h : s.grp? k = some g) : g.num = k := by
  simpa using List.find?_some h

/-- A fold whose every step keeps a value of the state keeps it. -/
theorem State.foldl_keeps {α β : Type} (v : State → β) {f : State → α → State} (h : ∀ t x, v (f t x) = v t) (l : List α) (s : State) :
    v (l.foldl f s) = v s :=
  List.foldlRecOn (motive := fun t : State => v t = v s) _ _ rfl fun t ht x _ => (h t x).trans ht

@[simp] theorem State.mapCores_parts (s : State) (f : Nat → Core → Core) : (s.mapCores f).parts = s.parts :=
  State.foldl_keeps (f := fun s (e : Nat × Core) => s.modCore e.1 (f e.1)) (·.parts) (fun _ _ => rfl) s.cores s

/-! ### Writes of the device to memory -/

@[simp] theorem State.storeHbm_parts (s : State) (a : Nat) (d : Bytes) : (s.storeHbm a d).parts = s.parts := by
  unfold State.storeHbm
  split <;> rfl

@[simp] theorem State.storeHbm_groups (s : State) (a : Nat) (d : Bytes) : (s.storeHbm a d).groups = s.groups := by
  unfold State.storeHbm
  split <;> rfl

@[simp] theorem State.writePlace_parts (s : State) (me : Nat) (p : Place) (d : Bytes) (t : Tag) : (s.writePlace me p d t).parts = s.parts := by
  cases p <;> rfl

@[simp] theorem State.writePlace_groups (s : State) (me : Nat) (p : Place) (d : Bytes) (t : Tag) : (s.writePlace me p d t).groups = s.groups := by
  cases p <;> rfl

@[simp] theorem State.mapImage_parts (s : State) (pn : Nat) (o : Obj) (on : Bool) : (s.mapImage pn o on).parts = s.parts :=
  State.foldl_keeps (·.parts) (fun t k => by split <;> simp) _ s

@[simp] theorem State.mapImage_groups (s : State) (pn : Nat) (o : Obj) (on : Bool) : (s.mapImage pn o on).groups = s.groups :=
  State.foldl_keeps (·.groups) (fun t k => by split <;> simp) _ s

/-- A store of fewer than 64 bytes covers no line of HBM whole, so it clears no error mark (log entry 73). -/
theorem State.writeGood_hbm_short (s : State) (a : Nat) {n : Nat} (h : n < 64) : s.writeGood (.hbm a) n = s := by
  have hkeep : s.bad.filter (fun b => !(b.1 == 0 && a ≤ 64 * b.2.2 && 64 * b.2.2 + 64 ≤ a + n)) = s.bad := by
    refine List.filter_eq_self.mpr fun b _ => ?_
    by_cases ha : a ≤ 64 * b.2.2
    · simp [show ¬ 64 * b.2.2 + 64 ≤ a + n by omega]
    · simp [ha]
  unfold State.writeGood
  simp only [hkeep]

end Sys2Proof.Machine

/-! PROOFS. The code service: the command ring, LOAD, UNLOAD, UNLOAD.F and PATCH (O52). -/

namespace Sys2Proof.Machine

/-! ### The command ring -/

@[simp] theorem State.csWrite_parts (s : State) (pn va : Nat) (d : Bytes) : (s.csWrite pn va d).parts = s.parts := by
  unfold State.csWrite
  split <;> simp

@[simp] theorem State.csWrite_groups (s : State) (pn va : Nat) (d : Bytes) : (s.csWrite pn va d).groups = s.groups := by
  unfold State.csWrite
  split <;> simp

/-- A command of the ring with its answer written, before the head moves on (R403). -/
def State.csAnswered (s : State) (pn va status : Nat) (id : Option Nat) : State :=
  let s := match id with | some k => s.csWrite pn (va + 0x28) (leBytes 8 k) | none => s
  { s.csWrite pn (va + 0x20) [BitVec.ofNat 8 status] with reply := .status (BitVec.ofNat 64 status) }

theorem State.csDone_eq (s : State) (pn va status : Nat) (id : Option Nat) : s.csDone pn va status id =
    (s.csAnswered pn va status id).modPart pn fun p => p.setReg 0x910 (BitVec.ofNat 64 ((p.idx 0x910 + 1) % 2 ^ 32)) := rfl

@[simp] theorem State.csAnswered_parts (s : State) (pn va status : Nat) (id : Option Nat) : (s.csAnswered pn va status id).parts = s.parts := by
  cases id <;> simp [State.csAnswered]

@[simp] theorem State.csAnswered_groups (s : State) (pn va status : Nat) (id : Option Nat) : (s.csAnswered pn va status id).groups = s.groups := by
  cases id <;> simp [State.csAnswered]

/-- A command done moves the head on by one and changes nothing else of its partition (R403). -/
theorem State.part_csDone (s : State) (pn va status : Nat) (id : Option Nat) :
    (s.csDone pn va status id).part pn = (s.part pn).setReg 0x910 (BitVec.ofNat 64 (((s.part pn).idx 0x910 + 1) % 2 ^ 32)) := by
  rw [State.csDone_eq, State.part_modPart_self, State.part_of_parts (State.csAnswered_parts ..)]

@[simp] theorem State.csDone_groups (s : State) (pn va status : Nat) (id : Option Nat) : (s.csDone pn va status id).groups = s.groups := by
  rw [State.csDone_eq, State.modPart_groups, State.csAnswered_groups]

@[simp] theorem State.csDone_reply (s : State) (pn va status : Nat) (id : Option Nat) :
    (s.csDone pn va status id).reply = .status (BitVec.ofNat 64 status) := rfl

@[simp] theorem State.csDone_objs (s : State) (pn va status : Nat) (id : Option Nat) :
    ((s.csDone pn va status id).part pn).objs = (s.part pn).objs := by
  rw [State.part_csDone, Part.setReg_objs]

@[simp] theorem State.csDone_head (s : State) (pn va status : Nat) (id : Option Nat) :
    ((s.csDone pn va status id).part pn).idx 0x910 = ((s.part pn).idx 0x910 + 1) % 2 ^ 32 := by
  rw [State.part_csDone, Part.idx_setReg_mod]

theorem State.csCommand_none {s : State} {pn : Nat} (h : (s.part pn).csEntry = none) (cmd : Nat) (body : Bytes → State → State × Nat × Option Nat) :
    s.csCommand pn cmd body = s := by
  unfold State.csCommand
  rw [h]

/-- A command stands at the head of a partition's ring, at an address and with an entry that is read, and no channel is being copied. -/
structure State.CommandAt (s : State) (pn va cmd : Nat) (e : Bytes) : Prop where
  entry : (s.part pn).csEntry = some va
  still : s.copying = []
  read : s.readVa pn (va % 2 ^ 48) 64 = .ok e
  code : recField e 0 1 = cmd

/-- The command at the head runs, and is done with the status that its body gives. -/
theorem State.CommandAt.run {s : State} {pn va cmd : Nat} {e : Bytes} (h : s.CommandAt pn va cmd e) (body : Bytes → State → State × Nat × Option Nat) :
    s.csCommand pn cmd body = (body e s).1.csDone pn va (body e s).2.1 (body e s).2.2 := by
  unfold State.csCommand
  rw [h.entry]
  dsimp only
  rw [State.vaCopied_of_nothing_copied h.still, if_neg Bool.false_ne_true, h.read]
  dsimp only
  rw [State.vaCopied_of_nothing_copied h.still, Bool.and_false, Bool.or_false, if_neg (by simp [h.code])]

/-! ### Objects of a partition -/

theorem Part.id_of_obj? {p : Part} {id : Nat} {o : Obj} (h : p.obj? id = some o) : o.id = id := by
  simpa using List.find?_some h

/-- The mark of an UNLOAD that waits, put on the objects of an id (R23). -/
def Obj.deferAt (id : Nat) (q : Obj) : Obj := if q.id = id then { q with deferred := true } else q

theorem Obj.deferAt_id (id : Nat) (q : Obj) : (q.deferAt id).id = q.id := by
  unfold Obj.deferAt
  split <;> rfl

/-- An object found by its id is found again with the mark. -/
theorem Part.obj?_deferAt {p : Part} {id : Nat} {o : Obj} (h : p.obj? id = some o) :
    ({ p with objs := p.objs.map (Obj.deferAt id) } : Part).obj? id = some { o with deferred := true } := by
  have hid : o.deferAt id = { o with deferred := true } := if_pos (Part.id_of_obj? h)
  unfold Part.obj? at h ⊢
  rw [List.find?_map, show ((fun q : Obj => q.id == id) ∘ Obj.deferAt id) = fun q => q.id == id from funext fun q => by simp [Obj.deferAt_id], h,
    Option.map_some, hid]

/-- An object unmapped is out of its partition (R23). -/
theorem State.unmap_objs (s : State) (pn id : Nat) : ((s.unmap pn id).part pn).objs = (s.part pn).objs.filter fun q => q.id != id := by
  unfold State.unmap
  rw [State.part_modPart_self]
  split
  · rw [State.part_of_parts ((State.mapCores_parts ..).trans (State.mapImage_parts ..))]
  · rfl

/-! ### The commands -/

section Commands
variable {s : State} {p va : Nat} {e : Bytes}

theorem exec_load_ok {pl : Placement} {d : Bytes} {o : Obj} {parts : List (Nat × Bytes)} (h : s.CommandAt p va 1 e)
    (hd : s.readVa p (recField e 8 8 % 2 ^ 48) (recField e 0x10 8) = .ok d) (hspace : recField e 8 8 / 2 ^ 48 = 0)
    (hload : (s.part p).loadObject d pl = .ok (o, parts)) :
    ∃ t, exec (.load p pl) s = .next t ∧ (t.part p).objs = (s.part p).objs ++ [o] ∧
      t.reply = .status 0#64 ∧ (t.part p).idx 0x910 = ((s.part p).idx 0x910 + 1) % 2 ^ 32 ∧ t.groups = s.groups := by
  refine ⟨_, rfl, ?_⟩
  rw [h.run]
  simp only [hd, hspace, ne_eq, not_true_eq_false, if_false, hload]
  have hstored := State.foldl_keeps (·.parts) (fun t (b : Nat × Bytes) => State.storeHbm_parts t b.1 b.2) parts s
  have hgroups := State.foldl_keeps (·.groups) (fun t (b : Nat × Bytes) => State.storeHbm_groups t b.1 b.2) parts s
  refine ⟨?_, State.csDone_reply .., ?_, ?_⟩
  · rw [State.csDone_objs, State.part_of_parts (State.mapImage_parts ..), State.part_modPart_self, State.part_of_parts hstored]
  · rw [State.csDone_head, State.part_of_parts (State.mapImage_parts ..), State.part_modPart_self, State.part_of_parts hstored]
    rfl
  · rw [State.csDone_groups, State.mapImage_groups, State.modPart_groups, hgroups]

theorem exec_load_error {pl : Placement} {d : Bytes} {k : Nat} (h : s.CommandAt p va 1 e)
    (hd : s.readVa p (recField e 8 8 % 2 ^ 48) (recField e 0x10 8) = .ok d) (hspace : recField e 8 8 / 2 ^ 48 = 0)
    (hload : (s.part p).loadObject d pl = .error k) : exec (.load p pl) s = .next (s.csDone p va k none) := by
  show execLoad p pl s = _
  unfold execLoad
  rw [h.run]
  simp only [hd, hspace, ne_eq, not_true_eq_false, if_false, hload]

theorem exec_unload_unknown (h : s.CommandAt p va 2 e) (ho : (s.part p).obj? (recField e 8 8) = none) :
    exec (.unload p) s = .next (s.csDone p va 1 none) := by
  show execUnload p s = _
  unfold execUnload
  rw [h.run]
  simp only [ho]

theorem exec_unload_free {o : Obj} (h : s.CommandAt p va 2 e) (ho : (s.part p).obj? (recField e 8 8) = some o) (hr : s.residency p o = 0) :
    exec (.unload p) s = .next ((s.unmap p (recField e 8 8)).csDone p va 0 none) := by
  show execUnload p s = _
  unfold execUnload
  rw [h.run]
  simp only [ho, hr, if_true]

theorem exec_unload_resident {o : Obj} (h : s.CommandAt p va 2 e) (ho : (s.part p).obj? (recField e 8 8) = some o) (hr : s.residency p o ≠ 0) :
    exec (.unload p) s =
      .next ((s.modPart p fun x => { x with objs := x.objs.map (Obj.deferAt (recField e 8 8)) }).csDone p va 8 none) := by
  show execUnload p s = _
  unfold execUnload
  rw [h.run]
  simp only [ho, hr, if_false]
  rfl

theorem exec_deferredUnmap_due {id : Nat} {o : Obj} (ho : (s.part p).obj? id = some o) (hd : o.deferred = true) (hr : s.residency p o = 0) :
    exec (.deferredUnmap p id) s = .next (s.unmap p id) := by
  show execDeferredUnmap p id s = _
  simp [execDeferredUnmap, ho, hd, hr]

theorem exec_deferredUnmap_early {id : Nat} {o : Obj} (ho : (s.part p).obj? id = some o) (h : o.deferred = false ∨ s.residency p o ≠ 0) :
    exec (.deferredUnmap p id) s = .next s := by
  show execDeferredUnmap p id s = _
  obtain hd | hr := h
  · simp [execDeferredUnmap, ho, hd]
  · simp [execDeferredUnmap, ho, hr]

theorem exec_unloadF_unknown (h : s.CommandAt p va 3 e) (ho : (s.part p).obj? (recField e 8 8) = none) :
    exec (.unloadF p) s = .next ((s.csDone p va 1 none).pass p) := by
  show execUnloadF p s = _
  unfold execUnloadF
  rw [h.run]
  simp only [ho]

theorem exec_unloadF_linked {o : Obj} (h : s.CommandAt p va 3 e) (ho : (s.part p).obj? (recField e 8 8) = some o)
    (hl : ∃ q ∈ (s.part p).objs, q.id ≠ o.id ∧ o.id ∈ q.links) : exec (.unloadF p) s = .next ((s.csDone p va 9 none).pass p) := by
  have hany : (s.part p).objs.any (fun q => q.id != o.id && q.links.contains o.id) = true := by simpa using hl
  show execUnloadF p s = _
  unfold execUnloadF
  rw [h.run]
  simp only [ho, hany, if_true]

theorem exec_unloadF_forced {o : Obj} (h : s.CommandAt p va 3 e) (ho : (s.part p).obj? (recField e 8 8) = some o)
    (hl : ∀ q ∈ (s.part p).objs, q.id ≠ o.id → o.id ∉ q.links) :
    exec (.unloadF p) s = .next (((s.forceOut p o).csDone p va 0 none).pass p) := by
  have hany : ¬ (s.part p).objs.any (fun q => q.id != o.id && q.links.contains o.id) = true := by simpa using hl
  show execUnloadF p s = _
  unfold execUnloadF
  rw [h.run]
  simp only [ho, if_neg hany]

/-- The last act of UNLOAD.F is to unmap the object (R24). -/
theorem State.forceOut_objs (s : State) (p : Nat) (o : Obj) : ∀ q ∈ ((s.forceOut p o).part p).objs, q.id ≠ o.id := by
  intro q hq
  unfold State.forceOut at hq
  rw [State.unmap_objs] at hq
  simpa using (List.mem_filter.mp hq).2

theorem exec_patch_ok {a : Nat} {o : Obj} (h : s.CommandAt p va 4 e) (ho : (s.part p).obj? (recField e 8 8) = some o)
    (ha : o.slotAt (recField e 0x10 8) = some a) (hclass : recField e 0x18 8 / 2 ^ 60 = Memory.le s.hbm a 8 / 2 ^ 60) (hd : o.deferred = false) :
    exec (.patch p) s = .next (State.csDone { s with hbm := Memory.store s.hbm a (leBytes 8 (recField e 0x18 8)) } p va 0 none) := by
  have hstore : s.storeHbm a (leBytes 8 (recField e 0x18 8)) = { s with hbm := Memory.store s.hbm a (leBytes 8 (recField e 0x18 8)) } := by
    rw [State.storeHbm_free _ _ _ (State.copied_of_nothing_copied h.still ..), leBytes_length, State.writeGood_hbm_short _ _ (by omega)]
  show execPatch p s = _
  unfold execPatch
  rw [h.run]
  simp only [ho, ha, hclass, hd, ne_eq, not_true_eq_false, if_false, Bool.false_eq_true, hstore]

theorem exec_patch_shape {a : Nat} {o : Obj} (h : s.CommandAt p va 4 e) (ho : (s.part p).obj? (recField e 8 8) = some o)
    (ha : o.slotAt (recField e 0x10 8) = some a) (hclass : recField e 0x18 8 / 2 ^ 60 ≠ Memory.le s.hbm a 8 / 2 ^ 60) :
    exec (.patch p) s = .next (s.csDone p va 11 none) := by
  show execPatch p s = _
  unfold execPatch
  rw [h.run]
  simp only [ho, ha, if_pos hclass]

theorem exec_codeService_none (h : (s.part p).csEntry = none) (pl : Placement) :
    exec (.load p pl) s = .next s ∧ exec (.unload p) s = .next s ∧ exec (.patch p) s = .next s ∧ exec (.unloadF p) s = .next (s.pass p) :=
  ⟨congrArg Host.Outcome.next (State.csCommand_none h ..), congrArg Host.Outcome.next (State.csCommand_none h ..),
    congrArg Host.Outcome.next (State.csCommand_none h ..), congrArg (fun t => Host.Outcome.next (State.pass t p)) (State.csCommand_none h ..)⟩

end Commands

/-- Settles O52: the command at the head runs its body and is done with the body's status, and each body is read off by the object it names. -/
theorem codeService : Obligations.CodeService := by
  unfold Obligations.CodeService
  refine ⟨fun p pl s h => exec_codeService_none h pl, fun p va pl e d s hcs hc hr hcode hd hspace => ⟨fun o parts hl => ?load, fun k hl => ?refused⟩,
    fun p va e s hcs hc hr hcode => ⟨fun ho => exec_unload_unknown ⟨hcs, hc, hr, hcode⟩ ho, fun o ho hres => ?unload, fun o ho hres => ?deferred⟩,
    fun p id o s ho => ⟨fun hd hres => ⟨exec_deferredUnmap_due ho hd hres, State.unmap_objs s p id⟩, exec_deferredUnmap_early ho⟩,
    fun p va e s hcs hc hr hcode => ⟨fun ho => exec_unloadF_unknown ⟨hcs, hc, hr, hcode⟩ ho, fun o ho hl => exec_unloadF_linked ⟨hcs, hc, hr, hcode⟩ ho hl,
      fun o ho hl => ?forced⟩,
    fun p va a e o s hcs hc hr hcode ho ha => ⟨fun hclass hd => exec_patch_ok ⟨hcs, hc, hr, hcode⟩ ho ha hclass hd,
      fun hclass => exec_patch_shape ⟨hcs, hc, hr, hcode⟩ ho ha hclass⟩,
    fun _ _ _ => rfl⟩
  case load => exact exec_load_ok ⟨hcs, hc, hr, hcode⟩ hd hspace hl
  case refused =>
    exact ⟨_, exec_load_error ⟨hcs, hc, hr, hcode⟩ hd hspace hl, State.csDone_objs .., State.csDone_reply .., State.csDone_head ..⟩
  case unload =>
    refine ⟨_, exec_unload_free ⟨hcs, hc, hr, hcode⟩ ho hres, ?_, State.csDone_reply ..⟩
    rw [State.csDone_objs, State.unmap_objs, Part.id_of_obj? ho]
  case deferred =>
    refine ⟨_, _, exec_unload_resident ⟨hcs, hc, hr, hcode⟩ ho hres, ?_, rfl, State.csDone_reply ..⟩
    rw [State.part_csDone, State.part_modPart_self]
    exact Part.obj?_deferAt ho
  case forced =>
    refine ⟨_, exec_unloadF_forced ⟨hcs, hc, hr, hcode⟩ ho hl, fun q hq => ?_, State.csDone_reply ..⟩
    rw [State.csDone_objs] at hq
    exact State.forceOut_objs s p o q hq

end Sys2Proof.Machine

/-! PROOFS. Launch queues and acceptance (the first half of O50). -/

namespace Sys2Proof.Machine

/-! ### Acceptance (R95 to R97) -/

@[simp] theorem State.part_stampReady (s : State) (pn p : Nat) : (s.stampReady pn).part p = s.part p := rfl

/-- A partition after it has taken a launch (R95, R97). -/
def Part.taken (p : Part) (l : Launch) : Part :=
  { p with arrivals := l.arrival, pending := p.pending ++ [l], history := (l.tag, l.arrival, none) :: p.history }

/-- What a pending entry keeps of its acceptance. -/
structure Launch.TakenFrom (l : Launch) (r : Bytes) (arrival depth prio : Nat) (parents : List Nat) : Prop where
  record : l.record = r
  arrival : l.arrival = arrival
  depth : l.depth = depth
  prio : l.prio = prio
  parents : l.parents = parents
  tag : l.tag = recTag r

section Accept
variable {s : State} {p : Nat} {r : Bytes} (hk : (s.part p).recStatus r = 0)
  (hrects : (s.rects p (recField r 0x38 1) (recField r 0x39 1) (recField r 0x3A 1)).isEmpty = false)
include hk hrects

/-- A record that passes R31, fits some rectangle and finds an entry is taken with the next arrival sequence. -/
theorem State.accept_taken {depth pool : Nat} (hpool : (s.part p).poolFor depth = some pool) (prio : Nat) (ps : List Nat) :
    ∃ l : Launch, s.accept p r depth prio ps = ((s.setPart p ((s.part p).taken l)).stampReady p, .accepted (nextArrival (s.part p).arrivals)) ∧
      l.TakenFrom r (nextArrival (s.part p).arrivals) depth prio ps := by
  unfold State.accept
  simp only [hk, hrects, hpool, ne_eq, not_true_eq_false, if_false, Bool.false_eq_true]
  generalize nextArrival (s.part p).arrivals = a
  generalize List.filterMap _ _ = waits
  exact ⟨{ record := r, obj := recField r 4 4, tag := recTag r, arrival := a, depth := depth, prio := prio, pool := pool, waits := waits, bound := waits
           readySince := if waits = [] then some s.wall else none, parents := ps },
    rfl, rfl, rfl, rfl, rfl, rfl, rfl⟩

/-- One that finds no entry changes nothing (R102). -/
theorem State.accept_noEntry {depth : Nat} (hpool : (s.part p).poolFor depth = none) (prio : Nat) (ps : List Nat) :
    s.accept p r depth prio ps = (s, .noEntry) := by
  unfold State.accept
  simp only [hk, hrects, hpool, ne_eq, not_true_eq_false, if_false, Bool.false_eq_true]

end Accept

/-! ### FIRMWARE_LAUNCH -/

theorem exec_firmwareLaunch_refused {p : Nat} {r : Bytes} {s : State} (hk : (s.part p).recStatus r ≠ 0) (ha : s.attestOnly = false) :
    exec (.firmwareLaunch p r) s = .next { s with reply := .status (BitVec.ofNat 64 ((s.part p).recStatus r)) } := by
  show execFirmwareLaunch p r s = _
  simp [execFirmwareLaunch, ha, State.accept_refused s p r 0 (recPrio r) [] hk, Answer.word]

theorem exec_firmwareLaunch_taken {p a : Nat} {r : Bytes} {s : State} (ha : s.attestOnly = false) (hacc : (s.accept p r 0 (recPrio r) []).2 = .accepted a) :
    exec (.firmwareLaunch p r) s = .next (State.pass { (s.accept p r 0 (recPrio r) []).1 with reply := .status (BitVec.ofNat 64 (a * 256)) } p) := by
  show execFirmwareLaunch p r s = _
  unfold execFirmwareLaunch
  rw [ha, if_neg Bool.false_ne_true]
  generalize s.accept p r 0 (recPrio r) [] = acc at hacc ⊢
  obtain ⟨t, ans⟩ := acc
  obtain rfl : ans = .accepted a := hacc
  rfl

/-! ### Writes of LQTAIL and LQCFG -/

theorem exec_lqtailWrite {p q : Nat} (v : Word) (s : State) (hq : q < 16) : ∃ t, exec (.lqtailWrite p q v) s = .next t ∧
    (t.part p).reg (0x40 * q + 0x18) = v &&& 0xFFFFFFFF#64 ∧ (t.part p).pending = (s.part p).pending ∧ t.cores = s.cores := by
  refine ⟨_, congrArg Host.Outcome.next (if_pos hq), ?_, ?_, rfl⟩
  · rw [State.part_modPart_self]
    dsimp only
    split
    · rw [Part.setErr, Part.reg_setReg_other _ _ (by omega), Part.reg_setReg_self]
    · rw [Part.reg_setReg_self]
  · rw [State.part_modPart_self]
    dsimp only
    split <;> rfl

theorem exec_lqcfgErrClear {p q : Nat} (s : State) (hq : q < 16) : ∃ t, exec (.lqcfgErrClear p q) s = .next t ∧
    (t.part p).reg (0x40 * q + 0x10) = (s.part p).reg (0x40 * q + 0x10) &&& ~~~0x40000000#64 :=
  ⟨_, congrArg Host.Outcome.next (if_pos hq), by rw [State.part_modPart_self, Part.reg_setReg_self]⟩

/-! ### QUEUE_RECORD_READ (R94) -/

/-- A queue that takes records: enabled, and without an error. -/
structure Part.QueueOn (p : Part) (q : Nat) : Prop where
  queue : q < 16
  enabled : (p.reg (0x40 * q + 0x10)).getLsbD 31 = true
  noErr : (p.reg (0x40 * q + 0x10)).getLsbD 30 = false

theorem Part.QueueOn.guard {p : Part} {q : Nat} (h : p.QueueOn q) :
    ¬ (decide (16 ≤ q) || !(p.reg (0x40 * q + 0x10)).getLsbD 31 || (p.reg (0x40 * q + 0x10)).getLsbD 30) = true := by
  rw [decide_eq_false (Nat.not_le.mpr h.queue), h.enabled, h.noErr]
  decide

theorem exec_queueRecordRead_overrun {p q : Nat} {s : State} (hon : (s.part p).QueueOn q) (hover : (s.part p).overrun q = true) :
    ∃ t, exec (.queueRecordRead p q) s = .next t ∧ ((t.part p).reg (0x40 * q + 0x10)).getLsbD 30 = true ∧ (t.part p).pending = (s.part p).pending := by
  refine ⟨s.setPart p ((s.part p).setErr q), ?_, ?_, ?_⟩
  · show execQueueRecordRead p q s = _
    unfold execQueueRecordRead
    dsimp only
    rw [if_neg hon.guard, if_pos hover]
  · rw [State.part_setPart_self, Part.setErr, Part.reg_setReg_self]
    simp
  · rw [State.part_setPart_self]
    rfl

/-- The slot at the head of a queue. -/
def Part.headSlot (p : Part) (q : Nat) : Nat := p.idx (0x40 * q + 0x20) % 2 ^ ((p.reg (0x40 * q + 0x10)).toNat / 2 ^ 12 % 16 + 4)

/-- A record waits at the head of a queue, where it is read, the pool has an entry, and its status entry goes to an address of HBM. -/
structure State.RecordAt (s : State) (p q : Nat) (r : Bytes) (a : Nat) : Prop where
  on : (s.part p).QueueOn q
  fits : (s.part p).overrun q = false
  waits : (s.part p).idx (0x40 * q + 0x20) ≠ (s.part p).idx (0x40 * q + 0x18)
  pool : ((s.part p).poolFor 0).isSome = true
  still : s.copying = []
  read : s.readVa p (((s.part p).reg (0x40 * q)).toNat + 320 * (s.part p).headSlot q) 320 = .ok r
  status : ∃ leaf, s.mapVa p none (vaOf ((s.part p).reg (0x40 * q + 8)) + 16 * (s.part p).headSlot q) true true = .ok { place := .hbm a, leaf := leaf }

/-- The answer to a record stands in its status entry at `a`, and the head is `head`. -/
def State.answeredAt (s : State) (p q a head : Nat) (r : Bytes) (ans : Answer) : State :=
  (s.writePlace outsider (.hbm a) (wordBytes (recTag r) ++ wordBytes ans.word)).modPart p fun x => x.setReg (0x40 * q + 0x20) (BitVec.ofNat 64 head)

/-- A pass follows an acceptance (R99). -/
def State.passIfTaken (s : State) (p : Nat) : Answer → State
  | .accepted _ => s.pass p
  | _ => s

theorem State.passIfTaken_accepted (s : State) (p a : Nat) : s.passIfTaken p (.accepted a) = s.pass p := rfl

theorem State.readBad_hbm_congr {s t : State} (hbad : t.bad = s.bad) (hdead : t.dead = s.dead) (a n : Nat) : t.readBad (.hbm a) n = s.readBad (.hbm a) n := by
  simp only [State.readBad, hbad, hdead]

theorem State.walkFrom_congr {s t : State} (hhbm : t.hbm = s.hbm) (hbad : t.bad = s.bad) (hdead : t.dead = s.dead) (va table : Nat) (ls : List (Nat × Nat × Nat)) :
    t.walkFrom va table ls = s.walkFrom va table ls := by
  induction ls generalizing table with
  | nil => rfl
  | cons l ls ih => simp only [State.walkFrom, State.readBad_hbm_congr hbad hdead, hhbm, ih]

/-- A walk of a partition's tables rests on memory, its errors, PTROOT and the objects. -/
theorem State.mapVa_congr {s t : State} {pn : Nat} (hhbm : t.hbm = s.hbm) (hbad : t.bad = s.bad) (hdead : t.dead = s.dead) (hstamp : t.stamp = s.stamp)
    (hregs : (t.part pn).regs = (s.part pn).regs) (hobjs : (t.part pn).objs = (s.part pn).objs) (cache : Option Leaf) (va : Nat) (write raw : Bool) :
    t.mapVa pn cache va write raw = s.mapVa pn cache va write raw := by
  have hreg (off : Nat) : (t.part pn).reg off = (s.part pn).reg off := by rw [Part.reg, hregs, Part.reg]
  have hallows (e : Word) : (t.part pn).allows e va write raw = (s.part pn).allows e va write raw := by
    simp only [Part.allows, Part.readOnly, Part.objAt, hobjs]
  have hwalk : t.walk pn va = s.walk pn va := by
    simp only [State.walk, hreg, State.walkFrom_congr hhbm hbad hdead]
  unfold State.mapVa
  simp only [hallows, hwalk, hstamp]

section Records
variable {s : State} {p q a : Nat} {r : Bytes} (h : s.RecordAt p q r a)
include h

/-- The record at the head is asked for, and its answer is written where its status entry maps. -/
theorem exec_queueRecordRead_answered {t : State} {ans : Answer} (hacc : s.accept p r 0 (min (recPrio r) ((s.part p).ceil q)) [] = (t, ans))
    (hmap : ∀ va, t.mapVa p none va true true = s.mapVa p none va true true) :
    exec (.queueRecordRead p q) s =
      .next ((t.answeredAt p q a (((s.part p).idx (0x40 * q + 0x20) + 1) % 2 ^ 32) r ans).passIfTaken p ans) := by
  obtain ⟨leaf, hleaf⟩ := h.status
  have hwait : ¬ ((s.part p).idx (0x40 * q + 0x20) == (s.part p).idx (0x40 * q + 0x18) || ((s.part p).poolFor 0).isNone) = true := by
    have hpool := h.pool
    rw [Option.isSome_iff_ne_none] at hpool
    simp [h.waits, hpool]
  show execQueueRecordRead p q s = _
  unfold execQueueRecordRead
  dsimp only
  rw [if_neg h.on.guard, h.fits, if_neg Bool.false_ne_true, if_neg hwait, State.vaCopied_of_nothing_copied h.still, State.vaCopied_of_nothing_copied h.still,
    Bool.or_false, if_neg Bool.false_ne_true]
  have hread := h.read
  unfold Part.headSlot at hread hleaf
  rw [hread]
  dsimp only
  rw [hacc]
  dsimp only
  rw [hmap, hleaf]
  cases ans <;> rfl

theorem exec_queueRecordRead_refused (hk : (s.part p).recStatus r ≠ 0) :
    exec (.queueRecordRead p q) s =
      .next (s.answeredAt p q a (((s.part p).idx (0x40 * q + 0x20) + 1) % 2 ^ 32) r (.status ((s.part p).recStatus r))) :=
  exec_queueRecordRead_answered h (State.accept_refused s p r _ _ _ hk) fun _ => rfl

theorem exec_queueRecordRead_taken (hk : (s.part p).recStatus r = 0)
    (hrects : (s.rects p (recField r 0x38 1) (recField r 0x39 1) (recField r 0x3A 1)).isEmpty = false) :
    ∃ l : Launch, l.TakenFrom r (nextArrival (s.part p).arrivals) 0 (min (recPrio r) ((s.part p).ceil q)) [] ∧
      exec (.queueRecordRead p q) s =
        .next ((((s.setPart p ((s.part p).taken l)).stampReady p).answeredAt p q a (((s.part p).idx (0x40 * q + 0x20) + 1) % 2 ^ 32) r
          (.accepted (nextArrival (s.part p).arrivals))).pass p) := by
  obtain ⟨pool, hpool⟩ := Option.isSome_iff_exists.mp h.pool
  obtain ⟨l, hacc, hl⟩ := State.accept_taken hk hrects hpool (min (recPrio r) ((s.part p).ceil q)) []
  have hpart : ((s.setPart p ((s.part p).taken l)).stampReady p).part p = (s.part p).taken l := State.part_setPart_self ..
  have hmap (va : Nat) : ((s.setPart p ((s.part p).taken l)).stampReady p).mapVa p none va true true = s.mapVa p none va true true :=
    State.mapVa_congr (s := s) (t := (s.setPart p ((s.part p).taken l)).stampReady p) rfl rfl rfl rfl (by rw [hpart]; rfl) (by rw [hpart]; rfl) none va true true
  exact ⟨l, hl, (exec_queueRecordRead_answered h hacc hmap).trans (by rw [State.passIfTaken_accepted])⟩

end Records

theorem State.part_answeredAt (s : State) (p q a head : Nat) (r : Bytes) (ans : Answer) :
    (s.answeredAt p q a head r ans).part p = (s.part p).setReg (0x40 * q + 0x20) (BitVec.ofNat 64 head) := by
  rw [State.answeredAt, State.part_modPart_self, State.part_of_parts (State.writePlace_parts ..)]

end Sys2Proof.Machine

/-! PROOFS. LAUNCH at issue and as it goes on (the second part of O50). -/

namespace Sys2Proof.Machine

/-! ### Unfinished syllables of a core -/

/-- The newest syllable of a core is changed alone when no other has its number. -/
theorem Core.modAop_last {c : Core} {l : List AOp} {o : AOp} {q : Nat} (h : c.aops = l ++ [o]) (hq : o.iseq = q) (hfresh : ∀ y ∈ l, y.iseq ≠ q)
    (f : AOp → AOp) : (c.modAop q f).aops = l ++ [f o] := by
  have hl : l.map (fun y => if y.iseq = q then f y else y) = l := by
    refine (List.map_congr_left fun y hy => if_neg (hfresh y hy)).trans ?_
    exact List.map_id' l
  simp only [Core.modAop, h, List.map_append, List.map_cons, List.map_nil, if_pos hq, hl]

/-! ### LAUNCH at issue (R104, R105) -/

/-- The record of a synchronisation syllable as it issues. -/
def State.syncRecord (s : State) (i : Instr) (addr : Word) : AOp :=
  { iseq := s.ctx.iseq, word := s.ctx.word, instr := i, phase := .sync, addr := addr, data := 0#64, extra := 0#64, begun := false }

theorem State.me_pushSync (s : State) (i : Instr) (addr : Word) :
    (s.pushSync i addr 0#64 0#64 false).me = { s.me with aops := s.me.aops ++ [s.syncRecord i addr] } := State.me_modMe ..

/-- What the capture of a record leaves as it is: the issue, the contexts and the unfinished syllables of every core. -/
def State.issueView (s : State) : Ctx × List Grp × (Nat → List AOp) := (s.ctx, s.groups, fun n => (s.core n).aops)

theorem State.keepLeaf_issueView (s : State) (c : Nat) (h : Hit) : (s.keepLeaf c h).issueView = s.issueView := by
  unfold State.keepLeaf
  split
  · rfl
  next l _ =>
    have haops (n : Nat) : ((s.modCore c fun k => { k with cache := l :: k.cache }).core n).aops = (s.core n).aops := by
      by_cases hn : n = c
      · rw [hn, State.core_modCore_self]
      · rw [State.core_modCore_other _ _ hn]
    exact congrArg (fun f => (s.ctx, s.groups, f)) (funext haops)

theorem State.countPage_issueView (s : State) (pn : Nat) (p : Place) (rd wr remote : Nat) : (s.countPage pn p rd wr remote).issueView = s.issueView := by
  obtain ⟨m, ms, ps, h⟩ := State.arrivesTo_countPage s pn p rd wr remote
  rw [h]
  rfl

theorem State.captured_issueView (s : State) (c pn : Nat) (rs : List Cap) (hits : List Hit) :
    (s.captured c pn { reads := rs, writes := [], index := [], hits := hits }).issueView = s.issueView := by
  unfold State.captured
  extract_lets rds s1 s2 s3 s4 s5
  have h1 : s1.issueView = s.issueView := State.foldl_keeps (f := fun t h => t.keepLeaf c h) _ (fun t h => State.keepLeaf_issueView t c h) hits s
  have h2 : s2.issueView = s1.issueView := State.foldl_keeps (f := fun t p => t.countPage pn p 1 0 0) _ (fun t p => State.countPage_issueView ..) _ s1
  have h3 : s3.issueView = s2.issueView := State.foldl_keeps (f := fun t p => t.countPage pn p 0 1 0) _ (fun t p => State.countPage_issueView ..) _ s2
  have h4 : s4.issueView = s3.issueView := State.foldl_keeps (f := fun t p => t.countPage pn p 0 0 1) _ (fun t p => State.countPage_issueView ..) _ s3
  exact h4.trans (h3.trans (h2.trans h1))

theorem State.launchCapture_issueView {s u : State} {n pn : Nat} {p : Word} {cs : List Cap} (h : s.launchCapture n pn p = .ok (u, cs)) :
    u.issueView = s.issueView := by
  unfold State.launchCapture at h
  split at h
  · cases h
  · cases h
    exact State.captured_issueView ..

/-- A space-0 pointer with no bits above its address passes check 1. -/
theorem State.spaceOk_space0 {s : State} {c : Nat} {reach : Reach} {p : Word} (h : p.toNat < 2 ^ 48) : s.spaceOk c reach p = true := by
  have hspace : spaceOf p = 0 := by
    unfold spaceOf
    omega
  have hhigh : p.toNat / 2 ^ 48 % 2 ^ 12 = 0 := by omega
  unfold State.spaceOk
  rw [hspace]
  simp only [hhigh, beq_self_eq_true]

/-- A LAUNCH whose record's pages were translated stands unfinished with them; a cause of the translation is raised (R105). -/
def State.launchOf (s : State) (i : Instr) (p : Word) : Except Cause (State × List Cap) → State
  | .error k => s.raise k
  | .ok (t, cs) => (t.pushSync i p 0#64 0#64 false).modMe fun c => c.modAop s.ctx.iseq fun o => { o with caps := cs }

section Issue
variable {s : State} {gd : BitVec 4} {rd s1 q : BitVec 5} {i : Instr} {g : Grp}

theorem exec_launch (hi : i = .launchB gd rd s1 q ∨ i = .launchN gd rd s1 q) (s : State) : exec i s = .next (s.launch i gd rd s1) := by
  obtain rfl | rfl := hi <;> rfl

variable (hg : s.guardC gd = true) (hr : s.regsOk [rd, s1] = .ok) (hgrp : s.grpAt s.ctx.core = some g)
include hg hr hgrp

theorem State.launch_deepest (hd : g.depth = 8) (i : Instr) : s.launch i gd rd s1 = s.raise { cause := 0x1F } := by
  simp only [State.launch, hg, hr, hgrp, hd, if_true, State.gate_ok]

theorem State.launch_badPointer (hd : g.depth ≠ 8) (hp : (s.reg s1).toNat / 2 ^ 60 ≠ 0 ∨ (s.reg s1).toNat % 64 ≠ 0) (i : Instr) :
    s.launch i gd rd s1 =
      (s.pushSync i (s.reg s1) 0#64 0#64 false).modMe fun c => c.modAop s.ctx.iseq fun o => { o with phase := .done, value := 1#64 } := by
  simp only [State.launch, hg, hr, hgrp, if_neg hd, if_pos hp, if_true, State.gate_ok]

theorem State.launch_record (hd : g.depth ≠ 8) (hp : (s.reg s1).toNat < 2 ^ 48) (ha : (s.reg s1).toNat % 64 = 0) (hc : s.copying = []) (i : Instr) :
    s.launch i gd rd s1 = s.launchOf i (s.reg s1) (s.launchCapture s.ctx.core g.part (s.reg s1)) := by
  have hptr : ¬ ((s.reg s1).toNat / 2 ^ 60 ≠ 0 ∨ (s.reg s1).toNat % 64 ≠ 0) := by omega
  have hcopied : (piecesOf (s.reg s1, 320)).any (fun x => s.resolveCopied s.ctx.core x.1) = false := by simp [State.resolveCopied, hc]
  simp only [State.launch, hg, hr, hgrp, if_neg hd, if_neg hptr, State.spaceOk_space0 hp, hcopied, if_true, State.gate_ok, Bool.not_true, Bool.false_eq_true, if_false]
  rfl

end Issue

section Issued
variable {s t : State} {i : Instr} {p : Word} (hctx : t.ctx = s.ctx) (haops : t.me.aops = s.me.aops) (hfresh : ∀ o ∈ s.me.aops, o.iseq ≠ s.ctx.iseq)
include hctx haops hfresh

/-- A synchronisation syllable that issues, with a change to its record, is the newest of its core. -/
theorem State.me_pushSync_modAop (f : AOp → AOp) :
    ((t.pushSync i p 0#64 0#64 false).modMe fun c => c.modAop s.ctx.iseq f).me.aops = s.me.aops ++ [f (s.syncRecord i p)] := by
  rw [State.me_modMe, State.me_pushSync]
  have hrec : t.syncRecord i p = s.syncRecord i p := by rw [State.syncRecord, hctx, State.syncRecord]
  have hlast : t.me.aops ++ [t.syncRecord i p] = s.me.aops ++ [s.syncRecord i p] := by rw [haops, hrec]
  exact Core.modAop_last (o := s.syncRecord i p) (q := s.ctx.iseq) hlast rfl hfresh f

end Issued

/-- LAUNCH at issue: its depth, its pointer, and the pages of its record. -/
theorem exec_launch_issue {gd : BitVec 4} {rd s1 q : BitVec 5} {i : Instr} {g : Grp} {s : State} (hi : i = .launchB gd rd s1 q ∨ i = .launchN gd rd s1 q)
    (hg : s.guardC gd = true) (hr : s.regsOk [rd, s1] = .ok) (hgrp : s.grpAt s.ctx.core = some g) :
    (g.depth = 8 → exec i s = .next (s.raise { cause := 0x1F })) ∧
    (g.depth ≠ 8 → (s.reg s1).toNat / 2 ^ 60 ≠ 0 ∨ (s.reg s1).toNat % 64 ≠ 0 → (∀ o ∈ s.me.aops, o.iseq ≠ s.ctx.iseq) →
      ∃ (t : State) (o : AOp), exec i s = .next t ∧ t.me.aops = s.me.aops ++ [o] ∧ o.instr = i ∧ o.phase = .done ∧ o.value = 1#64) ∧
    (g.depth ≠ 8 → (s.reg s1).toNat < 2 ^ 48 → (s.reg s1).toNat % 64 = 0 → s.copying = [] →
      (∀ u cs, s.launchCapture s.ctx.core g.part (s.reg s1) = .ok (u, cs) → (∀ o ∈ s.me.aops, o.iseq ≠ s.ctx.iseq) →
        ∃ (t : State) (o : AOp), exec i s = .next t ∧ t.me.aops = s.me.aops ++ [o] ∧ o.instr = i ∧ o.phase = .sync ∧ o.addr = s.reg s1 ∧ o.caps = cs ∧ o.begun = false ∧
          t.groups = s.groups) ∧
      (∀ k, s.launchCapture s.ctx.core g.part (s.reg s1) = .error k → exec i s = .next (s.raise k))) := by
  rw [exec_launch hi]
  refine ⟨fun hd => ?_, fun hd hp hfresh => ?_, fun hd hp ha hc => ⟨fun u cs hcap hfresh => ?_, fun k hcap => ?_⟩⟩
  · rw [State.launch_deepest hg hr hgrp hd]
  · rw [State.launch_badPointer hg hr hgrp hd hp]
    exact ⟨_, _, rfl, State.me_pushSync_modAop rfl rfl hfresh _, rfl, rfl, rfl⟩
  · rw [State.launch_record hg hr hgrp hd hp ha hc, hcap]
    have hview := State.launchCapture_issueView hcap
    obtain ⟨hctx, hgroups, haops⟩ : u.ctx = s.ctx ∧ u.groups = s.groups ∧ (fun n => (u.core n).aops) = fun n => (s.core n).aops := by
      simpa [State.issueView] using hview
    have hme : u.me.aops = s.me.aops := by
      rw [State.me, hctx, State.me]
      exact congrFun haops _
    exact ⟨_, _, rfl, State.me_pushSync_modAop hctx hme hfresh _, rfl, rfl, rfl, rfl, rfl, hgroups⟩
  · rw [State.launch_record hg hr hgrp hd hp ha hc, hcap]
    rfl

end Sys2Proof.Machine

/-! PROOFS. An unfinished LAUNCH goes on (the third part of O50). -/

namespace Sys2Proof.Machine

/-! ### What reading a record leaves as it is -/

/-- A core but for what reads of memory and a syllable's own progress change. -/
def Core.readRest (c : Core) : Core := { c with banks := [], heard := [], race := {}, aops := [] }

/-- A partition but for the peer reports that wait. -/
def Part.readRest (p : Part) : Part := { p with peerReports := [] }

/-- The contexts, the wall time, and the rest of partitions and cores, with the cores' unfinished syllables. -/
def State.readView (s : State) : List Grp × Nat × (Nat → Part) × (Nat → Core) × (Nat → List AOp) :=
  (s.groups, s.wall, fun q => (s.part q).readRest, fun n => (s.core n).readRest, fun n => (s.core n).aops)

theorem State.modCore_readView (s : State) (n : Nat) {f : Core → Core} (hf : ∀ c, (f c).readRest = c.readRest) (ha : ∀ c, (f c).aops = c.aops) :
    (s.modCore n f).readView = s.readView := by
  have hcore (m : Nat) : ((s.modCore n f).core m).readRest = (s.core m).readRest := by
    by_cases hm : m = n
    · rw [hm, State.core_modCore_self, hf]
    · rw [State.core_modCore_other _ _ hm]
  have haops (m : Nat) : ((s.modCore n f).core m).aops = (s.core m).aops := by
    by_cases hm : m = n
    · rw [hm, State.core_modCore_self, ha]
    · rw [State.core_modCore_other _ _ hm]
  simp only [State.readView, hcore, haops]
  rfl

theorem State.touchPlace_readView (s : State) (p : Place) : (s.touchPlace p).readView = s.readView := by
  cases p with
  | sp d off => exact State.modCore_readView s d (fun _ => rfl) fun _ => rfl
  | _ => rfl

theorem State.charge_readView (s : State) (pn : Nat) (p : Place) (d : Bytes) : (s.charge pn p d).readView = s.readView := by
  cases p <;> rfl

theorem State.reveal_readView (s : State) (ms : List Nat) (sel : Veil → Bool) (learn : Bool) : (s.reveal ms sel learn).readView = s.readView := by
  rw [State.reveal_frame]
  rfl

theorem State.reads_readView (s : State) (m space : Nat) (p : Place) (n : Nat) (acq : Option Nat) : (s.reads m space p n acq).readView = s.readView := by
  unfold State.reads
  split
  · rfl
  · have hheard (rs : List Rel) : (s.modCore m fun c => { c with heard := (rs ++ c.heard).eraseDups }).readView = s.readView :=
      State.modCore_readView s m (fun _ => rfl) fun _ => rfl
    cases acq with
    | none => exact hheard _
    | some scp => exact (State.foldl_keeps _ (fun t r => State.reveal_readView t [m] (Rel.orders r) true) _ _).trans (hheard _)

theorem State.arrived_readView (s : State) (pn node off : Nat) (kinds : List WatchKind) (p : Place) (n : Nat) (silent : Bool) :
    (s.arrived pn node off kinds p n silent false).readView = s.readView := by
  unfold State.arrived
  dsimp only
  split
  · rfl
  · have hpart (f : Part → Part) (hf : ∀ x, (f x).readRest = x.readRest) (t : State) : (t.modPart pn f).readView = t.readView := by
      have hq (q : Nat) : ((t.modPart pn f).part q).readRest = (t.part q).readRest := by
        by_cases hq : q = pn
        · rw [hq, State.part_modPart_self, hf]
        · rw [State.modPart, State.part_setPart_other _ _ hq]
      simp only [State.readView, hq]
      rfl
    exact hpart (fun x => { x with peerReports := x.peerReports ++ [_] }) (fun _ => rfl) _

theorem State.looped_readView (s : State) (m pn : Nat) (kinds : List WatchKind) (p q : Place) (n : Nat) :
    (s.looped m pn kinds p q n false).readView = s.readView := by
  unfold State.looped
  split
  · split
    · rfl
    · exact State.arrived_readView ..
  · rfl

theorem State.readsDone_readView (s : State) (c pn : Nat) (cs : List Cap) : (s.readsDone c pn cs).readView = s.readView :=
  State.foldl_keeps State.readView (fun t x => by
    dsimp only
    rw [State.looped_readView, State.reads_readView, State.charge_readView, State.touchPlace_readView]) cs s

/-! ### The dispatcher is asked (R95, R105) -/

theorem Part.recStatus_congr {p q : Part} (h : p.readRest = q.readRest) (r : Bytes) : p.recStatus r = q.recStatus r :=
  (congrArg (fun x : Part => x.recStatus r) h :)

/-- The rectangles of a shape rest on the partition's cores and on which cores failed. -/
theorem State.rects_congr {s t : State} {pn : Nat} (hp : (t.part pn).readRest = (s.part pn).readRest) (hc : ∀ n, (t.core n).readRest = (s.core n).readRest)
    (w hgt dies : Nat) : t.rects pn w hgt dies = s.rects pn w hgt dies := by
  have hcores : (t.part pn).cores = (s.part pn).cores := (congrArg (fun x : Part => x.cores) hp :)
  have hfailed (n : Nat) : (t.core n).failed = (s.core n).failed := (congrArg (fun x : Core => x.failed) (hc n) :)
  simp only [State.rects, hcores, hfailed]

section Ask
variable {s : State} {n : Nat} {o : AOp} {g : Grp} {r : Bytes}

theorem State.launchAsk_refused (hk : (s.part g.part).recStatus r ≠ 0) (b : Bool) :
    s.launchAsk n o g r b = s.launched n o (BitVec.ofNat 64 ((s.part g.part).recStatus r)) := by
  unfold State.launchAsk
  rw [State.accept_refused _ _ _ _ _ _ hk]
  rfl

variable (hk : (s.part g.part).recStatus r = 0)
  (hrects : (s.rects g.part (recField r 0x38 1) (recField r 0x39 1) (recField r 0x3A 1)).isEmpty = false)
include hk hrects

theorem State.launchAsk_taken (hpool : ((s.part g.part).poolFor (g.depth + 1)).isSome = true) (b : Bool) :
    ∃ l : Launch, ∃ prio, s.launchAsk n o g r b = (State.launched ((s.setPart g.part ((s.part g.part).taken l)).stampReady g.part) n o
        (BitVec.ofNat 64 (nextArrival (s.part g.part).arrivals * 256))).pass g.part ∧
      l.TakenFrom r (nextArrival (s.part g.part).arrivals) (g.depth + 1) prio (g.arrival :: g.parents) := by
  obtain ⟨pool, hpool⟩ := Option.isSome_iff_exists.mp hpool
  obtain ⟨l, hacc, hl⟩ := State.accept_taken hk hrects hpool (min (recPrio r) ((s.part g.part).ceil (launchQueue o.instr))) (g.arrival :: g.parents)
  refine ⟨l, _, ?_, hl⟩
  unfold State.launchAsk
  rw [hacc]
  rfl

theorem State.launchAsk_noEntry (hpool : (s.part g.part).poolFor (g.depth + 1) = none) (b : Bool) :
    s.launchAsk n o g r b = if b then s else s.launched n o 9#64 := by
  unfold State.launchAsk
  rw [State.accept_noEntry hk hrects hpool]

end Ask

/-! ### A LAUNCH holds its record -/

/-- A LAUNCH with its record read at a wall time (R105). -/
def AOp.holding (o : AOp) (r : Bytes) (wall : Nat) : AOp := if o.begun then o else { o with begun := true, bytes := r, value := BitVec.ofNat 64 wall }

/-- State t is s after the LAUNCH o of core n has read its record, if it had not: its record is o'. -/
structure State.Asking (s t : State) (n : Nat) (o' : AOp) : Prop where
  groups : t.groups = s.groups
  part : ∀ q, (t.part q).readRest = (s.part q).readRest
  core : ∀ m, (t.core m).readRest = (s.core m).readRest
  aops : (t.core n).aops = [o']

/-- The only unfinished syllable of a core is changed by its number. -/
theorem Core.modAop_single {c : Core} {o : AOp} (h : c.aops = [o]) (f : AOp → AOp) : (c.modAop o.iseq f).aops = [f o] :=
  Core.modAop_last (l := []) h rfl (fun _ hy => nomatch hy) f

/-- The only unfinished syllable of a core waits for no access before it. -/
theorem Core.settled_single {c : Core} {o : AOp} (h : c.aops = [o]) : c.settled o = true := by
  simp [Core.settled, h]

theorem State.launchStep_asks {s : State} {n : Nat} {o : AOp} {g : Grp} {r : Bytes} (haops : (s.core n).aops = [o]) (hgrp : s.grpAt n = some g)
    (h : s.launchHolds n o g r) (b : Bool) :
    ∃ t, s.launchStep n o b = t.launchAsk n o g r b ∧ s.Asking t n (o.holding r s.wall) ∧ (o.begun = true → t = s) := by
  unfold State.launchStep
  rw [hgrp]
  dsimp only
  obtain ⟨hbegun, rfl⟩ | ⟨hbegun, hcaps, hways, howed, hbad, rfl⟩ := h
  · refine ⟨s, by simp [hbegun], ⟨rfl, fun _ => rfl, fun _ => rfl, ?_⟩, fun _ => rfl⟩
    rw [haops, AOp.holding, if_pos hbegun]
  · have howed' : o.caps.any (fun c => s.readOwed n g.part o.iseq (s.landsAt g.part c.2.1) c.2.2 true) = false := List.any_eq_false.mpr fun c hc => by simp [howed c hc]
    have hempty : o.caps.isEmpty = false := by simpa using hcaps
    rw [hbegun, hempty, Core.settled_single haops, howed']
    simp only [Bool.not_false, Bool.and_false, Bool.false_eq_true, if_false, Bool.not_true, Bool.or_false]
    unfold State.launchRead
    rw [hways, hbad]
    dsimp only
    obtain ⟨hgroups, hwall, hpart, hcore, hao⟩ : (s.readsDone n g.part o.caps).groups = s.groups ∧ (s.readsDone n g.part o.caps).wall = s.wall ∧
        (fun q => ((s.readsDone n g.part o.caps).part q).readRest) = (fun q => (s.part q).readRest) ∧
        (fun m => ((s.readsDone n g.part o.caps).core m).readRest) = (fun m => (s.core m).readRest) ∧
        (fun m => ((s.readsDone n g.part o.caps).core m).aops) = fun m => (s.core m).aops := by
      simpa only [State.readView, Prod.mk.injEq] using State.readsDone_readView s n g.part o.caps
    refine ⟨_, rfl, ⟨hgroups, congrFun hpart, fun m => ?_, ?_⟩, fun hb => absurd hb (by simp)⟩
    · by_cases hm : m = n
      · rw [hm, State.core_modCore_self]
        exact congrFun hcore n
      · rw [State.core_modCore_other _ _ hm]
        exact congrFun hcore m
    · rw [State.core_modCore_self, hwall]
      refine (Core.modAop_single ?_ _).trans ?_
      · exact (congrFun hao n).trans haops
      · rw [AOp.holding, hbegun]
        rfl

/-! ### The result of a LAUNCH -/

theorem AOp.dest_launch {o : AOp} {gd : BitVec 4} {rd s1 q : BitVec 5} (h : o.instr = .launchB gd rd s1 q ∨ o.instr = .launchN gd rd s1 q) :
    o.dest = some rd.toNat := by
  obtain h | h := h <;> simp only [AOp.dest, h]

/-- A core with a status word that waits for rd. -/
theorem State.launched_self {t : State} {n d : Nat} {o o' : AOp} (haops : (t.core n).aops = [o']) (hiseq : o'.iseq = o.iseq) (hd : o.dest = some d) (h0 : d ≠ 0)
    (v : Word) : (t.launched n o v).core n = { t.core n with aops := [{ o' with phase := .done, value := v }] } := by
  have hx : ¬ o.dest = some 0 := by
    rw [hd]
    simpa using h0
  rw [State.launched, State.core_modCore_self, if_neg hx]
  simp only [Core.modAop, haops, List.map_cons, List.map_nil, if_pos hiseq]

/-- Ending a wait of the access core moves its next issue and nothing else (R35). -/
theorem State.eased_self (s t : State) (n : Nat) :
    ∃ k, (s.eased t n).core n = { t.core n with a := { (t.core n).a with ready := k } } ∧ (s.eased t n).groups = t.groups := by
  unfold State.eased
  split
  · exact ⟨_, State.core_modCore_self .., rfl⟩
  · exact ⟨_, rfl, rfl⟩

/-- The only unfinished syllable of a core, performed, writes rd and is done; a result still to land there stands over it (R45, R50). -/
theorem State.writeRd_done {u : State} {n d : Nat} {x : AOp} (haops : (u.core n).aops = [x]) (hphase : x.phase = .done) (hd : x.dest = some d) (h0 : d ≠ 0)
    (hmay : u.mayWrite n = true) :
    ((u.writeRd n x.iseq).core n).aops = [] ∧ (u.writeRd n x.iseq).groups = u.groups ∧
      sget 0#64 d ((u.writeRd n x.iseq).core n).a.x =
        if (u.core n).cycle < sget 0 d (u.core n).a.due then sget 0#64 d (u.core n).a.x else x.value := by
  have haop : (u.core n).aop x.iseq = some x := by simp [Core.aop, haops]
  have hwrite : u.writeRd n x.iseq = u.modCore n fun c => (c.setResult d x.value).dropAop x.iseq := by
    simp [State.writeRd, haop, hphase, hd, hmay]
  rw [hwrite, State.core_modCore_self]
  refine ⟨?_, rfl, ?_⟩
  · have hset : ((u.core n).setResult d x.value).aops = [x] := by
      unfold Core.setResult Core.setX
      split <;> exact haops
    simp [Core.dropAop, hset]
  · show sget 0#64 d ((u.core n).setResult d x.value).a.x = _
    unfold Core.setResult
    split
    · rfl
    · rw [Core.setX, if_neg h0]
      exact sget_sset_self ..

/-- One not yet performed does not. -/
theorem State.writeRd_sync {u : State} {n q : Nat} {x : AOp} (haops : (u.core n).aops = [x]) (hphase : x.phase = .sync) : u.writeRd n q = u := by
  unfold State.writeRd
  cases haop : (u.core n).aop q with
  | none => rfl
  | some y =>
    have hy : y ∈ (u.core n).aops := List.mem_of_find?_eq_some haop
    obtain rfl : y = x := by simpa [haops] using hy
    simp [hphase]

/-- Without an entry the dispatcher answers a LAUNCH that holds its record with nothing. -/
theorem State.Asking.launchAsk_noEntry {s t : State} {n : Nat} {o o' : AOp} {g : Grp} {r : Bytes} (hk : (s.part g.part).recStatus r = 0)
    (hrects : (s.rects g.part (recField r 0x38 1) (recField r 0x39 1) (recField r 0x3A 1)).isEmpty = false)
    (hpool : (s.part g.part).poolFor (g.depth + 1) = none) (ht : s.Asking t n o') (b : Bool) :
    t.launchAsk n o g r b = if b then t else t.launched n o 9#64 := by
  have hp := ht.part g.part
  refine State.launchAsk_noEntry ((Part.recStatus_congr hp r).trans hk) ?_ ?_ b
  · rw [State.rects_congr hp ht.core]
    exact hrects
  · exact ((congrArg (fun x : Part => x.poolFor (g.depth + 1)) hp :)).trans hpool

section GoesOn
variable {n : Nat} {gd : BitVec 4} {rd s1 q : BitVec 5} {g : Grp} {r : Bytes} {s : State} {o : AOp}

/-- A LAUNCH blocks its core while it waits for its status if it is `.b`. -/
def blocking : Instr → Bool
  | .launchB .. => true
  | _ => false

variable (haops : (s.core n).aops = [o]) (hi : o.instr = .launchB gd rd s1 q ∨ o.instr = .launchN gd rd s1 q) (hphase : o.phase = .sync)
  (hruns : s.opRuns n o.iseq = true) (hpart : (s.core n).part.isSome = true)
include haops hi hphase hruns hpart

theorem exec_aClassResult_launch :
    exec (.aClassResult n o.iseq) s = .next ((s.eased (s.launchStep n o (blocking o.instr)) n).writeRd n o.iseq) := by
  obtain ⟨pn, hpn⟩ := Option.isSome_iff_exists.mp hpart
  have haop : (s.core n).aop o.iseq = some o := by simp [Core.aop, haops]
  have hone : s.syncOne n o.iseq = s.launchStep n o (blocking o.instr) := by
    unfold State.syncOne
    rw [haop, hpn]
    obtain hi | hi := hi <;> simp [hphase, hruns, hi, blocking]
  have htoward : s.towardRd n o = s.eased (s.launchStep n o (blocking o.instr)) n := by
    rw [← hone]
    obtain hi | hi := hi <;> simp [State.towardRd, State.goOn, hi, hphase, State.syncStep]
  show execAClassResult n o.iseq s = _
  unfold execAClassResult
  rw [haop]
  dsimp only
  rw [if_pos hruns, htoward]

variable (hrd : rd ≠ 0#5) (hgrp : s.grpAt n = some g) (hholds : s.launchHolds n o g r)
include hrd hgrp hholds

/-- A LAUNCH that the dispatcher answers with a status puts it into rd and is done. -/
theorem exec_aClassResult_status (hres : g.status ≠ .resuming) {v : Word}
    (hask : ∀ t, s.Asking t n (o.holding r s.wall) → t.launchAsk n o g r (blocking o.instr) = t.launched n o v) :
    ∃ t, exec (.aClassResult n o.iseq) s = .next t ∧ (t.core n).aops = [] ∧ t.groups = s.groups ∧
      sget 0#64 rd.toNat (t.core n).a.x =
        if (s.core n).cycle < sget 0 rd.toNat (s.core n).a.due then sget 0#64 rd.toNat (s.core n).a.x else v := by
  obtain ⟨t, hstep, hasking, -⟩ := State.launchStep_asks haops hgrp hholds (blocking o.instr)
  have h0 : rd.toNat ≠ 0 := fun h => hrd (BitVec.eq_of_toNat_eq (by simpa using h))
  have hdest := AOp.dest_launch hi
  have hiseq : (o.holding r s.wall).iseq = o.iseq := by
    unfold AOp.holding
    split <;> rfl
  have hdest' : (o.holding r s.wall).dest = some rd.toNat := by
    rw [← hdest]
    unfold AOp.holding
    split <;> rfl
  have hself := State.launched_self hasking.aops hiseq hdest h0 v
  obtain ⟨k, hu, hugroups⟩ := State.eased_self s (t.launched n o v) n
  rw [hself] at hu
  have hcore := hasking.core n
  have hcycle : (t.core n).cycle = (s.core n).cycle := (congrArg (fun c : Core => c.cycle) hcore :)
  have ha : (t.core n).a = (s.core n).a := (congrArg (fun c : Core => c.a) hcore :)
  have howner : (t.core n).owner = (s.core n).owner := (congrArg (fun c : Core => c.owner) hcore :)
  have hgroups : (s.eased (t.launched n o v) n).groups = s.groups := hugroups.trans hasking.groups
  have hmay : (s.eased (t.launched n o v) n).mayWrite n = true := by
    have hat : (s.eased (t.launched n o v) n).grpAt n = some g := by
      rw [← hgrp, State.grpAt, hu, State.grpAt, State.grp?_of_groups hgroups, ← howner]
    simp [State.mayWrite, hat, hres]
  have hdone := State.writeRd_done (u := s.eased (t.launched n o v) n) (n := n) (x := { o.holding r s.wall with phase := .done, value := v })
    (by rw [hu]) rfl hdest' h0 hmay
  obtain ⟨hempty, hgr, hx⟩ := hdone
  refine ⟨_, exec_aClassResult_launch haops hi hphase hruns hpart, ?_⟩
  rw [hstep, hask t hasking, ← hiseq]
  refine ⟨hempty, hgr.trans hgroups, hx.trans ?_⟩
  rw [hu, ← hcycle, ← ha]

theorem exec_aClassResult_refused (hres : g.status ≠ .resuming) (hk : (s.part g.part).recStatus r ≠ 0) :
    ∃ t, exec (.aClassResult n o.iseq) s = .next t ∧ (t.core n).aops = [] ∧ t.groups = s.groups ∧
      sget 0#64 rd.toNat (t.core n).a.x = if (s.core n).cycle < sget 0 rd.toNat (s.core n).a.due then sget 0#64 rd.toNat (s.core n).a.x
        else BitVec.ofNat 64 ((s.part g.part).recStatus r) := by
  refine exec_aClassResult_status haops hi hphase hruns hpart hrd hgrp hholds hres fun t ht => ?_
  rw [← Part.recStatus_congr (ht.part g.part) r] at hk ⊢
  exact State.launchAsk_refused hk _

variable (hk : (s.part g.part).recStatus r = 0)
  (hrects : (s.rects g.part (recField r 0x38 1) (recField r 0x39 1) (recField r 0x3A 1)).isEmpty = false)
include hk hrects

theorem exec_aClassResult_taken (hpool : ((s.part g.part).poolFor (g.depth + 1)).isSome = true) :
    ∃ (u : State) (x : AOp) (l : Launch), exec (.aClassResult n o.iseq) s = .next ((s.eased (u.pass g.part) n).writeRd n o.iseq) ∧
      (u.core n).aops = [x] ∧ x.instr = o.instr ∧ x.iseq = o.iseq ∧ x.phase = .done ∧
      x.value = BitVec.ofNat 64 (nextArrival (s.part g.part).arrivals * 256) ∧
      (u.part g.part).pending = (s.part g.part).pending ++ [l] ∧ l.record = r ∧ l.depth = g.depth + 1 ∧ l.parents = g.arrival :: g.parents := by
  obtain ⟨t, hstep, ht, -⟩ := State.launchStep_asks haops hgrp hholds (blocking o.instr)
  have hp := ht.part g.part
  have harr : (t.part g.part).arrivals = (s.part g.part).arrivals := (congrArg (fun x : Part => x.arrivals) hp :)
  have hpend : (t.part g.part).pending = (s.part g.part).pending := (congrArg (fun x : Part => x.pending) hp :)
  rw [← Part.recStatus_congr hp r] at hk
  rw [← State.rects_congr hp ht.core] at hrects
  have hpool' : ((t.part g.part).poolFor (g.depth + 1)).isSome = true := (congrArg (fun x : Part => (x.poolFor (g.depth + 1)).isSome) hp).trans hpool
  obtain ⟨l, prio, hask, hl⟩ := State.launchAsk_taken (n := n) (o := o) hk hrects hpool' (blocking o.instr)
  have h0 : rd.toNat ≠ 0 := fun h => hrd (BitVec.eq_of_toNat_eq (by simpa using h))
  have hiseq : (o.holding r s.wall).iseq = o.iseq ∧ (o.holding r s.wall).instr = o.instr := by
    unfold AOp.holding
    split <;> exact ⟨rfl, rfl⟩
  have hself := State.launched_self (t := (t.setPart g.part ((t.part g.part).taken l)).stampReady g.part) ht.aops hiseq.1 (AOp.dest_launch hi) h0
    (BitVec.ofNat 64 (nextArrival (t.part g.part).arrivals * 256))
  refine ⟨State.launched ((t.setPart g.part ((t.part g.part).taken l)).stampReady g.part) n o (BitVec.ofNat 64 (nextArrival (t.part g.part).arrivals * 256)),
    { o.holding r s.wall with phase := .done, value := BitVec.ofNat 64 (nextArrival (t.part g.part).arrivals * 256) }, l, ?_, ?_, hiseq.2, hiseq.1, rfl,
    by rw [harr], ?_, hl.record, hl.depth, hl.parents⟩
  · rw [exec_aClassResult_launch haops hi hphase hruns hpart, hstep, hask]
  · rw [hself]
  · show (((t.setPart g.part ((t.part g.part).taken l)).stampReady g.part).part g.part).pending = _
    rw [State.part_stampReady, State.part_setPart_self, ← hpend]
    rfl

variable (hpool : (s.part g.part).poolFor (g.depth + 1) = none)
include hpool

theorem exec_aClassResult_noEntry (hres : g.status ≠ .resuming) :
    (o.instr = .launchN gd rd s1 q → ∃ t, exec (.aClassResult n o.iseq) s = .next t ∧
      sget 0#64 rd.toNat (t.core n).a.x =
        (if (s.core n).cycle < sget 0 rd.toNat (s.core n).a.due then sget 0#64 rd.toNat (s.core n).a.x else 9#64) ∧ (t.core n).aops = []) ∧
    (o.instr = .launchB gd rd s1 q → o.begun = true → exec (.aClassResult n o.iseq) s = .next s) ∧
    (o.instr = .launchB gd rd s1 q → o.begun = false → ∃ t, exec (.aClassResult n o.iseq) s = .next t ∧
      (t.core n).aops = [{ o with begun := true, bytes := r, value := BitVec.ofNat 64 s.wall }]) := by
  obtain ⟨t, hstep, ht, hsame⟩ := State.launchStep_asks haops hgrp hholds (blocking o.instr)
  have hno {u : State} (hu : s.Asking u n (o.holding r s.wall)) (b : Bool) := State.Asking.launchAsk_noEntry (o := o) hk hrects hpool hu b
  have hsync : (o.holding r s.wall).phase = .sync := by
    rw [← hphase]
    unfold AOp.holding
    split <;> rfl
  refine ⟨fun hn => ?_, fun hb hbegun => ?_, fun hb hbegun => ?_⟩
  · obtain ⟨u, hexec, hempty, -, hx⟩ := exec_aClassResult_status haops hi hphase hruns hpart hrd hgrp hholds hres (v := 9#64) fun u hu => by
      rw [hno hu, hn]
      rfl
    exact ⟨u, hexec, hx, hempty⟩
  · rw [exec_aClassResult_launch haops hi hphase hruns hpart, hstep, hno ht, hsame hbegun, hb]
    have heased : s.eased s n = s := if_neg (by simp)
    simp only [blocking, if_true, heased]
    rw [State.writeRd_sync haops hphase]
  · obtain ⟨k, hu, -⟩ := State.eased_self s t n
    have hao : ((s.eased t n).core n).aops = [o.holding r s.wall] := by
      rw [hu]
      exact ht.aops
    refine ⟨_, exec_aClassResult_launch haops hi hphase hruns hpart, ?_⟩
    rw [hstep, hno ht, hb]
    simp only [blocking, if_true]
    rw [State.writeRd_sync hao hsync, hao, AOp.holding, hbegun, hb]
    rfl

end GoesOn

end Sys2Proof.Machine

/-! SUPPORT. Halting a group: contexts by number, what settling, freezing and trace records leave as they are, and what every core of the group shows. -/

namespace Sys2Proof.Machine

/-! ### Contexts by number -/

/-- Changing contexts without renumbering them changes the one that a number finds. -/
theorem State.grp?_map {s t : State} {f : Grp → Grp} (h : t.groups = s.groups.map f) (hf : ∀ g, (f g).num = g.num) (k : Nat) : t.grp? k = (s.grp? k).map f := by
  rw [State.grp?, h, List.find?_map, State.grp?]
  congr 2
  exact funext fun g => by simp [hf]

theorem State.setGrp_groups (s : State) (g : Grp) : (s.setGrp g).groups = s.groups.map fun h => if h.num == g.num then g else h := rfl

theorem State.grp?_setGrp_self {s : State} {g h : Grp} (hg : s.grp? g.num = some h) : (s.setGrp g).grp? g.num = some g := by
  rw [State.grp?_map (s.setGrp_groups g) (fun h => by split <;> simp_all), hg]
  simp [State.num_of_grp? hg]

theorem State.grp?_setGrp_other {s : State} {g : Grp} {k : Nat} (hk : k ≠ g.num) : (s.setGrp g).grp? k = s.grp? k := by
  rw [State.grp?_map (s.setGrp_groups g) (fun h => by split <;> simp_all)]
  cases hg : s.grp? k with
  | none => rfl
  | some h =>
    have hnum : ¬ h.num = g.num := fun hn => hk ((State.num_of_grp? hg).symm.trans hn)
    simp [hnum]

/-- A context but for the moment from which it is ready. -/
def Grp.readyRest (g : Grp) : Grp := { g with readySince := 0 }

/-- Stamping the moment from which contexts are ready changes nothing else of one (R101). -/
theorem State.grp?_stampReady {s : State} {k : Nat} {g : Grp} (pn : Nat) (h : s.grp? k = some g) :
    ∃ g', (s.stampReady pn).grp? k = some g' ∧ g'.readyRest = g.readyRest := by
  refine ⟨_, (State.grp?_map rfl (fun g => ?_) k).trans (congrArg _ h), ?_⟩
  · (repeat' split) <;> rfl
  · (repeat' split) <;> rfl

/-! ### What a halt leaves of contexts and partitions -/

/-- The contexts, the wall time and what the dispatcher has reserved. -/
def State.haltView (s : State) : List Grp × Nat × (Nat → List (Nat × List Nat)) := (s.groups, s.wall, fun q => (s.part q).reserved)

theorem State.haltView_of_readView {s t : State} (h : t.readView = s.readView) : t.haltView = s.haltView := by
  obtain ⟨hgroups, hwall, hpart, -⟩ : t.groups = s.groups ∧ t.wall = s.wall ∧
      (fun q => (t.part q).readRest) = (fun q => (s.part q).readRest) ∧ _ := by
    simpa only [State.readView, Prod.mk.injEq] using h
  have hres : (fun q => (t.part q).reserved) = fun q => (s.part q).reserved := (congrArg (fun (f : Nat → Part) q => (f q).reserved) hpart :)
  simp only [State.haltView, hgroups, hwall, hres]

@[simp] theorem State.modCore_haltView (s : State) (n : Nat) (f : Core → Core) : (s.modCore n f).haltView = s.haltView := rfl

@[simp] theorem State.writePlace_haltView (s : State) (me : Nat) (p : Place) (d : Bytes) (t : Tag) : (s.writePlace me p d t).haltView = s.haltView := by
  cases p <;> rfl

@[simp] theorem State.settleOne_haltView (s : State) (n : Nat) (o : AOp) : (s.settleOne n o).haltView = s.haltView := by
  have hcharge (pn : Nat) (d : Bytes) : (s.charge pn o.place d).haltView = s.haltView := State.haltView_of_readView (State.charge_readView ..)
  have hreads (t : State) (m space : Nat) (k : Nat) (acq : Option Nat) : (t.reads m space o.place k acq).haltView = t.haltView :=
    State.haltView_of_readView (State.reads_readView ..)
  unfold State.settleOne
  split
  · split
    · rfl
    · dsimp only
      split <;> simp only [State.modCore_haltView, State.writePlace_haltView, hreads, hcharge]
  · rfl

@[simp] theorem State.settle_haltView (s : State) (n : Nat) : (s.settle n).haltView = s.haltView := by
  unfold State.settle
  dsimp only
  split
  · rfl
  · exact State.foldl_keeps State.haltView (fun t o => t.settleOne_haltView n o) _ s

theorem State.setPart_haltView (s : State) (pn : Nat) {p : Part} (h : p.reserved = (s.part pn).reserved) : (s.setPart pn p).haltView = s.haltView := by
  have hres (q : Nat) : ((s.setPart pn p).part q).reserved = (s.part q).reserved := by
    by_cases hq : q = pn
    · rw [hq, State.part_setPart_self, h]
    · rw [State.part_setPart_other _ _ hq]
  simp only [State.haltView, hres]
  rfl

@[simp] theorem State.storeHbm_haltView (s : State) (a : Nat) (d : Bytes) : (s.storeHbm a d).haltView = s.haltView := by
  unfold State.storeHbm
  split <;> rfl

@[simp] theorem State.trace_haltView (s : State) (pn src kind a : Nat) (b : Word) : (s.trace pn src kind a b).haltView = s.haltView := by
  unfold State.trace
  dsimp only
  split
  · rfl
  · split
    · exact s.setPart_haltView pn rfl
    · rw [State.storeHbm_haltView]
      exact s.setPart_haltView pn rfl

@[simp] theorem State.slipEnds_haltView (s : State) (g : Grp) : (s.slipEnds g).haltView = s.haltView := by
  unfold State.slipEnds
  split <;> simp

@[simp] theorem State.trace_cores (s : State) (pn src kind a : Nat) (b : Word) : (s.trace pn src kind a b).cores = s.cores := by
  unfold State.trace State.storeHbm
  dsimp only
  (repeat' split) <;> rfl

@[simp] theorem State.slipEnds_cores (s : State) (g : Grp) : (s.slipEnds g).cores = s.cores := by
  unfold State.slipEnds
  split <;> simp

/-- A core that shows a cause the dispatcher put there. -/
def Core.caused (cause code : Nat) (c : Core) : Core := { c.putCause { cause := cause, code := code } with toSupv := false }

/-- The state in which every core of a group is settled and shows one cause (R311). -/
def State.caused (s : State) (g : Grp) (cause code : Nat) : State :=
  g.cores.foldl (fun s n => s.modCore n (Core.caused cause code)) ((g.cores.foldl State.settle s).slipEnds g)

/-- The state in which every core of a group is frozen, its copy engine's match marked (R311, R362). -/
def State.frozenAll (s : State) (g : Grp) : State :=
  g.cores.foldl (fun s n => s.freeze g n) (g.cores.foldl (fun s n => s.modCore n Core.joinWatch) s)

/-- The trace records of a stop (R350). -/
def State.stopTraced (s : State) (g : Grp) : State :=
  g.cores.foldl (fun s n => s.trace g.part (2 * n) 2 ((s.core n).causeWord.toNat % 2 ^ 32) (BitVec.ofNat 64 (s.core n).ts)) s

@[simp] theorem State.caused_haltView (s : State) (g : Grp) (cause code : Nat) : (s.caused g cause code).haltView = s.haltView := by
  unfold State.caused
  rw [State.foldl_keeps State.haltView (f := fun s n => s.modCore n (Core.caused cause code)) (fun _ _ => rfl), State.slipEnds_haltView]
  exact State.foldl_keeps State.haltView State.settle_haltView g.cores s

@[simp] theorem State.frozenAll_haltView (s : State) (g : Grp) : (s.frozenAll g).haltView = s.haltView := by
  unfold State.frozenAll
  rw [State.foldl_keeps State.haltView (f := fun s n => s.freeze g n) (fun _ _ => rfl),
    State.foldl_keeps State.haltView (f := fun s n => s.modCore n Core.joinWatch) (fun _ _ => rfl)]

@[simp] theorem State.stopTraced_haltView (s : State) (g : Grp) : (s.stopTraced g).haltView = s.haltView :=
  State.foldl_keeps State.haltView (fun _ _ => State.trace_haltView ..) g.cores s

@[simp] theorem State.stopTraced_cores (s : State) (g : Grp) : (s.stopTraced g).cores = s.cores :=
  State.foldl_keeps State.cores (fun _ _ => State.trace_cores ..) g.cores s

/-- Halting a group that runs or reissues (R311). -/
theorem State.halt_of_runs {g : Grp} (h : (g.status == .running || g.status == .resuming) = true) (s : State) (cause code : Nat) :
    s.halt g cause code = (((s.caused g cause code).frozenAll g).stopTraced g).setGrp { g with status := .stopped, slip := none } := by
  unfold State.halt
  dsimp only
  rw [if_pos h]
  rfl

/-- Halting a group whose handlers run (R311). -/
theorem State.halt_of_handling {g : Grp} (h : g.status = .handling) (s : State) (cause code : Nat) :
    s.halt g cause code = (s.caused g cause code).setGrp { g with status := .stopped } := by
  unfold State.halt
  simp only [h]
  rfl

theorem State.halt_of_stopped {g : Grp} (h : g.status = .stopped) (s : State) (cause code : Nat) :
    s.halt g cause code = (g.cores.foldl (fun s n => s.freeze g n) (s.caused g cause code)).setGrp { g with status := .stopped } := by
  unfold State.halt
  simp only [h]
  rfl

/-! ### What every core of a halted group shows -/

/-- A fold that takes an element gives what the element's step gives, when every step keeps it. -/
theorem foldl_establishes {σ α : Type} {f : σ → α → σ} {P Q : σ → Prop} {a : α} {l : List α} (ha : a ∈ l) (hf : ∀ t, Q t → P (f t a))
    (hP : ∀ t x, P t → P (f t x)) (hQ : ∀ t x, Q t → Q (f t x)) {s : σ} (hs : Q s) : P (l.foldl f s) := by
  obtain ⟨l₁, l₂, rfl⟩ := List.append_of_mem ha
  rw [List.foldl_append, List.foldl_cons]
  refine List.foldlRecOn (motive := P) _ _ (hf _ ?_) fun t ht x _ => hP t x ht
  exact List.foldlRecOn (motive := Q) _ _ hs fun t ht x _ => hQ t x ht

/-- A property of one core that every step of a fold keeps. -/
theorem State.foldl_core_keeps {α : Type} {f : State → α → State} {P : Core → Prop} (m : Nat) (hf : ∀ t x, P (t.core m) → P ((f t x).core m)) (l : List α)
    {s : State} (hs : P (s.core m)) : P ((l.foldl f s).core m) :=
  List.foldlRecOn (motive := fun t : State => P (t.core m)) _ _ hs fun t ht x _ => hf t x ht

theorem State.modCore_core_keeps {f : Core → Core} {P : Core → Prop} (hf : ∀ c, P c → P (f c)) {s : State} (n m : Nat) (h : P (s.core m)) :
    P ((s.modCore n f).core m) := by
  by_cases hm : m = n
  · rw [hm, State.core_modCore_self]
    exact hf _ (hm ▸ h)
  · rwa [State.core_modCore_other _ _ hm]

/-- A fold that changes one core at a time gives each of its cores what its step gives. -/
theorem State.foldl_modCore_mem {f : Core → Core} {P Q : Core → Prop} (hf : ∀ c, Q c → P (f c)) (hPQ : ∀ c, P c → Q c) {m : Nat} {l : List Nat} (hm : m ∈ l)
    {s : State} (hs : Q (s.core m)) : P ((l.foldl (fun s n => s.modCore n f) s).core m) :=
  foldl_establishes (P := fun t : State => P (t.core m)) (Q := fun t : State => Q (t.core m)) hm
    (fun t ht => by
      rw [State.core_modCore_self]
      exact hf _ ht)
    (fun _ n ht => State.modCore_core_keeps (P := P) (fun c hc => hf c (hPQ c hc)) n m ht)
    (fun _ n ht => State.modCore_core_keeps (P := Q) (fun c hc => hPQ _ (hf c hc)) n m ht) hs

@[simp] theorem Core.markOp_cause (c : Core) (k : Cause) : (c.markOp k).cause = c.cause := by
  unfold Core.markOp
  split <;> rfl

/-- What the copy engine raises marks no A-class syllable. -/
theorem Core.markOp_copyEngine_aops (c : Core) {k : Cause} (h : k.engine = 5) : (c.markOp k).aops = c.aops := by
  unfold Core.markOp
  split
  · rfl
  · simp [h]

/-- Joining the copy engine's match changes the header of no core that a cause of the dispatcher stands on, and no A-class syllable (R322, R362). -/
theorem Core.joinWatch_keeps (c : Core) : c.joinWatch.aops = c.aops ∧ (c.cause = 0x80 ∨ c.cause = 0x81 → c.joinWatch.cause = c.cause) := by
  refine List.foldlRecOn (motive := fun d : Core => d.aops = c.aops ∧ (c.cause = 0x80 ∨ c.cause = 0x81 → d.cause = c.cause)) _ _ ⟨rfl, fun _ => rfl⟩ fun d hd m _ => ?_
  obtain ⟨haops, hcause⟩ := hd
  split
  next w _ =>
    split
    · unfold Core.joinCause
      split
      next hout =>
        refine ⟨(Core.markOp_copyEngine_aops _ rfl).trans haops, fun hc => ?_⟩
        have hd := hcause hc
        obtain hc | hc := hc <;> simp [Core.outranked, hd, hc] at hout
      · exact ⟨(Core.markOp_copyEngine_aops _ rfl).trans haops, fun hc => (Core.markOp_cause ..).trans (hcause hc)⟩
    · exact ⟨haops, hcause⟩
  · exact ⟨haops, hcause⟩

@[simp] theorem Core.giveBack_aops (c : Core) : c.giveBack.aops = c.aops := by
  unfold Core.giveBack
  dsimp only
  (repeat' split) <;> rfl

@[simp] theorem Core.giveBack_cause (c : Core) : c.giveBack.cause = c.cause := by
  unfold Core.giveBack
  dsimp only
  (repeat' split) <;> rfl

/-- Freezing leaves the A-class syllables of every core, and the cause of one that shows a cause. -/
theorem State.freeze_keeps (s : State) (g : Grp) (n m : Nat) :
    ((s.freeze g n).core m).aops = (s.core m).aops ∧ ((s.core m).cause ≠ 0 → ((s.freeze g n).core m).cause = (s.core m).cause) := by
  by_cases hm : m = n
  · subst hm
    unfold State.freeze
    dsimp only
    rw [State.core_modCore_self]
    split
    · exact ⟨Core.giveBack_aops _, fun h => by simp [h]⟩
    · exact ⟨Core.giveBack_aops _, fun h => by simp [Core.writeSurvey, Core.touch, h]⟩
  · unfold State.freeze
    dsimp only
    rw [State.core_modCore_other _ _ hm]
    exact ⟨rfl, fun _ => rfl⟩

theorem State.writePlace_aops (s : State) (me : Nat) (p : Place) (d : Bytes) (t : Tag) (m : Nat) : ((s.writePlace me p d t).core m).aops = (s.core m).aops := by
  show ((s.writeRaw me p d).core m).aops = _
  have hmod (n : Nat) (f : Core → Core) (hf : ∀ c, (f c).aops = c.aops) : ((s.modCore n f).core m).aops = (s.core m).aops :=
    State.modCore_core_keeps (P := fun c => c.aops = (s.core m).aops) (fun c hc => (hf c).trans hc) n m rfl
  cases p with
  | sp n off => exact hmod n _ fun _ => rfl
  | slot o off => exact hmod me _ fun _ => rfl
  | _ => rfl

/-- Performing an access of one core leaves the A-class syllables of another. -/
theorem State.settleOne_aops_other (s : State) {n m : Nat} (o : AOp) (h : m ≠ n) : ((s.settleOne n o).core m).aops = (s.core m).aops := by
  have haops {t u : State} (hv : t.readView = u.readView) : (t.core m).aops = (u.core m).aops :=
    (congrArg (fun v : List Grp × Nat × (Nat → Part) × (Nat → Core) × (Nat → List AOp) => v.2.2.2.2 m) hv :)
  unfold State.settleOne
  split
  · split
    · rfl
    · dsimp only
      split
      case h_5 => rfl
      case h_1 | h_2 =>
        rw [State.core_modCore_other _ _ h]
        exact (haops (State.reads_readView ..)).trans (haops (State.charge_readView ..))
      case h_3 | h_4 =>
        rw [State.core_modCore_other _ _ h, State.writePlace_aops]
        exact haops (State.charge_readView ..)
  · rfl

/-- A stop performs nothing of a core whose syllables are about no access that is ready (R279). -/
theorem State.settle_aops_unready {s : State} {m : Nat} (h : ∀ o ∈ (s.core m).aops, o.phase ≠ .ready) (n : Nat) : ((s.settle n).core m).aops = (s.core m).aops := by
  unfold State.settle
  dsimp only
  split
  · rfl
  · by_cases hn : n = m
    · subst hn
      have hnone (l : List Nat) : ((s.core n).aops.filter fun o => o.phase == .ready && l.contains o.iseq) = [] :=
        List.filter_eq_nil_iff.mpr fun o ho => by simp [h o ho]
      rw [hnone]
      rfl
    · exact State.foldl_core_keeps (P := fun c => c.aops = (s.core m).aops) m (fun t o ht => (t.settleOne_aops_other o fun hm => hn hm.symm).trans ht) _ rfl

/-- A halt by the dispatcher puts its cause on every core of the group and leaves the syllables of a core with no access that is ready. -/
theorem State.caused_cause (s : State) {g : Grp} {m : Nat} (hm : m ∈ g.cores) (cause code : Nat) : ((s.caused g cause code).core m).cause = cause :=
  State.foldl_modCore_mem (P := fun c => c.cause = cause) (Q := fun _ => True) (fun _ _ => rfl) (fun _ _ => trivial) hm trivial

theorem State.caused_aops {s : State} {m : Nat} (h : ∀ o ∈ (s.core m).aops, o.phase ≠ .ready) (g : Grp) (cause code : Nat) :
    ((s.caused g cause code).core m).aops = (s.core m).aops := by
  have hkept : ((g.cores.foldl State.settle s).core m).aops = (s.core m).aops :=
    State.foldl_core_keeps (P := fun c => c.aops = (s.core m).aops) m (fun t n ht => (State.settle_aops_unready (ht ▸ h) n).trans ht) _ rfl
  refine State.foldl_core_keeps (P := fun c => c.aops = (s.core m).aops) m (fun t n ht => ?_) _ ?_
  · exact State.modCore_core_keeps (f := Core.caused cause code) (P := fun c => c.aops = (s.core m).aops) (fun c hc => hc) n m ht
  · rw [State.core_of_cores (State.slipEnds_cores ..)]
    exact hkept

theorem State.frozenAll_aops (s : State) (g : Grp) (m : Nat) : ((s.frozenAll g).core m).aops = (s.core m).aops := by
  refine State.foldl_core_keeps (P := fun c => c.aops = (s.core m).aops) m (fun t n ht => (t.freeze_keeps g n m).1.trans ht) _ ?_
  exact State.foldl_core_keeps (P := fun c => c.aops = (s.core m).aops) m
    (fun t n ht => State.modCore_core_keeps (P := fun c => c.aops = (s.core m).aops) (fun c hc => c.joinWatch_keeps.1.trans hc) n m ht) _ rfl

theorem State.frozenAll_cause {s : State} {m k : Nat} (g : Grp) (h : (s.core m).cause = k) (hk : k = 0x80 ∨ k = 0x81) : ((s.frozenAll g).core m).cause = k := by
  have h0 : k ≠ 0 := by omega
  refine State.foldl_core_keeps (P := fun c => c.cause = k) m (fun t n ht => ((t.freeze_keeps g n m).2 (ht ▸ h0)).trans ht) _ ?_
  exact State.foldl_core_keeps (P := fun c => c.cause = k) m
    (fun t n ht => State.modCore_core_keeps (P := fun c => c.cause = k) (fun c hc => (c.joinWatch_keeps.2 (hc ▸ hk)).trans hc) n m ht) _ h

/-! ### The halt as a whole -/

/-- A group whose cores can be halted: it runs, reissues, runs handlers or has stopped. -/
def Grp.haltable (g : Grp) : Prop := g.status = .running ∨ g.status = .resuming ∨ g.status = .handling ∨ g.status = .stopped

/-- A context that is saved or waits shows the cause and stays as it is. -/
theorem State.halt_of_other {g : Grp} (h : ¬ g.haltable) (s : State) (cause code : Nat) : s.halt g cause code = s.caused g cause code := by
  obtain ⟨hrun, hres, hhand, hstop⟩ : g.status ≠ .running ∧ g.status ≠ .resuming ∧ g.status ≠ .handling ∧ g.status ≠ .stopped := by
    simpa [Grp.haltable] using h
  unfold State.halt
  dsimp only
  rw [if_neg (by simp [hrun, hres]), if_neg (by simp [hstop]), if_neg (by simp [hhand])]
  rfl

/-- State u is s with every core of g halted under one cause. -/
structure State.Halts (s u : State) (g : Grp) (cause : Nat) : Prop where
  view : u.haltView = s.haltView
  owner : ∀ n, (u.core n).owner = (s.core n).owner
  cause : ∀ m ∈ g.cores, cause = 0x80 ∨ cause = 0x81 → (u.core m).cause = cause
  aops : ∀ m, (∀ o ∈ (s.core m).aops, o.phase ≠ .ready) → (u.core m).aops = (s.core m).aops

section Halt
variable {s : State} {g : Grp} {cause code : Nat}

theorem State.caused_owned (s : State) (g : Grp) (cause code : Nat) : (s.caused g cause code).Owned s.lostNodes fun n => (s.core n).owner :=
  State.Owned.foldl (State.Owned.slipEnds ((State.Owned.self s).foldl (fun _ n ht => ht.settle n) _) g)
    (f := fun s n => s.modCore n (Core.caused cause code)) (fun _ n ht => ht.modCore n fun _ => rfl) _

theorem State.Owned.frozenAll {lost : List Nat} {own : Nat → Nat} (h : s.Owned lost own) : (s.frozenAll g).Owned lost own :=
  State.Owned.foldl (h.foldl (f := fun s n => s.modCore n Core.joinWatch) (fun _ n ht => ht.modCore n Core.joinWatch_owner) _)
    (fun _ n ht => ht.freeze g n) _

theorem State.halts_caused (s : State) (g : Grp) (cause code : Nat) : s.Halts (s.caused g cause code) g cause where
  view := State.caused_haltView ..
  owner := (s.caused_owned g cause code).2
  cause _ hm _ := s.caused_cause hm cause code
  aops _ h := State.caused_aops h g cause code

theorem State.Halts.frozenAll {u : State} (h : s.Halts u g cause) : s.Halts (u.frozenAll g) g cause where
  view := (State.frozenAll_haltView ..).trans h.view
  owner := (State.Owned.frozenAll (g := g) (own := fun n => (s.core n).owner) (lost := u.lostNodes) ⟨rfl, h.owner⟩).2
  cause m hm hc := State.frozenAll_cause g (h.cause m hm hc) hc
  aops m hm := (State.frozenAll_aops ..).trans (h.aops m hm)

theorem State.Halts.frozen {u : State} (h : s.Halts u g cause) : s.Halts (g.cores.foldl (fun s n => s.freeze g n) u) g cause where
  view := (State.foldl_keeps State.haltView (f := fun s n => s.freeze g n) (fun _ _ => rfl) ..).trans h.view
  owner := (State.Owned.foldl (own := fun n => (s.core n).owner) (lost := u.lostNodes) ⟨rfl, h.owner⟩ (fun _ n ht => ht.freeze g n) g.cores).2
  cause m hm hc := by
    have h0 : cause ≠ 0 := by omega
    exact State.foldl_core_keeps (P := fun c => c.cause = cause) m (fun t n ht => ((t.freeze_keeps g n m).2 (ht ▸ h0)).trans ht) _ (h.cause m hm hc)
  aops m hm := (State.foldl_core_keeps (P := fun c => c.aops = (u.core m).aops) m (fun t n ht => (t.freeze_keeps g n m).1.trans ht) _ rfl).trans (h.aops m hm)

theorem State.Halts.of_cores {u v : State} (h : s.Halts u g cause) (hc : v.cores = u.cores) (hv : v.haltView = u.haltView) : s.Halts v g cause where
  view := hv.trans h.view
  owner n := (congrArg Core.owner (State.core_of_cores hc n)).trans (h.owner n)
  cause m hm hk := (congrArg Core.cause (State.core_of_cores hc m)).trans (h.cause m hm hk)
  aops m hm := (congrArg Core.aops (State.core_of_cores hc m)).trans (h.aops m hm)

/-- A halt ends with the group stopped and its cores halted (R311). -/
theorem State.halt_halts (h : g.haltable) (s : State) (cause code : Nat) :
    ∃ u slip, s.halt g cause code = u.setGrp { g with status := .stopped, slip := slip } ∧ s.Halts u g cause := by
  have hcaused := s.halts_caused g cause code
  have hruns (hr : (g.status == .running || g.status == .resuming) = true) :
      ∃ u slip, s.halt g cause code = u.setGrp { g with status := .stopped, slip := slip } ∧ s.Halts u g cause :=
    ⟨_, none, State.halt_of_runs hr s cause code, hcaused.frozenAll.of_cores (State.stopTraced_cores ..) (State.stopTraced_haltView ..)⟩
  obtain h | h | h | h := h
  · exact hruns (by simp [h])
  · exact hruns (by simp [h])
  · exact ⟨_, g.slip, State.halt_of_handling h s cause code, hcaused⟩
  · exact ⟨_, g.slip, State.halt_of_stopped h s cause code, hcaused.frozen⟩

/-- A halted group is found by its number. -/
theorem State.Halts.grp? {u : State} (h : s.Halts u g cause) {g' : Grp} (hnum : g'.num = g.num) (hg : (s.grp? g.num).isSome = true) :
    (u.setGrp g').grp? g.num = some g' := by
  have hgroups : u.groups = s.groups := (congrArg (fun v : List Grp × Nat × (Nat → List (Nat × List Nat)) => v.1) h.view :)
  obtain ⟨k, hk⟩ := Option.isSome_iff_exists.mp hg
  rw [← hnum] at hk ⊢
  exact State.grp?_setGrp_self ((State.grp?_of_groups hgroups _).trans hk)

end Halt

end Sys2Proof.Machine

/-! PROOFS. The end of a LAUNCH.b that has waited 16 µs, and what launches and queues do (O50). -/

namespace Sys2Proof.Machine

/-- A LAUNCH.b of which nothing has happened yet. -/
def AOp.launchedAgain (o : AOp) : AOp := { o with begun := false, bytes := [], value := 0#64, caps := [] }

theorem Core.launchesAgain_single {c : Core} {o : AOp} {gd : BitVec 4} {rd s1 q : BitVec 5} (hi : o.instr = .launchB gd rd s1 q) (hphase : o.phase = .sync)
    (h : c.aops = [o]) : c.launchesAgain.aops = [o.launchedAgain] := by
  simp [Core.launchesAgain, h, hi, hphase, AOp.launchedAgain]

section Timeout
variable {n : Nat} {gd : BitVec 4} {rd s1 q : BitVec 5} {g : Grp} {s : State} {o : AOp}

/-- Every core of a group starts its waiting LAUNCH.b over (R106). -/
def State.launchesAgain (s : State) (g : Grp) : State := g.cores.foldl (fun s n => s.modCore n Core.launchesAgain) s

@[simp] theorem State.launchesAgain_groups (s : State) (g : Grp) : (s.launchesAgain g).groups = s.groups :=
  State.foldl_keeps State.groups (f := fun s n => s.modCore n Core.launchesAgain) (fun _ _ => rfl) _ s

@[simp] theorem State.launchesAgain_wall (s : State) (g : Grp) : (s.launchesAgain g).wall = s.wall :=
  State.foldl_keeps State.wall (f := fun s n => s.modCore n Core.launchesAgain) (fun _ _ => rfl) _ s

/-- A context that waits for its place again is found by its number, and only the moment from which it is ready may differ (R98, R103). -/
theorem State.requeued_grp? (pool : Option Nat) (hg : s.grp? g.num = some g) :
    ∃ g', (s.requeued g pool).1.grp? g.num = some g' ∧ g'.readyRest = { g with needsPool := pool, queuedSince := s.wall }.readyRest := by
  have hset := State.grp?_setGrp_self (g := { g with needsPool := pool, queuedSince := s.wall, readySince := if pool.isSome then 0 else s.wall }) hg
  obtain ⟨g', hg', hrest⟩ := State.grp?_stampReady g.part hset
  exact ⟨g', hg', hrest⟩

variable (haops : (s.core n).aops = [o]) (hi : o.instr = .launchB gd rd s1 q) (hphase : o.phase = .sync) (hbegun : o.begun = true) (hgrp : s.grpAt n = some g)
include haops hi hphase hbegun hgrp

theorem exec_launchWaitTimeout (hruns : s.accessRuns n = true) :
    exec (.launchWaitTimeout n) s = .next (if o.value.toNat + 16000 ≤ s.wall then
      ((s.launchesAgain g).requeued g (some (g.depth + 1))).1.halt
        (((((s.launchesAgain g).requeued g (some (g.depth + 1))).1.grp? g.num).getD ((s.launchesAgain g).requeued g (some (g.depth + 1))).2)) 0x81 0 else s) := by
  show execLaunchWaitTimeout n s = _
  unfold execLaunchWaitTimeout
  simp [haops, hi, hphase, hbegun, hgrp, hruns, State.launchesAgain]

/-- The timeout deschedules the group, every core of which shows cause 0x81, and the LAUNCH.b starts over (R106; log entry 50). -/
theorem exec_launchWaitTimeout_due (hn : n ∈ g.cores) (hruns : s.accessRuns n = true) (hdue : o.value.toNat + 16000 ≤ s.wall) :
    ∃ (t : State) (h : Grp), exec (.launchWaitTimeout n) s = .next t ∧ t.grp? g.num = some h ∧ h.status = .stopped ∧ h.needsPool = some (g.depth + 1) ∧
      h.queuedSince = s.wall ∧ (∀ m ∈ g.cores, (t.core m).cause = 0x81) ∧ (t.core n).aops = [o.launchedAgain] := by
  have hg : s.grp? g.num = some g := by
    unfold State.grpAt at hgrp
    split at hgrp
    · nomatch hgrp
    · rwa [State.num_of_grp? hgrp]
  obtain ⟨g', hg', hrest⟩ := State.requeued_grp? (s := s.launchesAgain g) (some (g.depth + 1)) ((State.grp?_of_groups (s.launchesAgain_groups g) _).trans hg)
  have hstatus : g'.status = g.status := (congrArg (fun x : Grp => x.status) hrest :)
  have hcores : g'.cores = g.cores := (congrArg (fun x : Grp => x.cores) hrest :)
  have hnum : g'.num = g.num := (congrArg (fun x : Grp => x.num) hrest :)
  have hhaltable : g'.haltable := by
    simp only [State.accessRuns, hgrp, Bool.or_eq_true, Bool.and_eq_true, beq_iff_eq] at hruns
    unfold Grp.haltable
    rw [hstatus]
    tauto
  obtain ⟨u, slip, hhalt, hu⟩ := State.halt_halts hhaltable ((s.launchesAgain g).requeued g (some (g.depth + 1))).1 0x81 0
  have hagain : (((s.launchesAgain g).requeued g (some (g.depth + 1))).1.core n).aops = [o.launchedAgain] := by
    have hagainOf (c : Core) (h : c.aops = [o] ∨ c.aops = [o.launchedAgain]) : c.launchesAgain.aops = [o.launchedAgain] :=
      h.elim (Core.launchesAgain_single hi hphase) (Core.launchesAgain_single (o := o.launchedAgain) hi hphase)
    exact State.foldl_modCore_mem (f := Core.launchesAgain) (P := fun c => c.aops = [o.launchedAgain]) (Q := fun c => c.aops = [o] ∨ c.aops = [o.launchedAgain])
      hagainOf (fun _ h => .inr h) hn (.inl haops)
  refine ⟨u.setGrp { g' with status := .stopped, slip := slip }, { g' with status := .stopped, slip := slip }, ?_, ?_, rfl,
    (congrArg (fun x : Grp => x.needsPool) hrest :), ?_, fun m hm => hu.cause m (hcores ▸ hm) (.inr rfl), ?_⟩
  · rw [exec_launchWaitTimeout haops hi hphase hbegun hgrp hruns, if_pos hdue, hg', Option.getD_some, hhalt]
  · rw [← hnum] at hg' ⊢
    exact hu.grp? rfl (by rw [hg']; rfl)
  · exact (congrArg (fun x : Grp => x.queuedSince) hrest :).trans (s.launchesAgain_wall g)
  · refine (hu.aops n fun x hx => ?_).trans hagain
    rw [hagain, List.mem_singleton] at hx
    rw [hx]
    show o.phase ≠ .ready
    rw [hphase]
    nofun

end Timeout

/-! ### A record of a queue and its acceptance, as O50 says them -/

theorem State.writePlace_hbm (s : State) (me a : Nat) (d : Bytes) (t : Tag) : (s.writePlace me (.hbm a) d t).hbm = Memory.store s.hbm a d := rfl

theorem State.writePlace_hbm_cores (s : State) (me a : Nat) (d : Bytes) (t : Tag) : (s.writePlace me (.hbm a) d t).cores = s.cores := rfl

/-- Answering a record writes memory and the partition only. -/
theorem State.answeredAt_frame (s : State) (p q a head : Nat) (r : Bytes) (ans : Answer) : (s.answeredAt p q a head r ans).groups = s.groups ∧
    (s.answeredAt p q a head r ans).cores = s.cores ∧
    (s.answeredAt p q a head r ans).hbm = Memory.store s.hbm a (wordBytes (recTag r) ++ wordBytes ans.word) := by
  rw [State.answeredAt, State.modPart_groups, State.writePlace_groups, State.modPart_cores, State.writePlace_hbm_cores, State.modPart_hbm, State.writePlace_hbm]
  exact ⟨rfl, rfl, rfl⟩

section Record
variable {s : State} {p q a : Nat} {r : Bytes} (h : s.RecordAt p q r a)
include h

theorem exec_queueRecordRead_refused_frame (hk : (s.part p).recStatus r ≠ 0) :
    ∃ t : State, exec (.queueRecordRead p q) s = .next t ∧ (t.part p).idx (0x40 * q + 0x20) = ((s.part p).idx (0x40 * q + 0x20) + 1) % 2 ^ 32 ∧
      (t.part p).pending = (s.part p).pending ∧ t.groups = s.groups ∧
      t.hbm = Memory.store s.hbm a (wordBytes (recTag r) ++ wordBytes (BitVec.ofNat 64 ((s.part p).recStatus r))) := by
  obtain ⟨hgroups, -, hhbm⟩ := s.answeredAt_frame p q a (((s.part p).idx (0x40 * q + 0x20) + 1) % 2 ^ 32) r (.status ((s.part p).recStatus r))
  refine ⟨_, exec_queueRecordRead_refused h hk, ?_, ?_, hgroups, hhbm⟩
  · rw [State.part_answeredAt, Part.idx_setReg_mod]
  · rw [State.part_answeredAt, Part.setReg_pending]

theorem exec_queueRecordRead_taken_frame (hk : (s.part p).recStatus r = 0)
    (hrects : (s.rects p (recField r 0x38 1) (recField r 0x39 1) (recField r 0x3A 1)).isEmpty = false) :
    ∃ u : State, exec (.queueRecordRead p q) s = .next (u.pass p) ∧ (u.part p).idx (0x40 * q + 0x20) = ((s.part p).idx (0x40 * q + 0x20) + 1) % 2 ^ 32 ∧
      (∃ l : Launch, (u.part p).pending = (s.part p).pending ++ [l] ∧ l.record = r ∧ l.arrival = nextArrival (s.part p).arrivals ∧ l.depth = 0 ∧
        l.prio = min (recPrio r) ((s.part p).ceil q)) ∧ (u.part p).arrivals = nextArrival (s.part p).arrivals ∧ u.cores = s.cores ∧
      u.hbm = Memory.store s.hbm a (wordBytes (recTag r) ++ wordBytes (BitVec.ofNat 64 (nextArrival (s.part p).arrivals * 256))) := by
  obtain ⟨l, hl, hexec⟩ := exec_queueRecordRead_taken h hk hrects
  have hpart := State.part_answeredAt ((s.setPart p ((s.part p).taken l)).stampReady p) p q a (((s.part p).idx (0x40 * q + 0x20) + 1) % 2 ^ 32) r
    (.accepted (nextArrival (s.part p).arrivals))
  rw [State.part_stampReady, State.part_setPart_self] at hpart
  obtain ⟨-, hcores, hhbm⟩ := ((s.setPart p ((s.part p).taken l)).stampReady p).answeredAt_frame p q a (((s.part p).idx (0x40 * q + 0x20) + 1) % 2 ^ 32) r
    (.accepted (nextArrival (s.part p).arrivals))
  refine ⟨_, hexec, ?_, ⟨l, ?_, hl.record, hl.arrival, hl.depth, hl.prio⟩, ?_, hcores, hhbm⟩
  · rw [hpart, Part.idx_setReg_mod]
  · rw [hpart]
    rfl
  · rw [hpart]
    exact hl.arrival

end Record

theorem State.accept_taken_frame {s : State} {p depth prio pool : Nat} {r : Bytes} {ps : List Nat} (hk : (s.part p).recStatus r = 0)
    (hrects : (s.rects p (recField r 0x38 1) (recField r 0x39 1) (recField r 0x3A 1)).isEmpty = false) (hpool : (s.part p).poolFor depth = some pool) :
    (s.accept p r depth prio ps).2 = .accepted (nextArrival (s.part p).arrivals) ∧
    (∃ l : Launch, ((s.accept p r depth prio ps).1.part p).pending = (s.part p).pending ++ [l] ∧ l.record = r ∧ l.arrival = nextArrival (s.part p).arrivals ∧
      l.depth = depth ∧ l.prio = prio ∧ l.parents = ps ∧ l.tag = recTag r) ∧
    ((s.accept p r depth prio ps).1.part p).arrivals = nextArrival (s.part p).arrivals := by
  obtain ⟨l, hacc, hl⟩ := State.accept_taken hk hrects hpool prio ps
  rw [hacc]
  dsimp only
  rw [State.part_stampReady, State.part_setPart_self]
  exact ⟨rfl, ⟨l, rfl, hl.record, hl.arrival, hl.depth, hl.prio, hl.parents, hl.tag⟩, hl.arrival⟩

/-- Settles O50, clause by clause: the writes of a queue's registers, its record, acceptance, LAUNCH at its issue and as it goes on, and its timeout. -/
theorem launchesAndQueues : Obligations.LaunchesAndQueues := by
  unfold Obligations.LaunchesAndQueues
  refine ⟨fun p q v s hq => exec_lqtailWrite v s hq, fun p q s hq => exec_lqcfgErrClear s hq, ?_, ?_, ?_,
    fun p r s hk ha => exec_firmwareLaunch_refused hk ha, fun gd rd s1 q i g s hi hg hr hgrp => exec_launch_issue hi hg hr hgrp, ?_, ?_⟩
  · intro p q s cfg hq hon herr hover
    exact exec_queueRecordRead_overrun ⟨hq, hon, herr⟩ hover
  · intro p q a r leaf s cfg head slot hq hon herr hhead hpool hover hstill hread hmap
    have hat : s.RecordAt p q r a :=
      { on := ⟨hq, hon, herr⟩, fits := hover, waits := hhead, pool := hpool, still := hstill, read := hread, status := ⟨leaf, hmap⟩ }
    exact ⟨exec_queueRecordRead_refused_frame hat, exec_queueRecordRead_taken_frame hat⟩
  · intro p depth prio pool r ps s hk hrects hpool a
    obtain ⟨hans, hpend, harr⟩ := State.accept_taken_frame (prio := prio) (ps := ps) hk hrects hpool
    refine ⟨hans, hpend, harr, ?_⟩
    rintro rfl rfl rfl ha
    exact exec_firmwareLaunch_taken ha hans
  · intro n gd rd s1 q g r s o haops hi hrd hphase hruns hpart hgrp hholds stands
    exact ⟨exec_aClassResult_refused haops hi hphase hruns hpart hrd hgrp hholds,
      exec_aClassResult_taken haops hi hphase hruns hpart hrd hgrp hholds,
      fun hres hk hrects hpool => exec_aClassResult_noEntry haops hi hphase hruns hpart hrd hgrp hholds hk hrects hpool hres⟩
  · intro n gd rd s1 q g s o haops hi hphase hbegun hgrp hn hruns
    refine ⟨exec_launchWaitTimeout_due haops hi hphase hbegun hgrp hn hruns, fun hearly => ?_⟩
    rw [exec_launchWaitTimeout haops hi hphase hbegun hgrp hruns, if_neg (by omega)]

end Sys2Proof.Machine

/-! SUPPORT. What completion records, traces and the dispatcher's own changes leave as they are. -/

namespace Sys2Proof.Machine

/-! ### Completion records (R367) -/

section Frame
variable (s : State) (pn : Nat)

/-- What a completion record leaves as it is: the cores and the contexts. -/
def State.placeView (s : State) : Store Core × List Grp := (s.cores, s.groups)

theorem State.cores_of_placeView {s t : State} (h : t.placeView = s.placeView) : t.cores = s.cores := congrArg Prod.fst h

theorem State.groups_of_placeView {s t : State} (h : t.placeView = s.placeView) : t.groups = s.groups := congrArg Prod.snd h

@[simp] theorem State.modPart_placeView (f : Part → Part) : (s.modPart pn f).placeView = s.placeView := rfl

@[simp] theorem State.trace_placeView (src kind a : Nat) (b : Word) : (s.trace pn src kind a b).placeView = s.placeView :=
  Prod.ext (State.trace_cores ..) (congrArg Prod.fst (State.trace_haltView s pn src kind a b))

@[simp] theorem State.flushRecords_placeView (fuel : Nat) : (s.flushRecords pn fuel).placeView = s.placeView := by
  induction fuel generalizing s with
  | zero => rfl
  | succ fuel ih =>
    unfold State.flushRecords
    dsimp only
    split
    · rfl
    · split
      · rfl
      · split
        · rfl
        · split
          · rfl
          · split
            · rfl
            · exact (ih _).trans rfl

@[simp] theorem State.addRecord_placeView (tag status : Word) (endCode cause : Nat) (placed : Bool) (depth num : Nat) :
    (s.addRecord pn tag status endCode cause placed depth num).placeView = s.placeView := by
  unfold State.addRecord State.traceGroup
  dsimp only
  rw [State.trace_placeView, State.flushRecords_placeView, State.modPart_placeView]

/-! ### Contexts whose readiness is stamped (R101, R102) -/

/-- What the dispatcher's work on launches leaves as it is: the cores, the contexts of other partitions, and the rest of a partition's contexts. -/
def State.stampView (s : State) (pn : Nat) : Store Core × List Grp × List Grp :=
  (s.cores, s.groups.map Grp.readyRest, s.groups.filter fun g => g.part != pn)

theorem State.stampView_of_placeView {s t : State} (h : t.placeView = s.placeView) (pn : Nat) : t.stampView pn = s.stampView pn :=
  (congrArg (fun v : Store Core × List Grp => (v.1, v.2.map Grp.readyRest, v.2.filter fun g => g.part != pn)) h :)

/-- The moment from which one context of a partition is ready (R101). -/
def State.restamp (s : State) (pn : Nat) (g : Grp) : Grp :=
  if g.part = pn then
    match g.needsPool with
    | some d => if ((s.part pn).poolFor d).isSome then (if g.readySince = 0 then { g with readySince := s.wall } else g) else { g with readySince := 0 }
    | none => g
  else g

theorem State.restamp_other {g : Grp} (h : g.part ≠ pn) : s.restamp pn g = g := if_neg h

theorem State.restamp_rest (g : Grp) : (s.restamp pn g).readyRest = g.readyRest := by
  unfold State.restamp
  (repeat' split) <;> rfl

theorem State.stampReady_groups : (s.stampReady pn).groups = s.groups.map (s.restamp pn) := rfl

@[simp] theorem State.stampReady_stampView : (s.stampReady pn).stampView pn = s.stampView pn := by
  have hrest : (s.groups.map (s.restamp pn)).map Grp.readyRest = s.groups.map Grp.readyRest := by
    rw [List.map_map]
    exact List.map_congr_left fun g _ => s.restamp_rest pn g
  have hpart (g : Grp) : (s.restamp pn g).part = g.part := (congrArg (fun x : Grp => x.part) (s.restamp_rest pn g) :)
  have hother : (s.groups.map (s.restamp pn)).filter (fun g => g.part != pn) = s.groups.filter fun g => g.part != pn := by
    rw [List.filter_map, show (fun g : Grp => g.part != pn) ∘ s.restamp pn = fun g => g.part != pn from funext fun g => by simp [hpart]]
    refine (List.map_congr_left fun g hg => s.restamp_other pn ?_).trans (List.map_id' _)
    simpa using (List.mem_filter.mp hg).2
  rw [State.stampView, State.stampReady_groups, hrest, hother]
  rfl

@[simp] theorem State.dropLaunch_stampView (arrival : Nat) : (s.dropLaunch pn arrival).stampView pn = s.stampView pn := by
  unfold State.dropLaunch
  rw [State.stampReady_stampView]
  rfl

@[simp] theorem State.wakeLaunches_stampView (fuel : Nat) : (s.wakeLaunches pn fuel).stampView pn = s.stampView pn := by
  induction fuel generalizing s with
  | zero => rfl
  | succ fuel ih =>
    unfold State.wakeLaunches
    split
    · rfl
    · split
      · rw [ih, State.stampView_of_placeView (State.modPart_placeView ..), State.stampView_of_placeView (State.addRecord_placeView ..),
          State.dropLaunch_stampView]
      · rw [ih, State.stampView_of_placeView (State.modPart_placeView ..)]

@[simp] theorem State.completed_stampView (arrival : Nat) (ok : Bool) : (s.completed pn arrival ok).stampView pn = s.stampView pn := by
  unfold State.completed
  dsimp only
  rw [State.wakeLaunches_stampView, State.stampView_of_placeView (State.modPart_placeView ..)]

end Frame

/-- The number, the partition and the arrival sequence of each context. -/
def State.grpKeys (s : State) : List (Nat × Nat × Nat) := s.groups.map fun g => (g.num, g.part, g.arrival)

theorem State.grpKeys_of_stampView {s t : State} {pn : Nat} (h : t.stampView pn = s.stampView pn) : t.grpKeys = s.grpKeys := by
  have hrest : t.groups.map Grp.readyRest = s.groups.map Grp.readyRest := (congrArg (fun v : Store Core × List Grp × List Grp => v.2.1) h :)
  have hkeys (l : List Grp) : l.map (fun g => (g.num, g.part, g.arrival)) = (l.map Grp.readyRest).map (fun g => (g.num, g.part, g.arrival)) := by
    rw [List.map_map]
    rfl
  rw [State.grpKeys, hkeys, hrest, ← hkeys, State.grpKeys]

/-- A number finds no context when no context has it. -/
theorem State.grp?_eq_none {s : State} {k : Nat} : s.grp? k = none ↔ ∀ e ∈ s.grpKeys, e.1 ≠ k := by
  simp [State.grp?, State.grpKeys]

/-! ### Changes that may set a core's chart clock (R351) -/

@[simp] theorem State.withClock_cores (s : State) (n : Nat) (f : Core → Core) : (s.withClock n f).cores = (s.modCore n f).cores := by
  unfold State.withClock
  dsimp only
  split
  · split <;> rfl
  · rfl

@[simp] theorem State.withClock_groups (s : State) (n : Nat) (f : Core → Core) : (s.withClock n f).groups = s.groups := by
  unfold State.withClock
  dsimp only
  split
  · split <;> rfl
  · rfl

theorem State.core_withClock_self (s : State) (n : Nat) (f : Core → Core) : (s.withClock n f).core n = f (s.core n) := by
  rw [State.core_of_cores (State.withClock_cores ..), State.core_modCore_self]

theorem State.core_withClock_other (s : State) {n m : Nat} (f : Core → Core) (h : m ≠ n) : (s.withClock n f).core m = s.core m := by
  rw [State.core_of_cores (State.withClock_cores ..), State.core_modCore_other _ _ h]

theorem State.withClock_core_keeps {f : Core → Core} {P : Core → Prop} (hf : ∀ c, P c → P (f c)) {s : State} (n m : Nat) (h : P (s.core m)) :
    P ((s.withClock n f).core m) := by
  rw [State.core_of_cores (State.withClock_cores ..)]
  exact State.modCore_core_keeps hf n m h

end Sys2Proof.Machine

/-! PROOFS. The ends of contexts: completion, save images, the supervisor and teardown (the eighth to tenth clauses of O51 and their kin). -/

namespace Sys2Proof.Machine

/-! ### Completion (R365 to R367) -/

/-- The cores of a context that are its own are freed (R365). -/
def State.freeCores (s : State) (g : Grp) : State :=
  g.cores.foldl (fun s n => if (s.core n).owner = g.num then s.withClock n (Core.freed · s.power.ref) else s) s

@[simp] theorem State.freeCores_groups (s : State) (g : Grp) : (s.freeCores g).groups = s.groups :=
  State.foldl_keeps State.groups (fun t n => by
    split
    · exact t.withClock_groups ..
    · rfl) _ s

/-- One step of freeing a context's cores leaves a core unowned that was. -/
theorem State.freeCores_step_unowned {t : State} {m : Nat} (h : (t.core m).owner = 0) (n k : Nat) :
    ((if (t.core n).owner = k then t.withClock n (Core.freed · t.power.ref) else t).core m).owner = 0 := by
  split
  · exact State.withClock_core_keeps (P := fun c => c.owner = 0) (fun _ _ => rfl) n m h
  · exact h

theorem State.freeCores_owner {s : State} {g : Grp} {n : Nat} (hn : n ∈ g.cores) (ho : (s.core n).owner = g.num) : ((s.freeCores g).core n).owner = 0 := by
  refine foldl_establishes (P := fun t : State => (t.core n).owner = 0) (Q := fun t : State => (t.core n).owner = g.num ∨ (t.core n).owner = 0) hn
    (fun t ht => ?_) (fun t m ht => State.freeCores_step_unowned ht m g.num) (fun t m ht => ?_) (.inl ho)
  · split
    · rw [State.core_withClock_self]
      rfl
    next hne => exact ht.resolve_left hne
  · by_cases hm : n = m
    · subst hm
      split
      · rw [State.core_withClock_self]
        exact .inr rfl
      · exact ht
    · split
      · rwa [State.core_withClock_other _ _ hm]
      · exact ht

/-- A context that is over is gone, its cores are freed, and no other changes. -/
theorem State.retired_placeView (s : State) (g : Grp) (code endCode cause : Nat) :
    (s.retired g code endCode cause).placeView = ((s.freeCores g).cores, s.groups.filter fun h => h.num != g.num) := by
  unfold State.retired
  dsimp only
  rw [State.addRecord_placeView, State.modPart_placeView]
  exact Prod.ext rfl (congrArg (List.filter _) (s.freeCores_groups g))

theorem State.retired_groups (s : State) (g : Grp) (code endCode cause : Nat) : (s.retired g code endCode cause).groups = s.groups.filter fun h => h.num != g.num :=
  congrArg Prod.snd (s.retired_placeView g code endCode cause)

theorem State.retired_grpKeys (s : State) (g : Grp) (code endCode cause : Nat) :
    (s.retired g code endCode cause).grpKeys = s.grpKeys.filter fun e => e.1 != g.num := by
  rw [State.grpKeys, State.retired_groups, State.grpKeys, List.filter_map]
  rfl

/-- A completed context is gone and its cores are unowned. -/
theorem State.complete_over (g : Grp) (code fin cause : Nat) (s : State) : (s.complete g code fin cause).grp? g.num = none ∧
    ∀ n ∈ g.cores, (s.core n).owner = g.num → ((s.complete g code fin cause).core n).owner = 0 := by
  have hview := State.completed_stampView (s.retired g code fin cause) g.part g.arrival (code == 0 && fin == 0)
  refine ⟨State.grp?_eq_none.mpr fun e he => ?_, fun n hn ho => ?_⟩
  · have hmem : e ∈ (s.retired g code fin cause).grpKeys := by rwa [← State.grpKeys_of_stampView hview]
    rw [State.retired_grpKeys, List.mem_filter] at hmem
    simpa using hmem.2
  · have hcores : (s.complete g code fin cause).cores = (s.freeCores g).cores :=
      (congrArg Prod.fst hview).trans (congrArg Prod.fst (s.retired_placeView g code fin cause))
    rw [State.core_of_cores hcores]
    exact State.freeCores_owner hn ho

/-! ### Teardown (R369 to R372) -/

/-- State t is s with contexts of a partition gone and none changed that belongs to another. -/
structure State.Prunes (p : Nat) (s t : State) : Prop where
  keys : t.grpKeys.Sublist s.grpKeys
  others : t.groups.filter (fun g => g.part != p) = s.groups.filter fun g => g.part != p

section Prunes
variable {p : Nat} {s t u : State}

theorem State.Prunes.refl (p : Nat) (s : State) : State.Prunes p s s := ⟨List.Sublist.refl _, rfl⟩

theorem State.Prunes.trans (h : State.Prunes p s t) (h' : State.Prunes p t u) : State.Prunes p s u := ⟨h'.keys.trans h.keys, h'.others.trans h.others⟩

theorem State.Prunes.of_stampView (h : t.stampView p = s.stampView p) : State.Prunes p s t where
  keys := by rw [State.grpKeys_of_stampView h]
  others := (congrArg (fun v : Store Core × List Grp × List Grp => v.2.2) h :)

/-- Each number and each arrival sequence of a partition names one context. -/
structure State.Distinct (s : State) : Prop where
  nums : (s.grpKeys.map (·.1)).Nodup
  arrivals : (s.grpKeys.map (·.2)).Nodup

theorem State.Prunes.distinct (h : State.Prunes p s t) (hs : s.Distinct) : t.Distinct :=
  ⟨hs.nums.sublist (h.keys.map _), hs.arrivals.sublist (h.keys.map _)⟩

/-- No context of a partition has an arrival sequence. -/
def State.gone (s : State) (p a : Nat) : Prop := ∀ e ∈ s.grpKeys, e.2 ≠ (p, a)

theorem State.gone.of_prunes {a : Nat} (hs : s.gone p a) (h : State.Prunes p s t) : t.gone p a := fun e he => hs e (h.keys.subset he)

theorem State.mem_grpKeys {g : Grp} (h : g ∈ s.groups) : (g.num, g.part, g.arrival) ∈ s.grpKeys := List.mem_map_of_mem h

/-- Cancelling an arrival of a partition takes its context and nothing else. -/
theorem State.cancel_prunes (hs : s.Distinct) (p a : Nat) : State.Prunes p s (s.cancel p a) ∧ (s.cancel p a).gone p a := by
  unfold State.cancel
  split
  next g hg =>
    have hmem : g ∈ s.groups := List.mem_of_find?_eq_some hg
    obtain ⟨hpart, harr⟩ : g.part = p ∧ g.arrival = a := by simpa using List.find?_some hg
    refine ⟨⟨?_, ?_⟩, fun e he hkey => ?_⟩
    · rw [State.retired_grpKeys]
      exact List.filter_sublist
    · rw [State.retired_groups, List.filter_filter]
      refine List.filter_congr fun h hh => ?_
      by_cases hp : h.part = p
      · simp [hp]
      · have hnum : h.num ≠ g.num := fun heq =>
          hp (((congrArg (fun e : Nat × Nat × Nat => e.2.1) (List.inj_on_of_nodup_map hs.nums (State.mem_grpKeys hh) (State.mem_grpKeys hmem) heq)).trans hpart))
        simp [hp, hnum]
    · rw [State.retired_grpKeys, List.mem_filter] at he
      have heq := List.inj_on_of_nodup_map hs.arrivals he.1 (State.mem_grpKeys hmem) (by rw [hkey, hpart, harr])
      rw [heq] at he
      simp at he
  next hnone =>
    have hgone : s.gone p a := by
      intro e he hkey
      obtain ⟨g, hg, rfl⟩ := List.mem_map.mp he
      have := List.find?_eq_none.mp hnone g hg
      simp_all
    have hview {t : State} (h : t.stampView p = s.stampView p) : State.Prunes p s t ∧ t.gone p a :=
      ⟨.of_stampView h, hgone.of_prunes (.of_stampView h)⟩
    split
    · exact hview ((State.stampView_of_placeView (State.addRecord_placeView ..) p).trans (s.dropLaunch_stampView p a))
    · exact hview rfl

theorem State.foldl_cancel_prunes (hs : s.Distinct) (p : Nat) (as : List Nat) :
    State.Prunes p s (as.foldl (fun s a => s.cancel p a) s) ∧ ∀ a ∈ as, (as.foldl (fun s a => s.cancel p a) s).gone p a := by
  induction as generalizing s with
  | nil => exact ⟨.refl p s, fun a ha => nomatch ha⟩
  | cons a as ih =>
    obtain ⟨hone, hgone⟩ := State.cancel_prunes hs p a
    obtain ⟨hrest, hall⟩ := ih (hone.distinct hs)
    refine ⟨hone.trans hrest, fun b hb => ?_⟩
    obtain rfl | hb := List.mem_cons.mp hb
    · exact hgone.of_prunes hrest
    · exact hall b hb

/-- A teardown leaves no context of the arrivals that it cancels. -/
theorem State.cancelAll_prunes (hs : s.Distinct) (p : Nat) (as : List Nat) :
    State.Prunes p s (s.cancelAll p as) ∧ ∀ a ∈ as, (s.cancelAll p as).gone p a := by
  obtain ⟨hcancel, hgone⟩ := State.foldl_cancel_prunes hs p as
  have hwake : State.Prunes p (as.foldl (fun s a => s.cancel p a) s) (s.cancelAll p as) :=
    .of_stampView (State.foldl_keeps (State.stampView · p) (fun t a => t.completed_stampView p a false) _ _)
  exact ⟨hcancel.trans hwake, fun a ha => (hgone a ha).of_prunes hwake⟩

theorem State.tornRecord_prunes (hs : s.Distinct) (p k : Nat) : State.Prunes p s (s.tornRecord p k) := by
  unfold State.tornRecord
  split
  · exact .refl p s
  · have hmod {f : Part → Part} (as : List Nat) : State.Prunes p s ((s.modPart p f).cancelAll p as) := by
      have hmarked : State.Prunes p s (s.modPart p f) := .of_stampView (State.stampView_of_placeView (s.modPart_placeView p f) p)
      exact hmarked.trans (State.cancelAll_prunes (hmarked.distinct hs) p as).1
    exact hmod _

/-- Teardown of a partition leaves none of its contexts and touches no other (R369, R370). -/
theorem exec_teardownPartition (hnum : (s.groups.map (·.num)).Nodup) (harr : (s.groups.map fun g => (g.part, g.arrival)).Nodup) :
    ∃ u : State, exec (.teardownPartition p) s = .next (u.pass p) ∧ (∀ g ∈ u.groups, g.part ≠ p) ∧ ∀ g ∈ s.groups, g.part ≠ p → g ∈ u.groups := by
  have hs : s.Distinct := by
    refine ⟨?_, ?_⟩ <;> rw [State.grpKeys, List.map_map]
    · exact hnum
    · exact harr
  refine ⟨_, rfl, ?_⟩
  generalize ((s.part p).records.map fun r => recField r 0x14 4).filter (fun k => k != 0) = late
  have hlate : State.Prunes p s (late.foldl (fun s k => if (s.grp? k).isSome then s else s.tornRecord p k) s) :=
    List.foldlRecOn (motive := State.Prunes p s) _ _ (.refl p s) fun t ht k _ => by
      split
      · exact ht
      · exact ht.trans (State.tornRecord_prunes (ht.distinct hs) p k)
  generalize late.foldl (fun s k => if (s.grp? k).isSome then s else s.tornRecord p k) s = t at hlate ⊢
  obtain ⟨hall, hgone⟩ := State.cancelAll_prunes (hlate.distinct hs) p ((t.groups.filter fun g => g.part == p).flatMap fun g => t.condemned p g.arrival)
  refine ⟨fun g hg hp => ?_, fun g hg hp => ?_⟩
  · obtain ⟨h, hh, hkey⟩ := List.mem_map.mp (hall.keys.subset (State.mem_grpKeys hg))
    simp only [Prod.mk.injEq] at hkey
    obtain ⟨-, hpart, harrival⟩ := hkey
    refine hgone g.arrival (List.mem_flatMap.mpr ⟨h, List.mem_filter.mpr ⟨hh, by simp [hpart, hp]⟩, ?_⟩) _ (State.mem_grpKeys hg) (by rw [hp])
    rw [harrival]
    exact List.mem_append_right _ (List.mem_singleton_self _)
  · have hmem : g ∈ s.groups.filter fun g => g.part != p := List.mem_filter.mpr ⟨hg, by simpa using hp⟩
    rw [← (hlate.trans hall).others] at hmem
    exact (List.mem_filter.mp hmem).1

end Prunes

/-! ### Stops, save images and the supervisor (R322, R332, R340) -/

/-- Every core of a context is freed once its image stands (R334). -/
def State.unowned (s : State) (g : Grp) : State := g.cores.foldl (fun s n => s.withClock n (Core.freed · s.power.ref)) s

@[simp] theorem State.unowned_groups (s : State) (g : Grp) : (s.unowned g).groups = s.groups :=
  State.foldl_keeps State.groups (fun t _ => t.withClock_groups ..) _ s

theorem State.unowned_owner {s : State} {g : Grp} {n : Nat} (hn : n ∈ g.cores) : ((s.unowned g).core n).owner = 0 :=
  foldl_establishes (P := fun t : State => (t.core n).owner = 0) (Q := fun _ => True) hn
    (fun t _ => by
      rw [State.core_withClock_self]
      rfl)
    (fun t m ht => State.withClock_core_keeps (P := fun c => c.owner = 0) (fun _ _ => rfl) m n ht) (fun _ _ _ => trivial) trivial

/-- A context with its images, to be placed again by itself or by its supervisor (R103, R334). -/
def Grp.imaged (g : Grp) (images : List (Nat × Core)) : Grp :=
  { g with images := images, status := if g.lastCause == 0x80 || g.lastCause == 0x81 then .descheduled else .supervised }

/-- A context that its supervisor asks to be placed again (R332). -/
def Grp.replacing (g : Grp) (images : List (Nat × Core)) (now : Nat) : Grp :=
  { g with images := images.map fun im => (im.1, im.2.asked), status := .replacing, queuedSince := now, readySince := now }

section Stops
variable {k : Nat} {g : Grp} {s : State} (hg : s.grp? k = some g)
include hg

theorem exec_stopDelivery_supervisor (hstat : g.status = .stopped) (hsup : s.toSupervisor g = true) :
    exec (.stopDelivery k) s = .next ((s.deliverSupervisor g .saving).pass g.part) := by
  show execStopDelivery k s = _
  simp [execStopDelivery, hg, hstat, hsup]

theorem exec_stopDelivery_handlers {e : Word} (hstat : g.status = .stopped) (hsup : s.toSupervisor g = false) (he : g.handler = some e) :
    exec (.stopDelivery k) s = .next ((s.deliverHandlers g e).pass g.part) := by
  show execStopDelivery k s = _
  simp [execStopDelivery, hg, hstat, hsup, he]

theorem exec_stopDelivery_other (hstat : g.status ≠ .stopped) : exec (.stopDelivery k) s = .next s := by
  show execStopDelivery k s = _
  simp [execStopDelivery, hg, hstat]

/-- An image that stands frees every core of the group (R334). -/
theorem exec_saveImageComplete_stands (hstat : g.status = .saving) (hwake : ∀ n ∈ g.cores, (s.core n).mustWake = false) :
    ∃ (u : State) (h : Grp), exec (.saveImageComplete k) s = .next (u.pass g.part) ∧ u.grp? k = some h ∧
      h.images = g.cores.map (fun n => (n, s.savedCore n g.num g.unresumable)) ∧
      h.status = (if g.lastCause = 0x80 ∨ g.lastCause = 0x81 then .descheduled else .supervised) ∧ ∀ n ∈ g.cores, (u.core n).owner = 0 := by
  have hany : (g.cores.any fun n => (s.core n).mustWake) = false := List.any_eq_false.mpr fun n hn => by simp [hwake n hn]
  have hnum : g.num = k := State.num_of_grp? hg
  refine ⟨(s.unowned g).setGrp (g.imaged (g.cores.map fun n => (n, s.savedCore n g.num g.unresumable))),
    g.imaged (g.cores.map fun n => (n, s.savedCore n g.num g.unresumable)), ?_, ?_, rfl, by simp [Grp.imaged], fun n hn => State.unowned_owner hn⟩
  · show execSaveImageComplete k s = _
    simp only [execSaveImageComplete, hg, hstat, hany, bne_self_eq_false, Bool.false_eq_true, if_false]
    rfl
  · subst hnum
    exact State.grp?_setGrp_self (g := g.imaged _) ((State.grp?_of_groups (s.unowned_groups g) _).trans hg)

/-- The supervisor stops a running group with BREAKPOINT 0xFFFF (R340). -/
theorem exec_supervisorStop {n : Nat} {rest : List Nat} (hstat : g.status = .running) (hcores : g.cores = n :: rest) :
    exec (.supervisorStop k) s = .next (s.stop n { cause := 0x41, code := 0xFFFF }) := by
  show execSupervisorStop k s = _
  simp [execSupervisorStop, hg, hstat, hcores]

/-- SUPERVISOR_PLACE asks for the context to be placed again, with its edits, or leaves everything as it is (log entry 42). -/
theorem exec_supervisorPlace (edits : Edits) (hstat : g.status = .supervised) :
    exec (.supervisorPlace k edits) s = .next (
      if !((g.editedImages edits).all fun im => im.2.saved.isSome || im.2.imageCheck.1 == 0) && !g.unresumable then s
      else (s.setGrp (g.replacing (g.editedImages edits) s.wall)).pass g.part) := by
  show execSupervisorPlace k edits s = _
  simp only [execSupervisorPlace, hg, hstat]
  rfl

theorem exec_supervisorPlace_valid {edits : Edits} (hstat : g.status = .supervised)
    (hvalid : g.unresumable = true ∨ ∀ im ∈ g.editedImages edits, im.2.saved = none → im.2.imageCheck.1 = 0) :
    ∃ (u : State) (h : Grp), exec (.supervisorPlace k edits) s = .next (u.pass g.part) ∧ u.grp? k = some h ∧ h.status = .replacing ∧
      h.images = (g.editedImages edits).map (fun im => (im.1, im.2.asked)) ∧ h.queuedSince = s.wall ∧ u.cores = s.cores := by
  have hok : ¬ (!((g.editedImages edits).all fun im => im.2.saved.isSome || im.2.imageCheck.1 == 0) && !g.unresumable) = true := by
    obtain h | h := hvalid
    · simp [h]
    · have hall : ((g.editedImages edits).all fun im => im.2.saved.isSome || im.2.imageCheck.1 == 0) = true := by
        refine List.all_eq_true.mpr fun im him => ?_
        cases hsaved : im.2.saved with
        | some _ => rfl
        | none => simp [h im him hsaved]
      simp [hall]
  have hnum : g.num = k := State.num_of_grp? hg
  refine ⟨s.setGrp (g.replacing (g.editedImages edits) s.wall), g.replacing (g.editedImages edits) s.wall, ?_, ?_, rfl, rfl, rfl, rfl⟩
  · rw [exec_supervisorPlace hg edits hstat, if_neg hok]
  · subst hnum
    exact State.grp?_setGrp_self (g := g.replacing _ _) hg

theorem exec_supervisorPlace_invalid {edits : Edits} (hstat : g.status = .supervised) (hres : g.unresumable = false)
    (hbad : ∃ im ∈ g.editedImages edits, im.2.saved = none ∧ im.2.imageCheck.1 ≠ 0) : exec (.supervisorPlace k edits) s = .next s := by
  obtain ⟨im, him, hsaved, hcheck⟩ := hbad
  have hall : ((g.editedImages edits).all fun im => im.2.saved.isSome || im.2.imageCheck.1 == 0) = false :=
    List.all_eq_false.mpr ⟨im, him, by simp [hsaved, hcheck]⟩
  rw [exec_supervisorPlace hg edits hstat, hall, hres]
  rfl

/-- Teardown of a context without descendants completes it with End 0x82 (R369, R371). -/
theorem exec_teardownContext (hdesc : s.descendants g.part g.arrival = [])
    (hfind : s.groups.find? (fun h => h.part == g.part && h.arrival == g.arrival) = some g) :
    exec (.teardownContext k) s = .next ((s.complete g 0 0x82 g.lastCause).pass g.part) := by
  have hcancel : s.cancel g.part g.arrival = s.retired g 0 0x82 g.lastCause := by
    unfold State.cancel
    rw [hfind]
  have htear : s.teardown k = s.complete g 0 0x82 g.lastCause := by
    unfold State.teardown
    rw [hg]
    dsimp only
    rw [State.condemned, hdesc, State.cancelAll, List.map_nil, List.nil_append, List.foldl_cons, List.foldl_cons, List.foldl_nil, List.foldl_nil, hcancel]
    rfl
  show execTeardownContext k s = _
  unfold execTeardownContext
  rw [hg, htear]

end Stops

/-! ### The save engine wakes the WARM banks it is to write (R118) -/

/-- One bank as the save engine reaches it. -/
def wakeBank (owner now : Nat) (st : Store Bank) (b : Nat) : Store Bank :=
  let k : Bank := sget {} b st
  if k.owner = owner ∧ k.live ∧ k.st = 1 then sset {} b { k with st := 3, last := now } st else st

theorem Core.wakeSaved_eq (c : Core) (now : Nat) : c.wakeSaved now = { c with banks := (List.range 32).foldl (wakeBank c.owner now) c.banks } := rfl

/-- A bank of an owner, written since it was allocated, and WARM or being woken. -/
def Bank.toWake (k : Bank) (owner : Nat) : Prop := k.owner = owner ∧ k.live = true ∧ (k.st = 1 ∨ k.st = 3)

/-- A bank that is to be written and is being woken. -/
def Bank.woken (k : Bank) (owner : Nat) : Prop := k.owner = owner ∧ k.live = true ∧ k.st = 3

theorem wakeBank_other (owner now : Nat) (st : Store Bank) {b d : Nat} (h : d ≠ b) : sget {} d (wakeBank owner now st b) = sget {} d st := by
  unfold wakeBank
  dsimp only
  split
  · exact sget_sset_other _ _ _ h
  · rfl

theorem wakeBank_self {owner now : Nat} {st : Store Bank} {b : Nat} (h : (sget {} b st : Bank).toWake owner) : (sget {} b (wakeBank owner now st b) : Bank).woken owner := by
  obtain ⟨ho, hl, hst⟩ := h
  unfold wakeBank
  dsimp only
  split
  · rw [sget_sset_self]
    exact ⟨ho, hl, rfl⟩
  next hno => exact ⟨ho, hl, hst.resolve_left fun h1 => hno ⟨ho, hl, h1⟩⟩

theorem Bank.woken.toWake {k : Bank} {owner : Nat} (h : k.woken owner) : k.toWake owner := ⟨h.1, h.2.1, .inr h.2.2⟩

/-- A step of the save engine wakes no bank that is awake and loses none that is to wake. -/
theorem wakeBank_keeps {owner now : Nat} {st : Store Bank} {d : Nat} (b : Nat) (h : (sget {} d st : Bank).toWake owner) :
    (sget {} d (wakeBank owner now st b) : Bank).toWake owner := by
  by_cases hb : d = b
  · subst hb
    exact (wakeBank_self h).toWake
  · rwa [wakeBank_other _ _ _ hb]

theorem wakeBank_keeps_woken {owner now : Nat} {st : Store Bank} {d : Nat} (b : Nat) (h : (sget {} d st : Bank).woken owner) :
    (sget {} d (wakeBank owner now st b) : Bank).woken owner := by
  by_cases hb : d = b
  · subst hb
    exact wakeBank_self h.toWake
  · rwa [wakeBank_other _ _ _ hb]

/-- A core's own bank is to be woken. -/
def Core.toWakeAt (c : Core) (b : Nat) : Prop := (sget {} b c.banks : Bank).toWake c.owner

/-- A core's own bank is being woken. -/
def Core.wokenAt (c : Core) (b : Nat) : Prop := (sget {} b c.banks : Bank).woken c.owner

theorem Core.wakeSaved_woken {c : Core} {b : Nat} (now : Nat) (hb : b < 32) (h : c.toWakeAt b) : (c.wakeSaved now).wokenAt b := by
  rw [Core.wakeSaved_eq]
  unfold Core.wokenAt
  dsimp only
  have hmem := List.mem_range.mpr hb
  generalize List.range 32 = l at hmem ⊢
  exact foldl_establishes (P := fun st => (sget {} b st : Bank).woken c.owner) (Q := fun st => (sget {} b st : Bank).toWake c.owner) hmem
    (fun _ ht => wakeBank_self ht) (fun _ x ht => wakeBank_keeps_woken x ht) (fun _ x ht => wakeBank_keeps x ht) h

theorem Core.wokenAt.toWakeAt {c : Core} {b : Nat} (h : c.wokenAt b) : c.toWakeAt b := Bank.woken.toWake h

theorem Core.wakeSaved_keeps {c : Core} {b : Nat} (now : Nat) (h : c.wokenAt b) : (c.wakeSaved now).wokenAt b := by
  rw [Core.wakeSaved_eq]
  unfold Core.wokenAt
  dsimp only
  generalize List.range 32 = l
  exact List.foldlRecOn (motive := fun st => (sget {} b st : Bank).woken c.owner) _ _ h fun _ ht x _ => wakeBank_keeps_woken x ht

/-- The save engine wakes the banks of every core of a context. -/
def State.wakeAll (s : State) (g : Grp) : State := g.cores.foldl (fun s n => s.modCore n fun c => c.wakeSaved s.power.ref) s

theorem State.wakeAll_groups (s : State) (g : Grp) : (s.wakeAll g).groups = s.groups :=
  State.foldl_keeps State.groups (f := fun s n => s.modCore n fun c => c.wakeSaved s.power.ref) (fun _ _ => rfl) _ s

theorem State.wakeAll_woken {s : State} {g : Grp} {n b : Nat} (hn : n ∈ g.cores) (hb : b < 32) (h : (s.core n).toWakeAt b) : ((s.wakeAll g).core n).wokenAt b := by
  have hstep {P : Core → Prop} (hP : ∀ c now, P c → P (c.wakeSaved now)) (t : State) (m : Nat) (ht : P (t.core n)) :
      P ((t.modCore m fun c => c.wakeSaved t.power.ref).core n) := State.modCore_core_keeps (fun c => hP c t.power.ref) m n ht
  refine foldl_establishes (P := fun t : State => (t.core n).wokenAt b) (Q := fun t : State => (t.core n).toWakeAt b) hn (fun t ht => ?_)
    (hstep (P := fun c => c.wokenAt b) fun _ now hc => Core.wakeSaved_keeps now hc)
    (hstep (P := fun c => c.toWakeAt b) fun _ now hc => (Core.wakeSaved_woken now hb hc).toWakeAt) h
  rw [State.core_modCore_self]
  exact Core.wakeSaved_woken _ hb ht

/-- While a bank is to be woken, the save engine wakes them, and nothing else happens. -/
theorem exec_saveImageComplete_wakes {k : Nat} {g : Grp} {s : State} (hg : s.grp? k = some g) (hstat : g.status = .saving)
    (hwake : ∃ n ∈ g.cores, (s.core n).mustWake = true) : ∃ t, exec (.saveImageComplete k) s = .next t ∧ t.groups = s.groups ∧
      ∀ n ∈ g.cores, ∀ b, b < 32 → (sget {} b (s.core n).banks).owner = (s.core n).owner → (sget {} b (s.core n).banks).live = true →
        (sget {} b (s.core n).banks).st = 1 → (sget {} b (t.core n).banks).st = 3 := by
  have hany : (g.cores.any fun n => (s.core n).mustWake) = true := List.any_eq_true.mpr hwake
  refine ⟨s.wakeAll g, ?_, s.wakeAll_groups g, fun n hn b hb hown hlive hst => ?_⟩
  · show execSaveImageComplete k s = _
    simp only [execSaveImageComplete, hg, hstat, hany, bne_self_eq_false, Bool.false_eq_true, if_false, if_true]
    rfl
  · obtain ⟨-, -, hwoken⟩ := State.wakeAll_woken hn hb ⟨hown, hlive, .inl hst⟩
    exact hwoken

end Sys2Proof.Machine

/-! PROOFS. The ends of streams (R363 to R366) and CRTAIL (R367): the last clauses of O51. -/

namespace Sys2Proof.Machine

/-! ### X_EXIT_CHECK and A_STREAM_EXIT_COMPLETE -/

/-- A core whose X-stream has exited. -/
def Core.xExited (c : Core) : Core := { c with x := { c.x with k := { c.x.k with exited := true } } }

/-- A core whose A-stream has exited. -/
def Core.aExited (c : Core) : Core := { c with a := { c.a with k := { c.a.k with exited := true } } }

/-- A core whose two streams have exited: nothing is in flight, and its banks are to be scrubbed (R365). -/
def Core.finishes (c : Core) (now : Nat) : Core :=
  { c with
    finished := true, q := [], tk := [], barA := [], barW := []
    e := { c.e with
      slot := c.e.slot.foldl (fun st o => sset {} o.1 (if o.2.claimed then { claimed := false, ready := false, gen := (o.2.gen + 1) % 2 ^ 32 } else o.2) st) []
      desc := [], drain := [] }
    banks := (c.freed now).banks
    sys := { c.sys with spmask := 0#32 } }

section Exits
variable {n : Nat} {g : Grp} {s : State}

theorem State.grpAt_modCore {f : Core → Core} (hf : (f (s.core n)).owner = (s.core n).owner) : (s.modCore n f).grpAt n = s.grpAt n := by
  rw [State.grpAt, State.core_modCore_self, hf]
  rfl

/-- A core with a stream that has not exited does not finish (R365). -/
theorem State.finishCore_notExited (h : ((s.core n).x.k.exited && (s.core n).a.k.exited) = false) : s.finishCore n = s := by
  unfold State.finishCore
  split
  · rfl
  · simp [h]

/-- The second exit of a group's only core completes the group (R365, R366). -/
theorem State.finishCore_completes (hgrp : s.grpAt n = some g) (hstat : g.status = .running) (hcores : g.cores = [n])
    (h : ((s.core n).x.k.exited && (s.core n).a.k.exited) = true) (hfin : (s.core n).finished = false) :
    s.finishCore n = ((s.modCore n fun c => c.finishes s.power.ref).complete g 0 0 g.lastCause).pass g.part := by
  have hnow : (((s.modCore n fun c => c.finishes s.power.ref).core n).finished) = true := by
    rw [State.core_modCore_self]
    rfl
  have hall : (g.cores.all fun k => ((s.modCore n fun c => c.finishes s.power.ref).core k).finished) = true := by
    rw [hcores, List.all_cons, List.all_nil, hnow]
    rfl
  unfold State.finishCore
  rw [hgrp]
  dsimp only
  rw [h, hfin, hstat]
  exact if_pos hall

variable (hgrp : s.grpAt n = some g) (hstat : g.status = .running)
include hgrp hstat

section XExit
variable (hexiting : (s.core n).x.k.exiting = true) (hexited : (s.core n).x.k.exited = false) (hops : (s.core n).ops = [])
include hexiting hexited hops

theorem exec_xExitCheck : exec (.xExitCheck n) s = .next (if (List.range 64).any fun a => ((s.core n).bank a).held then s.stop n { cause := 0x0F }
    else (s.modCore n Core.xExited).finishCore n) := by
  show execXExitCheck n s = _
  unfold execXExitCheck
  rw [hgrp]
  dsimp only
  rw [hexiting, hexited, hops, hstat]
  rfl

theorem exec_xExitCheck_held (hheld : ∃ a, a < 64 ∧ ((s.core n).bank a).held = true) : exec (.xExitCheck n) s = .next (s.stop n { cause := 0x0F }) := by
  obtain ⟨a, ha, hheld⟩ := hheld
  rw [exec_xExitCheck hgrp hstat hexiting hexited hops, if_pos (List.any_eq_true.mpr ⟨a, List.mem_range.mpr ha, hheld⟩)]

theorem exec_xExitCheck_exits (hfree : ∀ a, a < 64 → ((s.core n).bank a).held = false) (ha : (s.core n).a.k.exited = false) :
    exec (.xExitCheck n) s = .next (s.modCore n Core.xExited) := by
  have hany : ¬ ((List.range 64).any fun a => ((s.core n).bank a).held) = true := by
    simpa using hfree
  have hone : (((s.modCore n Core.xExited).core n).x.k.exited && ((s.modCore n Core.xExited).core n).a.k.exited) = false := by
    rw [State.core_modCore_self]
    exact ha
  rw [exec_xExitCheck hgrp hstat hexiting hexited hops, if_neg hany, State.finishCore_notExited hone]

end XExit

variable (hexiting : (s.core n).a.k.exiting = true) (hexited : (s.core n).a.k.exited = false) (haops : (s.core n).aops = []) (hcmds : (s.core n).cmds = [])
  (hsaved : (s.core n).saved = none)
include hexiting hexited haops hcmds hsaved

theorem exec_aStreamExitComplete : exec (.aStreamExitComplete n) s = .next ((s.modCore n Core.aExited).finishCore n) := by
  have hruns : s.accessRuns n = true := by simp [State.accessRuns, hgrp, hstat]
  show execAStreamExitComplete n s = _
  unfold execAStreamExitComplete
  dsimp only
  rw [hexiting, hexited, haops, hcmds, hsaved, hruns]
  rfl

theorem exec_aStreamExitComplete_first (hx : (s.core n).x.k.exited = false) : exec (.aStreamExitComplete n) s = .next (s.modCore n Core.aExited) := by
  have hone : (((s.modCore n Core.aExited).core n).x.k.exited && ((s.modCore n Core.aExited).core n).a.k.exited) = false := by
    rw [State.core_modCore_self]
    show ((s.core n).x.k.exited && true) = false
    rw [hx]
    rfl
  rw [exec_aStreamExitComplete hgrp hstat hexiting hexited haops hcmds hsaved, State.finishCore_notExited hone]

theorem exec_aStreamExitComplete_second (hx : (s.core n).x.k.exited = true) (hfin : (s.core n).finished = false) (hcores : g.cores = [n]) :
    ∃ u : State, exec (.aStreamExitComplete n) s = .next ((u.complete g 0 0 g.lastCause).pass g.part) ∧
      (u.core n).finished = true ∧ (u.core n).q = [] ∧ (u.core n).sys.spmask = 0#32 := by
  have hat : (s.modCore n Core.aExited).grpAt n = some g := (State.grpAt_modCore (f := Core.aExited) rfl).trans hgrp
  have hboth : (((s.modCore n Core.aExited).core n).x.k.exited && ((s.modCore n Core.aExited).core n).a.k.exited) = true := by
    rw [State.core_modCore_self]
    show ((s.core n).x.k.exited && true) = true
    rw [hx]
    rfl
  have hfin' : ((s.modCore n Core.aExited).core n).finished = false := by
    rw [State.core_modCore_self]
    exact hfin
  refine ⟨(s.modCore n Core.aExited).modCore n fun c => c.finishes (s.modCore n Core.aExited).power.ref, ?_, ?_⟩
  · rw [exec_aStreamExitComplete hgrp hstat hexiting hexited haops hcmds hsaved, State.finishCore_completes hat hstat hcores hboth hfin']
  · rw [State.core_modCore_self]
    exact ⟨rfl, rfl, rfl⟩

end Exits

/-! ### CRTAIL (R367) -/

/-- A flush of records writes CRHEAD and the records only: any other register stands. -/
theorem State.flushRecords_reg (s : State) (pn : Nat) {off : Nat} (h : off ≠ 0x710) (fuel : Nat) : ((s.flushRecords pn fuel).part pn).reg off = (s.part pn).reg off := by
  induction fuel generalizing s with
  | zero => rfl
  | succ fuel ih =>
    have hset (p : Part) (v : Word) : ((s.setPart pn (p.setReg 0x710 v)).part pn).reg off = p.reg off := by
      rw [State.part_setPart_self, Part.reg_setReg_other _ _ h]
    unfold State.flushRecords
    dsimp only
    split
    · rfl
    · split
      · exact hset ..
      · split
        · exact hset ..
        · split
          · rfl
          · split
            · exact hset ..
            · rw [ih]
              exact hset ..

/-- Without a ring the records that wait go on waiting (R367). -/
theorem State.flushRecords_noRing {s : State} {pn : Nat} (h : (s.part pn).reg 0x700 = 0#64) (fuel : Nat) :
    ((s.flushRecords pn fuel).part pn).records = (s.part pn).records := by
  have hset (v : Word) : ((s.setPart pn ((s.part pn).setReg 0x710 v)).part pn).records = (s.part pn).records := by
    rw [State.part_setPart_self, Part.setReg_records]
  cases fuel with
  | zero => rfl
  | succ fuel =>
    unfold State.flushRecords
    dsimp only
    split
    · rfl
    · split
      · exact hset _
      · exact hset _

/-- A ring with a slot is not full. -/
theorem State.ringSlot_room {s : State} {pn a : Nat} (h : s.ringSlot pn = some a) :
    ¬ 2 ^ (((s.part pn).reg 0x708).toNat % 16 + 4) ≤ ((s.part pn).idx 0x710 + 2 ^ 32 - (s.part pn).idx 0x718) % 2 ^ 32 := by
  intro hfull
  unfold State.ringSlot at h
  dsimp only at h
  rw [if_pos hfull] at h
  nomatch h

/-- A record that finds its slot is written there (R367). -/
theorem State.flushRecords_one {s : State} {pn a : Nat} {r : Bytes} (hrec : (s.part pn).records = [r]) (hbase : (s.part pn).reg 0x700 ≠ 0#64)
    (hstill : s.copying = []) (hslot : s.ringSlot pn = some a) :
    ((s.flushRecords pn 1).part pn).records = [] ∧ (s.flushRecords pn 1).hbm = Memory.store s.hbm a r := by
  have hone : s.flushRecords pn 1 = { s.setPart pn (({ s.part pn with records := [] } : Part).setReg 0x710 (BitVec.ofNat 64 (((s.part pn).idx 0x710 + 1) % 2 ^ 32)))
      with hbm := Memory.store s.hbm a r } := by
    have hnotFull := State.ringSlot_room hslot
    unfold State.flushRecords
    dsimp only
    rw [hrec]
    dsimp only
    rw [if_neg (by simpa using hnotFull), if_neg hbase, State.vaCopied_of_nothing_copied hstill, Bool.and_false, if_neg Bool.false_ne_true, hslot]
    rfl
  rw [hone]
  refine ⟨?_, rfl⟩
  show ((s.setPart pn _).part pn).records = []
  rw [State.part_setPart_self, Part.setReg_records]

section Crtail
variable (p : Nat) (v : Word) (s : State)

/-- CRTAIL with its bits 31:0 written, before the records that wait are tried again. -/
def State.crtailSet : State := s.modPart p fun x => x.setReg 0x718 (v &&& 0xFFFFFFFF#64)

theorem State.part_crtailSet : (s.crtailSet p v).part p = (s.part p).setReg 0x718 (v &&& 0xFFFFFFFF#64) := s.part_modPart_self ..

theorem exec_crtailWrite : exec (.crtailWrite p v) s = .next ((s.crtailSet p v).flushRecords p ((s.crtailSet p v).part p).records.length) := rfl

/-- A write of CRTAIL sets its bits 31:0; the records that wait are tried again, and without a ring none is lost (R367). -/
theorem exec_crtailWrite_clauses : (∃ t : State, exec (.crtailWrite p v) s = .next t ∧ (t.part p).reg 0x718 = v &&& 0xFFFFFFFF#64 ∧ t.cores = s.cores ∧ t.groups = s.groups) ∧
    ((s.part p).records = [] → exec (.crtailWrite p v) s = .next (s.crtailSet p v)) ∧
    ((s.part p).reg 0x700 = 0#64 → ∃ t : State, exec (.crtailWrite p v) s = .next t ∧ (t.part p).records = (s.part p).records) ∧
    ∀ r a, (s.part p).records = [r] → (s.part p).reg 0x700 ≠ 0#64 → s.copying = [] → (s.crtailSet p v).ringSlot p = some a →
      ∃ t : State, exec (.crtailWrite p v) s = .next t ∧ (t.part p).records = [] ∧ t.hbm = Memory.store s.hbm a r := by
  have hpart := s.part_crtailSet p v
  have hrecs : ((s.crtailSet p v).part p).records = (s.part p).records := by rw [hpart, Part.setReg_records]
  have hbase : ((s.crtailSet p v).part p).reg 0x700 = (s.part p).reg 0x700 := by rw [hpart, Part.reg_setReg_other _ _ (by decide)]
  have hview := (s.crtailSet p v).flushRecords_placeView p ((s.crtailSet p v).part p).records.length
  refine ⟨⟨_, exec_crtailWrite p v s, ?_, State.cores_of_placeView hview, State.groups_of_placeView hview⟩, fun hnone => ?_,
    fun hno => ⟨_, exec_crtailWrite p v s, ?_⟩, fun r a hone hring hstill hslot => ⟨_, exec_crtailWrite p v s, ?_⟩⟩
  · rw [State.flushRecords_reg _ _ (by decide), hpart, Part.reg_setReg_self]
  · rw [exec_crtailWrite, hrecs, hnone]
    rfl
  · rw [State.flushRecords_noRing (hbase.trans hno), hrecs]
  · rw [hrecs, hone]
    exact State.flushRecords_one (hrecs.trans hone) (hbase ▸ hring) hstill hslot

end Crtail

end Sys2Proof.Machine

/-! PROOFS. The order of candidates, and a pass over them (the first clauses of O51). -/

namespace Sys2Proof.Machine

/-! ### The order of candidates (R99) -/

theorem Cand.before_iff (a b : Cand) : a.before b = true ↔ b.eff < a.eff ∨ (a.eff = b.eff ∧ a.arrival < b.arrival) := by
  simp [Cand.before]

theorem Cand.not_before_iff (a b : Cand) : a.before b = false ↔ ¬ (b.eff < a.eff ∨ (a.eff = b.eff ∧ a.arrival < b.arrival)) := by
  rw [← Cand.before_iff, Bool.not_eq_true]

theorem Cand.before_asymm {a b : Cand} (h : a.before b = true) : b.before a = false := by
  rw [Cand.before_iff] at h
  rw [Cand.not_before_iff]
  omega

theorem Cand.not_before_of_before {a b c : Cand} (hc : c.before b = true) (ha : a.before b = false) : a.before c = false := by
  rw [Cand.before_iff] at hc
  rw [Cand.not_before_iff] at ha ⊢
  omega

theorem mem_insertCand {c x : Cand} {l : List Cand} (h : x ∈ insertCand c l) : x = c ∨ x ∈ l := by
  induction l with
  | nil => exact .inl (List.mem_singleton.mp h)
  | cons a l ih =>
    rw [insertCand] at h
    split at h
    · exact List.mem_cons.mp h
    · obtain rfl | h := List.mem_cons.mp h
      · exact .inr List.mem_cons_self
      · exact (ih h).imp id (List.mem_cons_of_mem a)

/-- Inserting a candidate keeps the order. -/
theorem insertCand_pairwise {c : Cand} {l : List Cand} (h : l.Pairwise fun a b => b.before a = false) : (insertCand c l).Pairwise fun a b => b.before a = false := by
  induction l with
  | nil => exact List.pairwise_singleton ..
  | cons a l ih =>
    obtain ⟨ha, hl⟩ := List.pairwise_cons.mp h
    rw [insertCand]
    split
    next hc =>
      refine List.pairwise_cons.mpr ⟨fun x hx => ?_, h⟩
      obtain rfl | hx := List.mem_cons.mp hx
      · exact Cand.before_asymm hc
      · exact Cand.not_before_of_before hc (ha x hx)
    next hc =>
      refine List.pairwise_cons.mpr ⟨fun x hx => ?_, ih hl⟩
      obtain rfl | hx := mem_insertCand hx
      · exact Bool.not_eq_true _ ▸ hc
      · exact ha x hx

theorem State.candidates_pairwise (p : Nat) (s : State) : (s.candidates p).Pairwise fun a b => b.before a = false :=
  List.foldlRecOn (motive := fun l : List Cand => l.Pairwise fun a b => b.before a = false) _ _ List.Pairwise.nil fun _ hl _ _ => insertCand_pairwise hl

/-! ### Pre-emption (R101) -/

/-- State t is s with contexts halted: what was reserved and the contexts of cores stand, and a context that ran or had stopped runs or has stopped. -/
structure State.Preempts (s t : State) : Prop where
  reserved : ∀ q, (t.part q).reserved = (s.part q).reserved
  owner : ∀ n, (t.core n).owner = (s.core n).owner
  stops : ∀ k g, s.grp? k = some g → g.status = .running ∨ g.status = .stopped → ∃ h, t.grp? k = some h ∧ (h.status = .stopped ∨ h.status = g.status)

/-- A context with a number that has stopped. -/
def State.hasStopped (s : State) (k : Nat) : Prop := ∃ h, s.grp? k = some h ∧ h.status = .stopped

section Preempt
variable {s t u : State}

theorem State.Preempts.refl (s : State) : s.Preempts s := ⟨fun _ => rfl, fun _ => rfl, fun _ g hg _ => ⟨g, hg, .inr rfl⟩⟩

theorem State.Preempts.trans (h : s.Preempts t) (h' : t.Preempts u) : s.Preempts u where
  reserved q := (h'.reserved q).trans (h.reserved q)
  owner n := (h'.owner n).trans (h.owner n)
  stops k g hg hstat := by
    obtain ⟨g₁, hg₁, hstat₁⟩ := h.stops k g hg hstat
    obtain ⟨g₂, hg₂, hstat₂⟩ := h'.stops k g₁ hg₁ (hstat₁.elim .inr fun heq => heq ▸ hstat)
    refine ⟨g₂, hg₂, ?_⟩
    obtain h₂ | h₂ := hstat₂
    · exact .inl h₂
    · rwa [h₂]

theorem State.Preempts.hasStopped (h : s.Preempts t) {k : Nat} (hs : s.hasStopped k) : t.hasStopped k := by
  obtain ⟨g, hg, hstat⟩ := hs
  obtain ⟨g', hg', hstat'⟩ := h.stops k g hg (.inr hstat)
  exact ⟨g', hg', hstat'.elim id fun heq => heq.trans hstat⟩

/-- A context that is asked to wait for its place again keeps its status and its number, and so does every other. -/
theorem State.requeued_status {k k' : Nat} {g x : Grp} (hg : s.grp? k = some g) (pool : Option Nat) (hx : s.grp? k' = some x) :
    ∃ x', (s.requeued g pool).1.grp? k' = some x' ∧ x'.status = x.status ∧ x'.num = x.num := by
  have hnum := State.num_of_grp? hg
  by_cases hk : k' = k
  · subst hk hnum
    obtain ⟨x', hx', hrest⟩ := State.requeued_grp? (s := s) pool hg
    rw [hg] at hx
    cases hx
    exact ⟨x', hx', (congrArg (fun y : Grp => y.status) hrest :), (congrArg (fun y : Grp => y.num) hrest :)⟩
  · have hset := State.grp?_setGrp_other (s := s) (g := { g with needsPool := pool, queuedSince := s.wall, readySince := if pool.isSome then 0 else s.wall })
      (k := k') (by rwa [← hnum] at hk)
    obtain ⟨x', hx', hrest⟩ := State.grp?_stampReady g.part (hset.trans hx)
    exact ⟨x', hx', (congrArg (fun y : Grp => y.status) hrest :), (congrArg (fun y : Grp => y.num) hrest :)⟩

/-- Halting a context that is not halting stops it if it can be halted. -/
theorem State.halt_preempts {g : Grp} (hg : s.grp? g.num = some g) (cause code : Nat) :
    s.Preempts (s.halt g cause code) ∧ (g.haltable → (s.halt g cause code).hasStopped g.num) := by
  have hfrom {u : State} (hu : s.Halts u g cause) : s.Preempts u := by
    obtain ⟨hgroups, -, hres⟩ : u.groups = s.groups ∧ u.wall = s.wall ∧ (fun q => (u.part q).reserved) = fun q => (s.part q).reserved := by
      simpa only [State.haltView, Prod.mk.injEq] using hu.view
    exact ⟨congrFun hres, hu.owner, fun k x hx _ => ⟨x, (State.grp?_of_groups hgroups k).trans hx, .inr rfl⟩⟩
  by_cases hhalt : g.haltable
  · obtain ⟨u, slip, heq, hu⟩ := State.halt_halts hhalt s cause code
    have hself := hu.grp? (g' := { g with status := .stopped, slip := slip }) rfl (by rw [hg]; rfl)
    have hset : u.Preempts (u.setGrp { g with status := .stopped, slip := slip }) := by
      refine ⟨fun _ => rfl, fun _ => rfl, fun k x hx _ => ?_⟩
      by_cases hk : k = g.num
      · rw [hk]
        exact ⟨_, hself, .inl rfl⟩
      · exact ⟨x, (State.grp?_setGrp_other (g := { g with status := .stopped, slip := slip }) hk).trans hx, .inr rfl⟩
    rw [heq]
    exact ⟨(hfrom hu).trans hset, fun _ => ⟨_, hself, rfl⟩⟩
  · have heq := State.halt_of_other hhalt s cause code
    rw [heq]
    exact ⟨hfrom (s.halts_caused g cause code), fun h => absurd h hhalt⟩

theorem State.preempt_preempts (s : State) (k : Nat) : s.Preempts (s.preempt k) ∧ (∀ g, s.grp? k = some g → g.status = .running → (s.preempt k).hasStopped k) := by
  unfold State.preempt
  split
  next g hg =>
    split
    next hskip =>
      refine ⟨.refl s, fun x hx hstat => ?_⟩
      rw [hg] at hx
      cases hx
      simp [hstat] at hskip
    · have hreq : s.Preempts (s.requeued g g.needsPool).1 :=
        ⟨fun _ => rfl, fun _ => rfl, fun k' x hx _ =>
          let ⟨x', hx', hstat, _⟩ := State.requeued_status hg g.needsPool hx
          ⟨x', hx', .inr hstat⟩⟩
      obtain ⟨g', hg', hstat', hnum'⟩ := State.requeued_status hg g.needsPool hg
      have hk : g'.num = k := State.num_of_grp? hg'
      dsimp only
      rw [hg', Option.getD_some]
      subst hk
      obtain ⟨hpre, hstop⟩ := State.halt_preempts hg' 0x80 0
      refine ⟨hreq.trans hpre, fun x hx hstat => hstop (.inl ?_)⟩
      rw [hg] at hx
      cases hx
      exact hstat'.trans hstat
  next hnone =>
    refine ⟨.refl s, fun x hx => ?_⟩
    rw [hnone] at hx
    cases hx

/-- A context found on a core is the one with its owner's number. -/
theorem State.grp?_of_grpAt {n : Nat} {g : Grp} (h : s.grpAt n = some g) : (s.core n).owner ≠ 0 ∧ (s.core n).owner = g.num ∧ s.grp? g.num = some g := by
  unfold State.grpAt at h
  split at h
  · cases h
  next h0 =>
    have hnum := State.num_of_grp? h
    exact ⟨h0, hnum.symm, by rwa [hnum]⟩

/-- The context on a core, if there is one, is pre-empted. -/
def State.preemptOn (s : State) (n : Nat) : State :=
  match s.grpAt n with
  | some g => s.preempt g.num
  | none => s

/-- The contexts on the cores of a rectangle are pre-empted (R101). -/
def State.preemptAll (s : State) (cs : List Nat) : State := cs.foldl State.preemptOn s

theorem State.preemptOn_preempts (s : State) (n : Nat) : s.Preempts (s.preemptOn n) := by
  unfold State.preemptOn
  split
  next g _ => exact (s.preempt_preempts g.num).1
  · exact .refl s

theorem State.preemptAll_preempts (s : State) (cs : List Nat) :
    s.Preempts (s.preemptAll cs) ∧ ∀ n ∈ cs, ∀ g, s.grpAt n = some g → g.status = .running → (s.preemptAll cs).hasStopped g.num := by
  refine ⟨List.foldlRecOn (motive := fun t => s.Preempts t) _ _ (.refl s) fun t ht n _ => ht.trans (t.preemptOn_preempts n), fun n hn g hg hrun => ?_⟩
  obtain ⟨h0, howner, hgrp⟩ := State.grp?_of_grpAt hg
  refine foldl_establishes (P := fun t : State => t.hasStopped g.num) (Q := fun t => s.Preempts t) hn (fun t ht => ?_)
    (fun t m ht => (t.preemptOn_preempts m).hasStopped ht) (fun t m ht => ht.trans (t.preemptOn_preempts m)) (.refl s)
  obtain ⟨h, hh, hstat⟩ := ht.stops g.num g hgrp (.inl hrun)
  have hat : t.grpAt n = some h := by
    rw [State.grpAt, ht.owner, if_neg h0, howner, hh]
  have hnum : h.num = g.num := State.num_of_grp? hh
  have hon : t.preemptOn n = t.preempt g.num := by
    unfold State.preemptOn
    rw [hat, ← hnum]
  rw [hon]
  obtain ⟨hpre, hstop⟩ := t.preempt_preempts g.num
  obtain hstat | hstat := hstat
  · exact hpre.hasStopped ⟨h, hh, hstat⟩
  · exact hstop h hh (hstat.trans hrun)

end Preempt

/-! ### A pass over candidates (R99 to R101) -/

/-- A core that is free could be cleared. -/
theorem State.clearable_of_free {s : State} {p n : Nat} {c : Cand} (h : s.coreFree p c.arrival n = true) : s.clearable p c n = true := by
  unfold State.clearable
  rw [h, Bool.true_or]

section Pass
variable {p : Nat} {c : Cand} {rest : List Cand} {held : List Nat} {s : State}

theorem State.passLoop_held (h : c.eff ∈ held) : State.passLoop p (c :: rest) held s = State.passLoop p rest held s := by
  rw [State.passLoop, if_pos (by simpa using h)]

variable (hheld : c.eff ∉ held)
include hheld

theorem State.passLoop_free {r : Rect} (h : (s.candRects p c).find? (fun r => r.cores.all (s.coreFree p c.arrival)) = some r) :
    State.passLoop p (c :: rest) held s = State.passLoop p rest held (s.placeCand p c r) := by
  rw [State.passLoop, if_neg (by simpa using hheld)]
  dsimp only
  rw [h]

/-- Without a rectangle to take or to clear a candidate holds its priority back. -/
theorem State.passLoop_noClear (h : ∀ r ∈ s.candRects p c, r.cores.all (s.clearable p c) = false) :
    State.passLoop p (c :: rest) held s = State.passLoop p rest (c.eff :: held) s := by
  have hclear : (s.candRects p c).find? (fun r => r.cores.all (s.clearable p c)) = none := List.find?_eq_none.mpr fun r hr => by simp [h r hr]
  have hfree : (s.candRects p c).find? (fun r => r.cores.all (s.coreFree p c.arrival)) = none := by
    refine List.find?_eq_none.mpr fun r hr hall => ?_
    have hcl : r.cores.all (s.clearable p c) = true := List.all_eq_true.mpr fun n hn => State.clearable_of_free (List.all_eq_true.mp hall n hn)
    rw [h r hr] at hcl
    cases hcl
  rw [State.passLoop, if_neg (by simpa using hheld)]
  dsimp only
  rw [hfree, hclear]

variable (hnone : ∀ r ∈ s.candRects p c, r.cores.all (s.coreFree p c.arrival) = false)
include hnone

/-- So does one that has not yet waited for 100 µs. -/
theorem State.passLoop_young (h : s.wall < c.since + 100000) : State.passLoop p (c :: rest) held s = State.passLoop p rest (c.eff :: held) s := by
  have hfree : (s.candRects p c).find? (fun r => r.cores.all (s.coreFree p c.arrival)) = none := List.find?_eq_none.mpr fun r hr => by simp [hnone r hr]
  rw [State.passLoop, if_neg (by simpa using hheld)]
  dsimp only
  rw [hfree]
  dsimp only
  split
  · rw [if_pos (by simp [h])]
  · rfl

/-- After 100 µs it reserves the first rectangle that it may clear and pre-empts what runs there (R101). -/
theorem State.passLoop_preempts {r : Rect} (h : (s.candRects p c).find? (fun r => r.cores.all (s.clearable p c)) = some r) (hwait : c.since + 100000 ≤ s.wall)
    (hres : ∀ e ∈ (s.part p).reserved, e.1 ≠ c.arrival) :
    ∃ u : State, State.passLoop p (c :: rest) held s = State.passLoop p rest (c.eff :: held) u ∧ (c.arrival, r.cores) ∈ (u.part p).reserved ∧
      ∀ n ∈ r.cores, ∀ g, s.grpAt n = some g → g.status = .running → ∃ h, u.grp? g.num = some h ∧ h.status = .stopped := by
  have hfree : (s.candRects p c).find? (fun r => r.cores.all (s.coreFree p c.arrival)) = none := List.find?_eq_none.mpr fun r hr => by simp [hnone r hr]
  have hnew : ((s.part p).reserved.any fun e => e.1 == c.arrival) = false := List.any_eq_false.mpr fun e he => by simp [hres e he]
  obtain ⟨hpre, hstop⟩ := (s.modPart p fun x => { x with reserved := (c.arrival, r.cores) :: x.reserved }).preemptAll_preempts r.cores
  refine ⟨(s.modPart p fun x => { x with reserved := (c.arrival, r.cores) :: x.reserved }).preemptAll r.cores, ?_, ?_, hstop⟩
  · rw [State.passLoop, if_neg (by simpa using hheld)]
    dsimp only
    rw [hfree]
    dsimp only
    rw [h]
    dsimp only
    rw [hnew, if_neg (by simp [hwait])]
    rfl
  · rw [hpre.reserved, State.part_modPart_self]
    exact List.mem_cons_self

end Pass

/-- A pass with one candidate that fits places it (R99). -/
theorem State.pass_one {p : Nat} {c : Cand} {r : Rect} {s u : State}
    (hu : u = ((s.retireCores p).flushRecords p ((s.retireCores p).part p).records.length).stampReady p) (hc : u.candidates p = [c])
    (hr : (u.candRects p c).find? (fun r => r.cores.all (u.coreFree p c.arrival)) = some r) :
    s.pass p = (u.placeCand p c r).modPart p fun x => { x with lastPass := (u.placeCand p c r).wall } := by
  have hloop : State.passLoop p (u.candidates p) [] u = u.placeCand p c r := by
    rw [hc, State.passLoop_free (by simp) hr, State.passLoop]
  rw [← hloop, hu]
  rfl

/-! ### The pass timer and aging (R98, R99) -/

theorem exec_dispatchPassTimer (p : Nat) (s : State) :
    exec (.dispatchPassTimer p) s = .next (if (s.part p).lastPass + 100000 ≤ s.wall then s.pass p else s) := rfl

theorem exec_priorityAging (p : Nat) (s : State) :
    exec (.priorityAging p) s = .next (if (s.candidates p).any (s.agedSince p) then s.pass p else s) := rfl

end Sys2Proof.Machine

/-! PROOFS. What a launch that is placed leaves of the pool, the contexts and its cores (the clause of O51 on R30 and R109). -/

namespace Sys2Proof.Machine

/-! ### A core as a placement leaves it (R30, R109) -/

/-- Words laid down one after another read back at their places. -/
theorem sget_foldl_sset (l : List Word) (k i : Nat) (st : Store Word) :
    sget 0#64 i ((l.zipIdx k).foldl (fun st e => sset 0#64 e.2 e.1 st) st) = if k ≤ i ∧ i < k + l.length then l.getD (i - k) 0#64 else sget 0#64 i st := by
  induction l generalizing k st with
  | nil =>
    rw [if_neg (by rw [List.length_nil]; omega)]
    rfl
  | cons v l ih =>
    rw [List.zipIdx_cons, List.foldl_cons, ih, List.length_cons]
    by_cases hi : i = k
    · subst hi
      rw [if_neg (by omega), if_pos (by omega), Nat.sub_self, sget_sset_self]
      rfl
    · by_cases hin : k + 1 ≤ i ∧ i < k + 1 + l.length
      · obtain ⟨j, rfl⟩ : ∃ j, i = k + 1 + j := ⟨i - (k + 1), by omega⟩
        rw [if_pos hin, if_pos (by omega), Nat.add_sub_cancel_left, show k + 1 + j - k = j + 1 by omega, List.getD_cons_succ]
      · rw [if_neg hin, if_neg (by omega), sget_sset_other _ _ _ hi]

/-- A word of a list laid down at 0. -/
theorem sget_words (l : List Word) {i : Nat} (h : i < l.length) : sget 0#64 i (l.zipIdx.foldl (fun st e => sset 0#64 e.2 e.1 st) []) = l[i] := by
  rw [sget_foldl_sset, if_pos (by omega), Nat.sub_zero, List.getD_eq_getElem?_getD, List.getElem?_eq_getElem h]
  rfl

/-- What a store reads as after one value was put into an empty one. -/
theorem sget_single (k i : Nat) (v : Word) : sget 0#64 i (sset 0#64 k v []) = if i = k then v else 0#64 := by
  split
  next h => rw [h, sget_sset_self]
  next h => exact sget_sset_other _ _ _ h

/-- A core under a group that was just placed on it, as O51 says it. -/
structure Core.PlacedAs (c : Core) (n : Nat) (g : Grp) (o : Obj) (r : Bytes) : Prop where
  owner : c.owner = g.num
  xpc : c.x.k.pc = o.base + BitVec.ofNat 64 ((o.sec 1).1 + recField r 8 4)
  apc : c.a.k.pc = o.base + BitVec.ofNat 64 ((o.sec 2).1 + recField r 0xC 4)
  xregs : ∀ i, sget 0#64 i c.x.g = if i = 6 then recArg r else 0#64
  aregs : ∀ i, sget 0#64 i c.a.x = if i = 31 then recArg r else 0#64
  win : ∀ i, sget 0#64 i c.x.win = 0#64
  preds : ∀ i, sget 0#64 i c.x.p = 0#64
  loops : ∀ i, sget 0#64 i c.x.k.lc = 0#64 ∧ sget 0#64 i c.a.k.lc = 0#64
  mail : ∀ i, i < 16 → sget 0#64 i c.sys.mb = BitVec.ofNat 64 (recField r (0x80 + 8 * i) 8)
  levels : ∀ i, i < recLevels r → sget 0#64 i c.sys.lvl = levelWord r i (coreX n - g.x0) (coreY n - g.y0) (coreDie n - g.d0)
  gpos : c.sys.gpos = gposWord g n
  spmask : c.sys.spmask = 0x80000000#32
  empty : c.q = [] ∧ c.tk = [] ∧ c.aops = [] ∧ c.cmds = [] ∧ c.ops = [] ∧ c.tick = 0
  banks : ∀ a, (c.bank a).held = false
  slots : ∀ k, (c.slot k).claimed = false
  descs : ∀ k, sget ({} : Desc) k c.e.desc = {}
  zeroed : ∀ a, 0x1F0000 ≤ a → a < 0x200000 → Memory.read c.sp a = 0#8

theorem Core.placed_mb (c : Core) (n : Nat) (g : Grp) (o : Obj) (r : Bytes) (templates : List Word) (now : Nat) : (c.placed n g o r templates now).sys.mb =
    ((List.range 16).map fun i => BitVec.ofNat 64 (recField r (0x80 + 8 * i) 8)).zipIdx.foldl (fun st e => sset 0#64 e.2 e.1 st) [] := by
  simp only [Core.placed, Core.takeFirst]

theorem Core.placed_lvl (c : Core) (n : Nat) (g : Grp) (o : Obj) (r : Bytes) (templates : List Word) (now : Nat) : (c.placed n g o r templates now).sys.lvl =
    ((List.range (recLevels r)).map fun i => levelWord r i (coreX n - g.x0) (coreY n - g.y0) (coreDie n - g.d0)).zipIdx.foldl (fun st e => sset 0#64 e.2 e.1 st) [] := by
  simp only [Core.placed, Core.takeFirst]

theorem Core.placed_acc (c : Core) (n : Nat) (g : Grp) (o : Obj) (r : Bytes) (templates : List Word) (now : Nat) : (c.placed n g o r templates now).e.acc =
    c.e.acc.foldl (fun st e => sset {} e.1 e.2.idle st) [] := by
  simp only [Core.placed, Core.takeFirst]

theorem Core.placed_sp (c : Core) (n : Nat) (g : Grp) (o : Obj) (r : Bytes) (templates : List Word) (now : Nat) : (c.placed n g o r templates now).sp =
    Memory.zero c.sp (65536 * 31) 65536 := by
  simp only [Core.placed, Core.takeFirst, Core.bare]

/-- No accumulator bank that is laid down idle is held. -/
theorem idle_notHeld (l : Store AccBank) (a : Nat) : (sget {} a (l.foldl (fun st e => sset {} e.1 e.2.idle st) []) : AccBank).held = false := by
  refine List.foldlRecOn (motive := fun st : Store AccBank => (sget {} a st).held = false) _ _ rfl fun st hst e _ => ?_
  by_cases ha : a = e.1
  · rw [ha, sget_sset_self]
    rfl
  · rwa [sget_sset_other _ _ _ ha]

theorem Core.placed_placedAs (c : Core) (n : Nat) (g : Grp) (o : Obj) (r : Bytes) (templates : List Word) (now : Nat) : (c.placed n g o r templates now).PlacedAs n g o r where
  owner := rfl
  xpc := rfl
  apc := rfl
  xregs i := sget_single 6 i _
  aregs i := sget_single 31 i _
  win _ := rfl
  preds _ := rfl
  loops _ := ⟨rfl, rfl⟩
  mail i hi := by
    rw [Core.placed_mb, sget_words _ (by simpa using hi)]
    simp
  levels i hi := by
    rw [Core.placed_lvl, sget_words _ (by simpa using hi)]
    simp
  gpos := rfl
  spmask := rfl
  empty := ⟨rfl, rfl, rfl, rfl, rfl, rfl⟩
  banks a := by
    rw [Core.bank, Core.placed_acc]
    exact idle_notHeld ..
  slots _ := rfl
  descs _ := rfl
  zeroed a hlo hhi := by
    rw [Core.placed_sp]
    refine (sget_sclear unwritten (65536 * 31) 65536 a c.sp).trans (if_neg ?_)
    omega

/-! ### What a placement leaves of the rest -/

/-- What the dispatcher's records and clocks leave as it is: the contexts, the next context number and the pools. -/
def State.poolView (s : State) : List Grp × Nat × (Nat → List Launch) := (s.groups, s.nextCtx, fun q => (s.part q).pending)

theorem State.setPart_poolView (s : State) (pn : Nat) {p : Part} (h : p.pending = (s.part pn).pending) : (s.setPart pn p).poolView = s.poolView := by
  have hpend (q : Nat) : ((s.setPart pn p).part q).pending = (s.part q).pending := by
    by_cases hq : q = pn
    · rw [hq, State.part_setPart_self, h]
    · rw [State.part_setPart_other _ _ hq]
  simp only [State.poolView, hpend]
  rfl

@[simp] theorem State.withClock_poolView (s : State) (n : Nat) (f : Core → Core) : (s.withClock n f).poolView = s.poolView := by
  unfold State.withClock
  dsimp only
  split
  · split
    · rfl
    · exact State.setPart_poolView (s.modCore n f) _ rfl
  · rfl

@[simp] theorem State.trace_poolView (s : State) (pn src kind a : Nat) (b : Word) : (s.trace pn src kind a b).poolView = s.poolView := by
  have hstore (t : State) (a : Nat) (d : Bytes) : (t.storeHbm a d).poolView = t.poolView := by
    unfold State.storeHbm
    split <;> rfl
  unfold State.trace
  dsimp only
  split
  · rfl
  · split
    · exact s.setPart_poolView pn rfl
    · rw [hstore]
      exact s.setPart_poolView pn rfl

theorem State.writeEntry_view (s : State) (a : Nat) (e : HEntry) : ((s.writeEntry a e).cores, (s.writeEntry a e).poolView) = (s.cores, s.poolView) := by
  simp only [State.writeEntry, State.poolView, State.part]

theorem State.firstHandles_view (s : State) (pn : Nat) : ((s.firstHandles pn).cores, (s.firstHandles pn).poolView) = (s.cores, s.poolView) := by
  have hset (p : Part) (h : p.pending = (s.part pn).pending) : ((s.setPart pn p).cores, (s.setPart pn p).poolView) = (s.cores, s.poolView) :=
    Prod.ext rfl (s.setPart_poolView pn h)
  unfold State.firstHandles
  dsimp only
  split
  · rfl
  · split
    · exact hset _ rfl
    · refine (State.foldl_keeps (fun t : State => (t.cores, t.poolView)) (fun t k => ?_) _ _).trans (hset _ rfl)
      split
      · exact t.writeEntry_view ..
      · rfl

/-- The context of a launch that is placed on a rectangle (R109). -/
def State.newGrp (s : State) (pn : Nat) (l : Launch) (r : Rect) (o : Obj) : Grp :=
  { num := s.nextCtx, part := pn, obj := l.obj, tag := l.tag, x0 := r.x0, y0 := r.y0, d0 := r.d0, w := r.w, hgt := r.hgt, dies := r.dies
    cores := r.cores, depth := l.depth, prio := l.prio, arrival := l.arrival, parents := l.parents
    handler := if recHandler l.record then some (o.base + BitVec.ofNat 64 ((o.sec 2).1 + recField l.record 0x78 4)) else none
    mask := BitVec.ofNat 256 (recField l.record 0x100 32), passed := if s.power.pend.isSome then r.cores else [] }

/-- The state in which a launch has become a context, whose cores are still as they were. -/
def State.becomes (s : State) (pn : Nat) (l : Launch) (g : Grp) : State :=
  { s.dropLaunch pn l.arrival with groups := (s.dropLaunch pn l.arrival).groups ++ [g], nextCtx := nextContext s.nextCtx }

/-- The cores of a context that is placed. -/
def State.placedOn (s : State) (g : Grp) (o : Obj) (l : Launch) : State :=
  g.cores.foldl (fun s n => s.withClock n fun c => c.placed n g o l.record o.templates s.power.ref) s

theorem State.place_eq {s : State} {pn : Nat} {l : Launch} {r : Rect} {o : Obj} (ho : (s.part pn).obj? l.obj = some o) :
    s.place pn l r = (((((s.firstHandles pn).becomes pn l ((s.firstHandles pn).newGrp pn l r o)).placedOn ((s.firstHandles pn).newGrp pn l r o) o l).reveal r.cores
      (fun _ => true) true).traceGroup pn ((s.firstHandles pn).newGrp pn l r o).num (Answer.accepted l.arrival).word) := by
  unfold State.place
  rw [ho]
  rfl

theorem State.placedOn_poolView (s : State) (g : Grp) (o : Obj) (l : Launch) : (s.placedOn g o l).poolView = s.poolView :=
  State.foldl_keeps State.poolView (f := fun s n => s.withClock n fun c => c.placed n g o l.record o.templates s.power.ref)
    (fun t n => t.withClock_poolView n fun c => c.placed n g o l.record o.templates t.power.ref) _ s

theorem State.placedOn_core_other (s : State) {g : Grp} (o : Obj) (l : Launch) {n : Nat} (h : n ∉ g.cores) : (s.placedOn g o l).core n = s.core n :=
  List.foldlRecOn (motive := fun t : State => t.core n = s.core n) _ _ rfl fun t ht _ hm =>
    (State.core_withClock_other t _ (ne_of_mem_of_not_mem hm h).symm).trans ht

theorem State.placedOn_core (s : State) {g : Grp} (o : Obj) (l : Launch) {n : Nat} (h : n ∈ g.cores) : ((s.placedOn g o l).core n).PlacedAs n g o l.record := by
  refine foldl_establishes (P := fun t : State => (t.core n).PlacedAs n g o l.record) (Q := fun _ => True) h (fun t _ => ?_) (fun t m ht => ?_)
    (fun _ _ _ => trivial) trivial
  · rw [State.core_withClock_self]
    exact Core.placed_placedAs ..
  · by_cases hm : n = m
    · rw [← hm, State.core_withClock_self]
      exact Core.placed_placedAs ..
    · rwa [State.core_withClock_other _ _ hm]

section Place
variable {s : State} {p : Nat} {l : Launch} {r : Rect} {o : Obj}

/-- A launch so placed leaves the pool, its group holds the rectangle, and each core has the state of R30 and R109. -/
theorem State.place_placed (ho : (s.part p).obj? l.obj = some o) (hnum : ∀ g ∈ s.groups, g.num ≠ s.nextCtx) :
    (∀ q ∈ ((s.place p l r).part p).pending, q.arrival ≠ l.arrival) ∧ (∀ n, n ∉ r.cores → (s.place p l r).core n = s.core n) ∧
    ∃ g : Grp, (s.place p l r).grp? s.nextCtx = some g ∧ g.num = s.nextCtx ∧ g.cores = r.cores ∧ g.part = p ∧ g.obj = l.obj ∧ g.arrival = l.arrival ∧
      g.depth = l.depth ∧ g.status = .running ∧ g.clock = false ∧ ∀ n ∈ r.cores, ((s.place p l r).core n).PlacedAs n g o l.record := by
  obtain ⟨hcores, hpool⟩ := Prod.mk.inj (s.firstHandles_view p)
  have hgroups : (s.firstHandles p).groups = s.groups := congrArg Prod.fst hpool
  have hnext : (s.firstHandles p).nextCtx = s.nextCtx := (congrArg (fun v : List Grp × Nat × (Nat → List Launch) => v.2.1) hpool :)
  have hplace := State.place_eq (r := r) ho
  generalize hu : s.firstHandles p = u at hplace hcores hgroups hnext
  generalize hg : u.newGrp p l r o = g at hplace
  have hgnum : g.num = s.nextCtx := by
    rw [← hg]
    exact hnext
  have hgcores : g.cores = r.cores := by rw [← hg]; rfl
  have hview : (s.place p l r).poolView = (u.becomes p l g).poolView := by
    rw [hplace, State.traceGroup, State.trace_poolView, State.reveal_frame]
    exact State.placedOn_poolView ..
  have hcore (n : Nat) : (s.place p l r).core n = ((u.becomes p l g).placedOn g o l).core n := by
    rw [hplace, State.traceGroup, State.core_of_cores (State.trace_cores ..), State.reveal_frame]
    rfl
  refine ⟨fun q hq => ?_, fun n hn => ?_, g, ?_, hgnum, hgcores, ?_⟩
  · have hpend : ((s.place p l r).part p).pending = ((u.becomes p l g).part p).pending :=
      (congrArg (fun v : List Grp × Nat × (Nat → List Launch) => v.2.2 p) hview :)
    have hdropped : ((u.becomes p l g).part p).pending = (u.part p).pending.filter fun q => q.arrival != l.arrival := by
      show ((u.dropLaunch p l.arrival).part p).pending = _
      rw [State.dropLaunch, State.part_stampReady, State.part_modPart_self]
    rw [hpend, hdropped, List.mem_filter] at hq
    simpa using hq.2
  · rw [hcore, State.placedOn_core_other _ _ _ (hgcores ▸ hn), ← State.core_of_cores hcores]
    rfl
  · have hnone : (u.dropLaunch p l.arrival).grp? s.nextCtx = none := by
      rw [State.grp?_eq_none, State.grpKeys_of_stampView (u.dropLaunch_stampView p l.arrival), State.grpKeys, hgroups]
      simpa using hnum
    have hfound : (s.place p l r).grp? s.nextCtx = (u.becomes p l g).grp? s.nextCtx := State.grp?_of_groups (congrArg Prod.fst hview) _
    rw [hfound, State.grp?, State.becomes, List.find?_append, ← State.grp?, hnone, ← hgnum]
    simp
  · refine ⟨by rw [← hg]; rfl, by rw [← hg]; rfl, by rw [← hg]; rfl, by rw [← hg]; rfl, by rw [← hg]; rfl, by rw [← hg]; rfl, fun n hn => ?_⟩
    rw [hcore]
    exact State.placedOn_core _ o l (hgcores ▸ hn)

end Place

end Sys2Proof.Machine

/-! PROOFS. What the dispatcher does with launches and contexts, and how they end (O51). -/

namespace Sys2Proof.Machine

section Context
variable (k : Nat) (g : Grp) (s : State)

/-- The clauses of O51 about one context: its stop, its image, its supervisor and its teardown. -/
theorem exec_context_clauses (hg : s.grp? k = some g) :
    (g.status = .stopped → s.toSupervisor g = true → exec (.stopDelivery k) s = .next ((s.deliverSupervisor g .saving).pass g.part)) ∧
    (∀ e, g.status = .stopped → s.toSupervisor g = false → g.handler = some e → exec (.stopDelivery k) s = .next ((s.deliverHandlers g e).pass g.part)) ∧
    (g.status ≠ .stopped → exec (.stopDelivery k) s = .next s) ∧
    (g.status = .saving → (∀ n ∈ g.cores, (s.core n).mustWake = false) → ∃ (u : State) (h : Grp), exec (.saveImageComplete k) s = .next (u.pass g.part) ∧
      u.grp? k = some h ∧ h.images = g.cores.map (fun n => (n, s.savedCore n g.num g.unresumable)) ∧
      h.status = (if g.lastCause = 0x80 ∨ g.lastCause = 0x81 then .descheduled else .supervised) ∧ (∀ n ∈ g.cores, (u.core n).owner = 0)) ∧
    (g.status = .saving → (∃ n ∈ g.cores, (s.core n).mustWake = true) → ∃ t : State, exec (.saveImageComplete k) s = .next t ∧ t.groups = s.groups ∧
      ∀ n ∈ g.cores, ∀ b, b < 32 → (sget {} b (s.core n).banks).owner = (s.core n).owner → (sget {} b (s.core n).banks).live = true →
        (sget {} b (s.core n).banks).st = 1 → (sget {} b (t.core n).banks).st = 3) ∧
    (∀ n rest, g.status = .running → g.cores = n :: rest → exec (.supervisorStop k) s = .next (s.stop n { cause := 0x41, code := 0xFFFF })) ∧
    (∀ edits, g.status = .supervised →
      (g.unresumable = true ∨ (∀ im ∈ g.editedImages edits, im.2.saved = none → im.2.imageCheck.1 = 0) → ∃ (u : State) (h : Grp),
        exec (.supervisorPlace k edits) s = .next (u.pass g.part) ∧ u.grp? k = some h ∧ h.status = .replacing ∧
        h.images = (g.editedImages edits).map (fun im => (im.1, im.2.asked)) ∧ h.queuedSince = s.wall ∧ u.cores = s.cores) ∧
      (g.unresumable = false → (∃ im ∈ g.editedImages edits, im.2.saved = none ∧ im.2.imageCheck.1 ≠ 0) → exec (.supervisorPlace k edits) s = .next s)) ∧
    (s.descendants g.part g.arrival = [] → s.groups.find? (fun h => h.part == g.part && h.arrival == g.arrival) = some g →
      exec (.teardownContext k) s = .next ((s.complete g 0 0x82 g.lastCause).pass g.part)) :=
  ⟨exec_stopDelivery_supervisor hg, fun _ => exec_stopDelivery_handlers hg, exec_stopDelivery_other hg, exec_saveImageComplete_stands hg,
    exec_saveImageComplete_wakes hg, fun _ _ => exec_supervisorStop hg,
    fun _ hstat => ⟨exec_supervisorPlace_valid hg hstat, exec_supervisorPlace_invalid hg hstat⟩, exec_teardownContext hg⟩

end Context

/-- Settles O51, clause by clause: candidates and passes, placement, stops and images, teardown, completion, exits and CRTAIL. -/
theorem dispatcherAndExits : Obligations.DispatcherAndExits := by
  unfold Obligations.DispatcherAndExits
  refine ⟨fun p s => s.candidates_pairwise p, ?_, ?_, ?_, ?_, ?_, fun k g s hg => exec_context_clauses k g s hg,
    fun p s hnum harr => exec_teardownPartition hnum harr, fun g code fin cause s => s.complete_over g code fin cause, ?_, ?_,
    fun p v s => exec_crtailWrite_clauses p v s⟩
  · intro p c r s v u hc hr
    exact State.pass_one rfl hc hr
  · intro p c rest held s free clear on
    refine ⟨State.passLoop_held, fun hheld => ⟨fun r => State.passLoop_free hheld, State.passLoop_noClear hheld, fun hnone => ?_⟩⟩
    exact ⟨State.passLoop_young hheld hnone, fun r hr hwait hres => State.passLoop_preempts hheld hnone hr hwait hres⟩
  · intro p l r o s ho _ hnum t
    obtain ⟨hpend, hother, g, hgrp, hgnum, hcores, hpart, hobj, harr, hdepth, hstat, hclock, hplaced⟩ := State.place_placed (r := r) ho hnum
    refine ⟨hpend, hother, g, hgrp, hgnum, hcores, hpart, hobj, harr, hdepth, hstat, hclock, fun n hn => ?_⟩
    have h := hplaced n hn
    obtain ⟨hq, htk, haops, hcmds, hops, htick⟩ := h.empty
    exact ⟨h.owner.trans hgnum, h.xpc, h.apc, h.xregs, h.aregs, h.win, h.preds, h.loops, h.mail, h.levels, h.gpos, h.spmask, hq, htk, haops, hcmds, hops, htick,
      h.banks, h.slots, h.descs, h.zeroed⟩
  · intro p s
    rw [exec_dispatchPassTimer]
    exact ⟨fun hdue => by rw [if_pos hdue], fun hearly => by rw [if_neg (by omega)]⟩
  · intro p s
    rw [exec_priorityAging]
    refine ⟨fun haged => ?_, fun hnone => ?_⟩
    · rw [if_pos (List.any_eq_true.mpr haged)]
    · rw [if_neg (by simpa using hnone)]
  · intro n g s hgrp hstat hexiting hexited hops
    exact ⟨exec_xExitCheck_held hgrp hstat hexiting hexited hops, exec_xExitCheck_exits hgrp hstat hexiting hexited hops⟩
  · intro n g s hgrp hstat hexiting hexited haops hcmds hsaved
    exact ⟨exec_aStreamExitComplete_first hgrp hstat hexiting hexited haops hcmds hsaved,
      exec_aStreamExitComplete_second hgrp hstat hexiting hexited haops hcmds hsaved⟩

end Sys2Proof.Machine

/-! PROOFS. Conversions and reductions (O29). -/

namespace Sys2Proof.Machine

/-- A row syllable that may issue and selects no lane does nothing (R36, R186). -/
theorem State.vec_idle {s : State} {row : VectorRow} (h : s.vectorMay row) (hnone : s.lanesOn row.guard (s.me.rowType (s.vrow row.vd)) = 0#64) :
    s.vec row.guard row.lat row.vd row.srcs row.more row.value = s := by
  obtain ⟨hheld, hmore, hgood⟩ := h
  rw [State.vec_none _ _ _ _ _ _ _ hnone, hheld, hmore, hgood]
  rfl

/-- A conversion or reduction is the row syllable of its rule (R193 to R196). -/
theorem exec_of_convertRow {s : State} {i : Instr} {row : VectorRow} (h : convertRow s i = some row) :
    exec i s = .next (s.vec row.guard row.lat row.vd row.srcs row.more row.value) := by
  cases i with
  | vcvt | vpack | vunpk | vqbx | vdqbx | vred => cases h; rfl
  | _ => cases h

/-- Settles O29: each syllable is a row syllable, which leaves its row in flight or, with no lane selected, nothing. -/
theorem vectorConversions : Obligations.VectorConversions := by
  unfold Obligations.VectorConversions
  refine ⟨fun i s row hrow hready => ?_, fun i s row hrow hmay hnone => ?_⟩
  · rw [exec_of_convertRow hrow, State.vec_done _ _ _ _ _ _ _ hready]
  · rw [exec_of_convertRow hrow, State.vec_idle hmay hnone]

end Sys2Proof.Machine

/-! SUPPORT. Lanes of a row: the lanes of a row given by its lanes, and what a lane-by-lane form leaves in a lane. -/

namespace Sys2Proof.Machine

/-! ### Lanes of a row given by its lanes (R72) -/

theorem lanesNat_lt (w : Nat) (ls : List (BitVec w)) : lanesNat w ls < 2 ^ (w * ls.length) := by
  induction ls with
  | nil => simp [lanesNat]
  | cons v t ih =>
    have hv := v.isLt
    rw [lanesNat, List.length_cons, Nat.mul_succ, Nat.pow_add, Nat.mul_comm (2 ^ (w * t.length))]
    calc v.toNat + 2 ^ w * lanesNat w t < 2 ^ w * (lanesNat w t + 1) := by rw [Nat.mul_succ]; omega
      _ ≤ 2 ^ w * 2 ^ (w * t.length) := Nat.mul_le_mul_left _ ih

/-- Lane k of the number that lanes spell. -/
theorem lanesNat_div_mod (w k : Nat) (ls : List (BitVec w)) : lanesNat w ls / 2 ^ (w * k) % 2 ^ w = (ls.getD k 0#w).toNat := by
  induction ls generalizing k with
  | nil => simp [lanesNat]
  | cons v t ih =>
    cases k with
    | zero => simp [lanesNat, Nat.add_mul_mod_self_left, Nat.mod_eq_of_lt v.isLt]
    | succ k =>
      have hpow : 2 ^ (w * (k + 1)) = 2 ^ w * 2 ^ (w * k) := by rw [Nat.mul_succ, Nat.pow_add, Nat.mul_comm]
      rw [lanesNat, hpow, ← Nat.div_div_eq_div_mul, Nat.add_mul_div_left _ _ (Nat.two_pow_pos w), Nat.div_eq_of_lt v.isLt, Nat.zero_add, ih k]
      rfl

theorem lane_ofLanes {w : Nat} {ls : List (BitVec w)} (h : w * ls.length ≤ 1024) (k : Nat) : lane w k (ofLanes w ls) = ls.getD k 0#w := by
  apply BitVec.eq_of_toNat_eq
  have hlt := (lanesNat_lt w ls).trans_le (Nat.pow_le_pow_right Nat.two_pos h)
  rw [lane, ofLanes, BitVec.extractLsb'_toNat, BitVec.toNat_ofNat, Nat.mod_eq_of_lt hlt, Nat.shiftRight_eq_div_pow, lanesNat_div_mod]

/-! ### Rows of I32 codes -/

@[simp] theorem tyWidth_int32 : tyWidth 1 = 32 := rfl
@[simp] theorem tyLanes_int32 : tyLanes 1 = 32 := rfl

theorem codesOf_int32 (r : Row) : codesOf 1 r = (List.range 32).map fun k => (lane 32 k r).toNat := by
  simp [codesOf, lanes]

@[simp] theorem codesOf_int32_getElem? (r : Row) {k : Nat} (h : k < 32) : (codesOf 1 r)[k]? = some (lane 32 k r).toNat := by
  simp [codesOf_int32, h]

@[simp] theorem codesOf_int32_getD (r : Row) {k : Nat} (h : k < 32) (d : Nat) : (codesOf 1 r).getD k d = (lane 32 k r).toNat := by
  simp [List.getD_eq_getElem?_getD, h]

/-- Lane k of a row of at most 32 codes of I32. -/
theorem lane_ofCodes_int32 {cs : List Nat} {k c : Nat} (hlen : cs.length ≤ 32) (hk : cs[k]? = some c) : lane 32 k (ofCodes 1 cs) = BitVec.ofNat 32 c := by
  have hfit : 32 * (cs.map (BitVec.ofNat 32)).length ≤ 1024 := by rw [List.length_map]; omega
  rw [ofCodes, if_pos (by decide), lane_ofLanes hfit]
  simp [List.getD_eq_getElem?_getD, hk]

/-! ### Lane-by-lane forms -/

theorem zip3_length (f : Nat → Nat → Nat → Nat) (as bs cs : List Nat) : (zip3 f as bs cs).length = as.length := by
  induction as generalizing bs cs with
  | nil => rfl
  | cons a as ih => simp [zip3, ih]

theorem zip3_getElem? (f : Nat → Nat → Nat → Nat) (as bs cs : List Nat) (k : Nat) :
    (zip3 f as bs cs)[k]? = as[k]?.map fun a => f a (bs.getD k 0) (cs.getD k 0) := by
  induction as generalizing bs cs k with
  | nil => rfl
  | cons a as ih =>
    cases k with
    | zero => cases bs <;> cases cs <;> rfl
    | succ k => cases bs <;> cases cs <;> simp [zip3, ih]

/-- A lane-by-lane form over I32 rows gives each lane the low 32 bits of its function of the source lanes; a missing source reads as zeros. -/
theorem lane_laneMap_int32 (f : Nat → Nat → Nat → Nat → Nat) (rs : List Row) {k : Nat} (hk : k < 32) :
    lane 32 k (laneMap f 1 rs) = BitVec.ofNat 32 (f 1 (lane 32 k (rs.getD 0 0#1024)).toNat (lane 32 k (rs.getD 1 0#1024)).toNat
      (lane 32 k (rs.getD 2 0#1024)).toNat) := by
  refine lane_ofCodes_int32 ?_ ?_
  · simp [zip3_length, codesOf_int32]
  · simp only [zip3_getElem?, codesOf_int32_getElem? _ hk, codesOf_int32_getD _ hk, Option.map_some]

/-! ### Codes of 32-bit integers -/

@[simp] theorem sInt_toNat (x : BitVec 32) : sInt 32 x.toNat = x.toInt := by
  rw [sInt, BitVec.ofNat_toNat, BitVec.setWidth_eq]

@[simp] theorem ofNat_intCode (w : Nat) (i : Int) : BitVec.ofNat w (intCode w i) = BitVec.ofInt w i := by
  rw [intCode, BitVec.ofNat_toNat, BitVec.setWidth_eq, toBits]

/-- An exact integer form that does not saturate wraps (R188). -/
theorem ofNat_exactly_int32 (rm : Nat) (ff : Val → Val → Val → Val) (fi : Int → Int → Int → Int) (x y z : BitVec 32) :
    BitVec.ofNat 32 (exactly rm false ff fi 1 x.toNat y.toNat z.toNat) = BitVec.ofInt 32 (fi x.toInt y.toInt z.toInt) := by
  simp [exactly, arith, isFloat]

theorem ofInt_ediv_two_pow (x : BitVec 32) (n : Nat) : BitVec.ofInt 32 (x.toInt / (2 ^ n : Nat)) = x.sshiftRight n := by
  rw [← Int.shiftRight_eq_div_pow, ← BitVec.toInt_sshiftRight, BitVec.ofInt_toInt]

/-- Half a unit added before the shift keeps the value in 32 bits (R189). -/
theorem toInt_ofInt_rounded (x : BitVec 32) {n : Nat} (h : n ≠ 0) :
    (BitVec.ofInt 32 ((x.toInt + (2 ^ (n - 1) : Nat)) / (2 ^ n : Nat))).toInt = (x.toInt + 2 ^ (n - 1)) / 2 ^ n := by
  have hlow := x.le_toInt
  have hhigh := x.toInt_lt
  have hpow : (2 : Int) ^ n = 2 * 2 ^ (n - 1) := by rw [← pow_succ', Nat.sub_add_cancel (Nat.pos_of_ne_zero h)]
  have hpos : (0 : Int) < 2 ^ (n - 1) := by positivity
  push_cast
  rw [BitVec.toInt_ofInt, hpow]
  generalize (2 : Int) ^ (n - 1) = c at hpos
  have hge : -2 ^ 31 ≤ (x.toInt + c) / (2 * c) := by
    rw [Int.le_ediv_iff_mul_le (by omega)]
    omega
  have hlt : (x.toInt + c) / (2 * c) < 2 ^ 31 := by
    rw [Int.ediv_lt_iff_lt_mul (by omega)]
    omega
  exact Int.bmod_eq_of_le (by omega) (by omega)

end Sys2Proof.Machine

/-! PROOFS. The integer forms on I32 rows, and a landing of selected lanes (O30). -/

namespace Sys2Proof.Machine

/-- Lane k of the row that a lane-by-lane form gives for I32 rows. -/
theorem lane_vecBy_int32 {g : BitVec 4} {lat : Nat} {vd : BitVec 10} {vs : List (BitVec 10)} {f : Nat → Nat → Nat → Nat → Nat} {row : VectorRow}
    (h : vecBy g lat vd vs f = some row) (rs : List Row) (s : State) {k : Nat} (hk : k < 32) :
    lane 32 k (row.value 1 rs s) = BitVec.ofNat 32 (f 1 (lane 32 k (rs.getD 0 0#1024)).toNat (lane 32 k (rs.getD 1 0#1024)).toNat
      (lane 32 k (rs.getD 2 0#1024)).toNat) := by
  cases h
  exact lane_laneMap_int32 f rs hk

section Forms
variable {g r : BitVec 4} {vd a b : BitVec 10} {n : BitVec 6} {x y : Row} {s : State} {k : Nat} {row : VectorRow}

theorem value_vmov (h : vectorRow (.vmov g vd a) = some row) (ty : Nat) : row.value ty [x] s = x := by
  cases h
  rfl

variable (hk : k < 32)
include hk

theorem lane_vadd_int32 (h : vectorRow (.vadd g vd a b r) = some row) : lane 32 k (row.value 1 [x, y] s) = lane 32 k x + lane 32 k y := by
  rw [lane_vecBy_int32 h _ s hk, ofNat_exactly_int32, BitVec.ofInt_add, BitVec.ofInt_toInt, BitVec.ofInt_toInt]
  rfl

theorem lane_vsub_int32 (h : vectorRow (.vsub g vd a b r) = some row) : lane 32 k (row.value 1 [x, y] s) = lane 32 k x - lane 32 k y := by
  rw [lane_vecBy_int32 h _ s hk, ofNat_exactly_int32, Int.sub_eq_add_neg, BitVec.ofInt_add, BitVec.ofInt_neg, BitVec.ofInt_toInt, BitVec.ofInt_toInt, ← BitVec.sub_eq_add_neg]
  rfl

theorem lane_vmullo_int32 (h : vectorRow (.vmullo g vd a b) = some row) : lane 32 k (row.value 1 [x, y] s) = lane 32 k x * lane 32 k y := by
  rw [lane_vecBy_int32 h _ s hk]
  apply BitVec.eq_of_toNat_eq
  simp [BitVec.toNat_mul]

theorem lane_vand_int32 (h : vectorRow (.vand g vd a b) = some row) : lane 32 k (row.value 1 [x, y] s) = lane 32 k x &&& lane 32 k y := by
  rw [lane_vecBy_int32 h _ s hk]
  simp [BitVec.ofNat_and]

theorem lane_vor_int32 (h : vectorRow (.vor g vd a b) = some row) : lane 32 k (row.value 1 [x, y] s) = lane 32 k x ||| lane 32 k y := by
  rw [lane_vecBy_int32 h _ s hk]
  simp [BitVec.ofNat_or]

theorem lane_vxor_int32 (h : vectorRow (.vxor g vd a b) = some row) : lane 32 k (row.value 1 [x, y] s) = lane 32 k x ^^^ lane 32 k y := by
  rw [lane_vecBy_int32 h _ s hk]
  simp [BitVec.ofNat_xor]

theorem lane_vnot_int32 (h : vectorRow (.vnot g vd a) = some row) : lane 32 k (row.value 1 [x] s) = ~~~(lane 32 k x) := by
  rw [lane_vecBy_int32 h _ s hk]
  apply BitVec.eq_of_toNat_eq
  rw [BitVec.toNat_not, BitVec.toNat_ofNat]
  exact Nat.mod_eq_of_lt (by simp only [tyWidth_int32]; omega)

theorem lane_vshl_int32 (h : vectorRow (.vshl g vd a n) = some row) : lane 32 k (row.value 1 [x] s) = lane 32 k x <<< n.toNat := by
  rw [lane_vecBy_int32 h _ s hk]
  apply BitVec.eq_of_toNat_eq
  simp [Nat.shiftLeft_eq]

theorem lane_vshr_int32 (h : vectorRow (.vshr g vd a n) = some row) : lane 32 k (row.value 1 [x] s) = lane 32 k x >>> n.toNat := by
  rw [lane_vecBy_int32 h _ s hk, ← Nat.shiftRight_eq_div_pow, ← BitVec.toNat_ushiftRight, BitVec.ofNat_toNat, BitVec.setWidth_eq]
  rfl

theorem lane_vsar_int32 (h : vectorRow (.vsar g vd a n) = some row) : lane 32 k (row.value 1 [x] s) = (lane 32 k x).sshiftRight n.toNat := by
  rw [lane_vecBy_int32 h _ s hk, tyWidth_int32, ofNat_intCode, sInt_toNat, ofInt_ediv_two_pow]
  rfl

theorem lane_vrshr_int32 (h : vectorRow (.vrshr g vd a n) = some row) (hn : n ≠ 0#6) :
    (lane 32 k (row.value 1 [x] s)).toInt = ((lane 32 k x).toInt + 2 ^ (n.toNat - 1)) / 2 ^ n.toNat := by
  have hpos : n.toNat ≠ 0 := fun h0 => hn (BitVec.eq_of_toNat_eq h0)
  rw [lane_vecBy_int32 h _ s hk, if_neg hn, tyWidth_int32, ofNat_intCode, sInt_toNat, toInt_ofInt_rounded _ hpos]
  rfl

theorem lane_vrshr_zero_int32 (h : vectorRow (.vrshr g vd a 0#6) = some row) : lane 32 k (row.value 1 [x] s) = lane 32 k x := by
  rw [lane_vecBy_int32 h _ s hk, if_pos rfl]
  simp

theorem lane_vrotl_int32 (h : vectorRow (.vrotl g vd a n) = some row) : lane 32 k (row.value 1 [x] s) = lane 32 ((k + n.toNat) % 32) x := by
  cases h
  have hmod : (k + n.toNat) % 32 < 32 := Nat.mod_lt _ (by decide)
  rw [lane_ofCodes_int32 (c := (lane 32 ((k + n.toNat) % 32) x).toNat) (by simp) (by simp [hk, hmod]), BitVec.ofNat_toNat, BitVec.setWidth_eq]

end Forms

/-- A landing of selected lanes replaces exactly the bits of its mask (R36, R142). -/
theorem blend_getLsbD (m old new : Row) (k : Nat) : (blend m old new).getLsbD k = if m.getLsbD k then new.getLsbD k else old.getLsbD k := by
  by_cases hk : k < 1024
  · simp only [blend, BitVec.getLsbD_or, BitVec.getLsbD_and, BitVec.getLsbD_not, hk, decide_true, Bool.true_and]
    cases m.getLsbD k <;> simp
  · simp [BitVec.getLsbD_of_ge _ k (Nat.le_of_not_lt hk)]

/-- Settles O30: each form by the lemma about its lanes. -/
theorem integerLanesAreModular : Obligations.IntegerLanesAreModular := by
  unfold Obligations.IntegerLanesAreModular
  refine ⟨fun g r vd a b x y s k hk => ?_, fun g vd a n x s k hk => ?_, blend_getLsbD⟩
  · exact ⟨fun _ => lane_vadd_int32 hk, fun _ => lane_vsub_int32 hk, fun _ => lane_vmullo_int32 hk, fun _ => lane_vand_int32 hk, fun _ => lane_vor_int32 hk,
      fun _ => lane_vxor_int32 hk, fun _ => lane_vnot_int32 hk, fun _ h => value_vmov h 1⟩
  · exact ⟨fun _ => lane_vshl_int32 hk, fun _ => lane_vshr_int32 hk, fun _ => lane_vsar_int32 hk, fun _ => lane_vrshr_int32 hk,
      fun _ => lane_vrshr_zero_int32 hk, fun _ => lane_vrotl_int32 hk⟩

end Sys2Proof.Machine

/-! SUPPORT. Parts of bytes in memory, and what shared operations on every core or on one place in HBM do. -/

namespace Sys2Proof.Machine

/-! ### Parts of bytes in memory -/

theorem Memory.bytes_drop (m : Memory) (a i n : Nat) : (Memory.bytes m a (i + n)).drop i = Memory.bytes m (a + i) n := by
  induction i generalizing a with
  | zero => simp
  | succ i ih => rw [Nat.add_right_comm, Memory.bytes, List.drop_succ_cons, ih, Nat.add_right_comm, Nat.add_assoc]

theorem Memory.bytes_take (m : Memory) (a i n : Nat) : (Memory.bytes m a (i + n)).take i = Memory.bytes m a i := by
  induction i generalizing a with
  | zero => simp [Memory.bytes]
  | succ i ih => rw [Nat.add_right_comm, Memory.bytes, List.take_succ_cons, ih, Memory.bytes]

theorem Memory.bytes_length (m : Memory) (a n : Nat) : (Memory.bytes m a n).length = n := by
  induction n generalizing a with
  | zero => rfl
  | succ n ih => rw [Memory.bytes, List.length_cons, ih]

/-- Word k of n words in memory. -/
theorem Memory.word_of_bytes (m : Memory) (a : Nat) {k n : Nat} (h : k < n) :
    BitVec.ofNat 64 (leNat (((Memory.bytes m a (8 * n)).drop (8 * k)).take 8)) = Memory.word m (a + 8 * k) := by
  obtain ⟨j, rfl⟩ := Nat.exists_eq_add_of_lt h
  rw [show 8 * (k + j + 1) = 8 * k + (8 + 8 * j) by omega, Memory.bytes_drop, Memory.bytes_take, Memory.word, Memory.le]

theorem Memory.store_append (m : Memory) (a : Nat) (x y : Bytes) : Memory.store m a (x ++ y) = Memory.store (Memory.store m a x) (a + x.length) y := by
  induction x generalizing m a with
  | nil => rfl
  | cons b t ih => rw [List.cons_append, Memory.store, ih, Memory.store, List.length_cons, Nat.add_assoc, Nat.add_comm 1]

/-- A word stored last reads back. -/
theorem Memory.word_store_append (m : Memory) (a : Nat) (x : Bytes) (w : Word) :
    Memory.word (Memory.store m a (x ++ wordBytes w)) (a + x.length) = w := by
  rw [Memory.store_append, Memory.word_store]

/-! ### An entry of the handle table -/

@[simp] theorem State.writeEntry_hbm (s : State) (a : Nat) (e : HEntry) : (s.writeEntry a e).hbm = Memory.store s.hbm a e.bytes := by simp only [State.writeEntry]
@[simp] theorem State.writeEntry_peer (s : State) (a : Nat) (e : HEntry) : (s.writeEntry a e).peer = s.peer := by simp only [State.writeEntry]
@[simp] theorem State.writeEntry_cores (s : State) (a : Nat) (e : HEntry) : (s.writeEntry a e).cores = s.cores := by simp only [State.writeEntry]
@[simp] theorem State.writeEntry_ctx (s : State) (a : Nat) (e : HEntry) : (s.writeEntry a e).ctx = s.ctx := by simp only [State.writeEntry]

/-! ### Operations on every core -/

/-- What a change to every core leaves alone in each core, it leaves alone in the state. -/
theorem State.core_mapCores {α : Type} (v : Core → α) {f : Nat → Core → Core} (hf : ∀ k c, v (f k c) = v c) (s : State) (n : Nat) :
    v ((s.mapCores f).core n) = v (s.core n) := by
  refine State.foldl_keeps (f := fun t (e : Nat × Core) => t.modCore e.1 (f e.1)) (fun t => v (t.core n)) (fun t e => ?_) s.cores s
  by_cases hn : n = e.1
  · rw [hn, State.core_modCore_self, hf]
  · rw [State.core_modCore_other _ _ hn]

theorem State.mapCores_frame (s : State) (f : Nat → Core → Core) : ((s.mapCores f).hbm, (s.mapCores f).peer, (s.mapCores f).ctx) = (s.hbm, s.peer, s.ctx) :=
  State.foldl_keeps (f := fun t (e : Nat × Core) => t.modCore e.1 (f e.1)) (fun t => (t.hbm, t.peer, t.ctx)) (fun _ _ => rfl) s.cores s

/-- A generation that changes leaves a core's handle registers and unfinished syllables alone (R275). -/
theorem State.core_staleSlot (s : State) (pn slot n : Nat) :
    ((s.staleSlot pn slot).core n).h = (s.core n).h ∧ ((s.staleSlot pn slot).core n).aops = (s.core n).aops := by
  have hcore := State.core_mapCores (fun c => (c.h, c.aops)) (f := fun _ c => if c.part = some pn then c.staleSlot slot else c)
    (fun _ c => by split <;> rfl) s n
  simp only [Prod.mk.injEq] at hcore
  exact hcore

/-- A generation that changes makes commands stale and leaves memory and the handle registers alone (R275). -/
theorem State.staleSlot_frame (s : State) (pn slot : Nat) :
    (s.staleSlot pn slot).hbm = s.hbm ∧ (s.staleSlot pn slot).peer = s.peer ∧ (s.staleSlot pn slot).me.h = s.me.h := by
  have hframe := s.mapCores_frame fun _ c => if c.part = some pn then c.staleSlot slot else c
  simp only [Prod.mk.injEq] at hframe
  obtain ⟨hhbm, hpeer, hctx⟩ := hframe
  have hctx' : (s.staleSlot pn slot).ctx = s.ctx := hctx
  refine ⟨hhbm, hpeer, ?_⟩
  rw [State.me, hctx']
  exact (s.core_staleSlot pn slot _).1

theorem State.eased_hbm (s t : State) (n : Nat) : (s.eased t n).hbm = t.hbm := by
  unfold State.eased
  split <;> rfl

/-- Ending a wait leaves a core's handle registers, unfinished syllables and race state alone (R35). -/
theorem State.core_eased (s t : State) (n : Nat) : ((s.eased t n).core n).h = (t.core n).h ∧ ((s.eased t n).core n).aops = (t.core n).aops ∧
    ((s.eased t n).core n).race = (t.core n).race := by
  obtain ⟨k, hcore, _⟩ := State.eased_self s t n
  rw [hcore]
  exact ⟨rfl, rfl, rfl⟩

/-- A release shows stores to a scope and leaves the cores and memory alone (R279). -/
theorem State.showScope_frame (s : State) (n scp : Nat) : (s.showScope n scp).cores = s.cores ∧ (s.showScope n scp).hbm = s.hbm := by
  rw [State.showScope, State.reveal_frame]
  exact ⟨rfl, rfl⟩

/-! ### One captured piece in HBM -/

/-- With every store seen everywhere, a read meets no release. -/
theorem State.reads_plain {s : State} (m space : Nat) (p : Place) (n : Nat) (acq : Option Nat) (h : s.order.veils = []) : s.reads m space p n acq = s := by
  simp [State.reads, State.relsSeen, h]

/-- Reading a piece in HBM is charged, and with every store seen everywhere nothing more (R280, R382). -/
theorem State.readsDone_hbm {s : State} (h : s.order.veils = []) (c pn : Nat) (p : Word) (a n : Nat) :
    s.readsDone c pn [(p, .hbm a, n)] = s.chargeKind pn 0 (Memory.bytes s.hbm a n) := by
  show (s.chargeKind pn 0 (s.seen c (.hbm a) n)).reads c (spaceOf p) (.hbm a) n none = _
  rw [State.reads_plain (s := s.chargeKind pn 0 _) _ _ _ _ _ h, State.seen_plain _ _ _ _ h]
  rfl

theorem State.readCaps_hbm {s : State} (h : s.order.veils = []) (c pn : Nat) (p : Word) (a n : Nat) :
    s.readCaps c pn [(p, .hbm a, n)] = Memory.bytes s.hbm a n := by
  show s.seen c (.hbm a) n ++ [] = _
  rw [State.seen_plain _ _ _ _ h, List.append_nil]
  rfl

theorem State.ways_hbm {s : State} {a n : Nat} (h : s.copied (.hbm a) n = false) (owner pn : Nat) (p : Word) :
    s.ways owner pn [(p, .hbm a, n)] = .clear := by
  have hway : s.way owner (.hbm a) n = .clear := if_neg (by simp [h])
  simp only [State.ways, State.landsAt, hway]

end Sys2Proof.Machine

/-! PROOFS. The check of a handle value, HLD and HFREE (the first part of O46). -/

namespace Sys2Proof.Machine

/-! ### The check of a handle value (R271) -/

theorem State.handleEntry_invalid {v : Word} (h : v = 0#64 ∨ handleSlot v = 0) (s : State) (pn : Nat) : s.handleEntry pn v = .error 0x1B := by
  unfold State.handleEntry
  refine if_pos ?_
  obtain h | h := h
  · exact .inl h
  · exact .inr (.inl h)

/-- A value that may be a handle is judged by its table entry. -/
theorem State.handleEntry_entry {s : State} {pn a : Nat} {v : Word} (h0 : v ≠ 0#64) (hslot : handleSlot v ≠ 0)
    (hle : handleSlot v ≤ (s.part pn).idx 0x418 % 65536) (hlow : v.toNat % 2 ^ 28 = 0) (hat : s.htSlot pn (handleSlot v) = .ok a) :
    s.handleEntry pn v = if s.readBad (.hbm a) 32 then .error 0x20 else if v = (s.readEntry a).cur then .ok (a, s.readEntry a) else .error 0x1C := by
  unfold State.handleEntry
  have hvalid : ¬ (v = 0#64 ∨ handleSlot v = 0 ∨ (s.part pn).idx 0x418 % 65536 < handleSlot v ∨ v.toNat % 2 ^ 28 ≠ 0) := by
    push Not
    exact ⟨h0, hslot, hle, hlow⟩
  dsimp only
  rw [if_neg hvalid, hat]

/-! ### HLD and HFREE (R273) -/

theorem exec_hld {g h : BitVec 4} {s1 : BitVec 5} {s : State} (hg : s.guardC g = true) (hr : s.regsOk [s1] = .ok) :
    exec (.hld g h s1) s = .next (s.modMe fun c => { c with h := sset 0#64 h.toNat (s.reg s1) c.h }) := by
  show execHld g h s1 s = _
  rw [execHld, if_pos hg, hr]
  rfl

/-- The table entry of a handle at an address, freed: no region, and the next generation (R273). -/
def State.entryFreed (s : State) (pn a : Nat) (v : Word) : State :=
  (s.writeEntry a { vis := 0#64, size := 0, shadow := 0#64, cur := handleOf (handleGen v + 1) 0 0 }).modPart pn
    fun p => { p with shadows := p.shadows.filter fun x => x.1 != handleSlot v }

/-- The bytes of an entry that is no handle's. -/
theorem HEntry.bytes_freed (v : Word) : ({ vis := 0#64, size := 0, shadow := 0#64, cur := v } : HEntry).bytes = List.replicate 24 0#8 ++ wordBytes v := by
  have hzero : wordBytes 0#64 ++ leBytes 8 0 ++ wordBytes 0#64 = List.replicate 24 0#8 := by decide
  rw [HEntry.bytes, hzero]

theorem State.entryFreed_hbm (s : State) (pn a : Nat) (v : Word) :
    (s.entryFreed pn a v).hbm = Memory.store s.hbm a (List.replicate 24 0#8 ++ wordBytes (handleOf (handleGen v + 1) 0 0)) := by
  rw [State.entryFreed, State.modPart_hbm, State.writeEntry_hbm, HEntry.bytes_freed]

theorem State.entryFreed_peer (s : State) (pn a : Nat) (v : Word) : (s.entryFreed pn a v).peer = s.peer := by
  rw [State.entryFreed, State.modPart_peer, State.writeEntry_peer]

theorem State.entryFreed_me (s : State) (pn a : Nat) (v : Word) : (s.entryFreed pn a v).me = s.me := by
  rw [State.entryFreed, State.me, State.core, State.modPart_cores, State.modPart_ctx, State.writeEntry_cores, State.writeEntry_ctx, State.me, State.core]

section HFree
variable {g h : BitVec 4} {pn : Nat} {s : State} (hg : s.guardC g = true) (hp : s.me.part = some pn)
  (hcopied : s.tableCopied pn (handleSlot (sget 0#64 h.toNat s.me.h)) = false)
include hg hp hcopied

theorem exec_hfree_error {k : Nat} (he : s.handleEntry pn (sget 0#64 h.toNat s.me.h) = .error k) :
    exec (.hfree g h) s = .next (s.raise (s.handleCause pn (sget 0#64 h.toNat s.me.h) k)) := by
  show execHfree g h s = _
  simp only [execHfree, if_pos hg, hp, hcopied, he, Bool.false_eq_true, if_false]

theorem exec_hfree_ok {a : Nat} {e : HEntry} (he : s.handleEntry pn (sget 0#64 h.toNat s.me.h) = .ok (a, e)) :
    exec (.hfree g h) s = .next ((s.entryFreed pn a (sget 0#64 h.toNat s.me.h)).staleSlot pn (handleSlot (sget 0#64 h.toNat s.me.h))) := by
  show execHfree g h s = _
  simp only [execHfree, if_pos hg, hp, hcopied, he, Bool.false_eq_true, if_false]
  rfl

/-- HFREE clears the entry, keeps the next generation, and leaves the windows and the handle registers. -/
theorem exec_hfree_clears {a : Nat} {e : HEntry} (he : s.handleEntry pn (sget 0#64 h.toNat s.me.h) = .ok (a, e)) :
    ∃ t, exec (.hfree g h) s = .next t ∧
      t.hbm = Memory.store s.hbm a (List.replicate 24 0#8 ++ wordBytes (handleOf (handleGen (sget 0#64 h.toNat s.me.h) + 1) 0 0)) ∧ t.peer = s.peer ∧
      t.me.h = s.me.h := by
  refine ⟨_, exec_hfree_ok hg hp hcopied he, ?_⟩
  generalize sget 0#64 h.toNat s.me.h = v
  obtain ⟨hhbm, hpeer, hme⟩ := (s.entryFreed pn a v).staleSlot_frame pn (handleSlot v)
  rw [hhbm, hpeer, State.entryFreed_hbm, State.entryFreed_peer]
  exact ⟨rfl, rfl, hme.trans (by rw [State.entryFreed_me])⟩

end HFree

end Sys2Proof.Machine

/-! PROOFS. PUBLISH at issue and as it goes on (the second part of O46). -/

namespace Sys2Proof.Machine

/-! ### PUBLISH at issue (R274) -/

/-- PUBLISH of a handle with a shadow stands unfinished and has released nothing. -/
theorem exec_publish_stands {g h : BitVec 4} {scp : BitVec 3} {pn a : Nat} {e : HEntry} {s : State} (hg : s.guardC g = true) (hp : s.me.part = some pn)
    (hcopied : s.tableCopied pn (handleSlot (sget 0#64 h.toNat s.me.h)) = false) (hchk : s.publishChk pn (sget 0#64 h.toNat s.me.h) = .ok (a, e)) :
    ∃ t o, exec (.publish g h scp) s = .next t ∧ t.me.aops = s.me.aops ++ [o] ∧ o.addr = sget 0#64 h.toNat s.me.h ∧ o.begun = false ∧ o.phase = .sync ∧
      t.me.race = s.me.race ∧ t.hbm = s.hbm := by
  have hexec : exec (.publish g h scp) s = .next (s.pushSync (.publish g h scp) (sget 0#64 h.toNat s.me.h) 0#64 0#64 false) := by
    show execPublish g h scp s = _
    simp only [execPublish, if_pos hg, hp, hcopied, hchk, Bool.false_eq_true, if_false]
  refine ⟨_, s.syncRecord (.publish g h scp) (sget 0#64 h.toNat s.me.h), hexec, ?_, rfl, rfl, rfl, ?_, rfl⟩
  · rw [State.me_pushSync]
  · rw [State.me_pushSync]

/-! ### What the swap leaves in the table (R274) -/

/-- The table entry of a published handle: the shadow is visible, none is left, and the generation has counted; the old region's pages are in quarantine. -/
def State.entrySwapped (s : State) (pn a : Nat) (v : Word) (e : HEntry) : State :=
  let w := handleOf (handleGen v + 1) (handleSlot v) 2
  let pages := s.pagesAt pn e.vis e.size
  let t := s.writeEntry a { vis := e.shadow, size := e.size, shadow := 0#64, cur := w }
  t.modPart pn fun p =>
    { p with quarantine := p.quarantine ++ pages.map fun g => (g, t.qseq, some (handleSlot v, handleGen w))
             shadows := (handleSlot v, handleGen w, pages.length, e.vis) :: p.shadows.filter fun x => x.1 != handleSlot v }

theorem State.entrySwapped_hbm (s : State) (pn a : Nat) (v : Word) (e : HEntry) :
    (s.entrySwapped pn a v e).hbm = Memory.store s.hbm a (wordBytes e.shadow ++ leBytes 8 e.size ++ wordBytes 0#64 ++
      wordBytes (handleOf (handleGen v + 1) (handleSlot v) 2)) := by
  rw [State.entrySwapped, State.modPart_hbm, State.writeEntry_hbm, HEntry.bytes]

theorem State.entrySwapped_core (s : State) (pn a : Nat) (v : Word) (e : HEntry) (n : Nat) : (s.entrySwapped pn a v e).core n = s.core n := by
  rw [State.entrySwapped, State.core_of_cores (State.modPart_cores ..), State.core_of_cores (State.writeEntry_cores ..)]

/-- No command of any core or saved context writes the shadow of a slot. -/
theorem State.shadowWritten_none {s : State} {slot : Nat} (hcores : ∀ c ∈ s.cores, ∀ m ∈ c.2.allCmds, m.writesSlot slot = false)
    (himages : ∀ r ∈ s.groups, ∀ im ∈ r.images, ∀ m ∈ im.2.allCmds, m.writesSlot slot = false) (pn : Nat) : s.shadowWritten pn slot = false := by
  simp only [State.shadowWritten, Bool.or_eq_false_iff, List.any_eq_false, Bool.and_eq_true, not_and, Bool.not_eq_true]
  exact ⟨fun c hc _ => hcores c hc, fun r hr _ im him => by simpa using himages r hr im him⟩

/-! ### PUBLISH_SWAP -/

section Swap
variable {n pn a : Nat} {g h : BitVec 4} {scp : BitVec 3} {e : HEntry} {s : State} {o : AOp} (haops : (s.core n).aops = [o]) (hi : o.instr = .publish g h scp)
  (hpart : (s.core n).part = some pn) (hruns : s.opRuns n o.iseq = true) (hcopied : s.tableCopied pn (handleSlot o.addr) = false)
  (hchk : s.publishChk pn o.addr = .ok (a, e))

include haops hi hpart hruns in
theorem exec_publishSwap : exec (.publishSwap n) s = .next (s.eased (s.publishSwap n pn o h.toNat) n) := by
  show execPublishSwap n s = _
  simp [execPublishSwap, haops, hi, hpart, hruns]

include haops hi hcopied hchk in
theorem State.publishSwap_releases (hb : o.begun = false) (k : Nat) : s.publishSwap n pn o k =
    (s.showScope n scp.toNat).modCore n fun c => ({ c with race := c.race.release } : Core).modAop o.iseq fun o => { o with begun := true } := by
  have hearlier : (s.core n).earlier o.iseq = [] := by simp [Core.earlier, haops]
  simp [State.publishSwap, hcopied, hchk, hb, hearlier, hi]

include hcopied hchk in
theorem State.publishSwap_swaps (hb : o.begun = true) (hw : s.shadowWritten pn (handleSlot o.addr) = false) (k : Nat) : s.publishSwap n pn o k =
    ((s.entrySwapped pn a o.addr e).staleSlot pn (handleSlot o.addr)).modCore n fun c =>
      ({ c with h := sset 0#64 k (handleOf (handleGen o.addr + 1) (handleSlot o.addr) 2) c.h } : Core).dropAop o.iseq := by
  simp only [State.publishSwap, hcopied, hchk, hb, hw, Bool.not_true, Bool.false_eq_true, if_false]
  rfl

include haops hi hpart hruns hcopied hchk

/-- With no earlier access pending, PUBLISH releases and begins, and stores nothing. -/
theorem exec_publishSwap_releases (hb : o.begun = false) :
    ∃ t, exec (.publishSwap n) s = .next t ∧ (t.core n).aops = [{ o with begun := true }] ∧
      (t.core n).race.e = min ((s.core n).race.e + 1) (2 ^ 40 - 1) ∧ t.hbm = s.hbm := by
  refine ⟨_, exec_publishSwap haops hi hpart hruns, ?_⟩
  rw [State.publishSwap_releases haops hi hcopied hchk hb]
  obtain ⟨hcores, hhbm⟩ := s.showScope_frame n scp.toNat
  obtain ⟨-, ha, hr⟩ := s.core_eased ((s.showScope n scp.toNat).modCore n fun c => ({ c with race := c.race.release } : Core).modAop o.iseq fun o => { o with begun := true }) n
  rw [ha, hr, State.eased_hbm, State.core_modCore_self, State.core_of_cores hcores]
  exact ⟨Core.modAop_single haops _, rfl, hhbm⟩

/-- With no command writing the slot, the swap stores the new entry, updates the register and completes. -/
theorem exec_publishSwap_swaps (hb : o.begun = true) (hw : s.shadowWritten pn (handleSlot o.addr) = false) :
    ∃ t, exec (.publishSwap n) s = .next t ∧ (t.core n).aops = [] ∧ sget 0#64 h.toNat (t.core n).h = handleOf (handleGen o.addr + 1) (handleSlot o.addr) 2 ∧
      t.hbm = Memory.store s.hbm a (wordBytes e.shadow ++ leBytes 8 e.size ++ wordBytes 0#64 ++
        wordBytes (handleOf (handleGen o.addr + 1) (handleSlot o.addr) 2)) := by
  refine ⟨_, exec_publishSwap haops hi hpart hruns, ?_⟩
  rw [State.publishSwap_swaps hcopied hchk hb hw]
  generalize hu : (s.entrySwapped pn a o.addr e).staleSlot pn (handleSlot o.addr) = u
  have hcore := (s.entrySwapped pn a o.addr e).core_staleSlot pn (handleSlot o.addr) n
  have hframe := (s.entrySwapped pn a o.addr e).staleSlot_frame pn (handleSlot o.addr)
  rw [hu] at hcore hframe
  obtain ⟨hh, ha, -⟩ := s.core_eased (u.modCore n fun c =>
    ({ c with h := sset 0#64 h.toNat (handleOf (handleGen o.addr + 1) (handleSlot o.addr) 2) c.h } : Core).dropAop o.iseq) n
  have haops' : (u.core n).aops = [o] := by rw [hcore.2, State.entrySwapped_core, haops]
  rw [ha, hh, State.eased_hbm, State.core_modCore_self, ← State.entrySwapped_hbm s pn, ← hframe.1]
  exact ⟨by simp [Core.dropAop, haops'], sget_sset_self .., rfl⟩

end Swap

end Sys2Proof.Machine

/-! PROOFS. HNEW with its descriptor in HBM (the third part of O46), and O46. -/

namespace Sys2Proof.Machine

/-! ### What HNEW makes of a descriptor in HBM (R273) -/

/-- The value that HNEW gives: 0 when no slot is free, otherwise generation, slot and kind. -/
def State.hnewValue (s : State) (e : HEntry) : Option (Nat × Nat) → Word
  | none => 0#64
  | some (k, b) => handleOf (handleGen (s.readEntry b).cur) k (if e.shadow = 0#64 then 1 else 2)

/-- Memory after HNEW has filled the slot it takes, if one is free. -/
def State.hnewTable (s : State) (e : HEntry) (slot : Option (Nat × Nat)) : Memory :=
  match slot with
  | none => s.hbm
  | some (_, b) => Memory.store s.hbm b ({ e with cur := s.hnewValue e slot } : HEntry).bytes

theorem State.writeCaps_hbm (s : State) (n pn : Nat) (p : Word) (a k : Nat) (d : Bytes) :
    (s.writeCaps n pn [(p, .hbm a, k)] d).hbm = Memory.store s.hbm a (d.take k) ∧ (s.writeCaps n pn [(p, .hbm a, k)] d).ctx = s.ctx := ⟨rfl, rfl⟩

/-- HNEW fills its slot, writes its value behind the descriptor's first three words, and updates its register. -/
theorem State.hnewPut_hbm (s : State) (n pn : Nat) (o : AOp) (h : BitVec 4) (p : Word) (a : Nat) (d : Bytes) (e : HEntry) (slot : Option (Nat × Nat)) :
    s.hnewPut n pn o h [(p, .hbm a, 32)] d e slot =
      (({ s with hbm := s.hnewTable e slot } : State).writeCaps n pn [(p, .hbm a, 32)] (d.take 24 ++ wordBytes (s.hnewValue e slot))).modCore n
        fun c => { c with h := sset 0#64 h.toNat (s.hnewValue e slot) c.h } := by
  cases slot with
  | none => rfl
  | some x => rfl

/-- The register and the descriptor's fourth word have the value. -/
theorem State.hnewPut_value {s : State} {d : Bytes} (hd : (d.take 24).length = 24) (pn : Nat) (o : AOp) (h : BitVec 4) (p : Word) (a : Nat) (e : HEntry)
    (slot : Option (Nat × Nat)) : sget 0#64 h.toNat (s.hnewPut s.ctx.core pn o h [(p, .hbm a, 32)] d e slot).me.h = s.hnewValue e slot ∧
      Memory.word (s.hnewPut s.ctx.core pn o h [(p, .hbm a, 32)] d e slot).hbm (a + 24) = s.hnewValue e slot := by
  rw [State.hnewPut_hbm]
  generalize s.hnewValue e slot = v
  obtain ⟨hhbm, hctx⟩ := ({ s with hbm := s.hnewTable e slot } : State).writeCaps_hbm s.ctx.core pn p a 32 (d.take 24 ++ wordBytes v)
  constructor
  · rw [State.me, State.modCore_ctx, hctx, State.core_modCore_self, sget_sset_self]
  · have hlen : (d.take 24 ++ wordBytes v).length = 32 := by rw [List.length_append, hd, wordBytes, leBytes_length]
    rw [State.modCore_hbm, hhbm, List.take_of_length_le hlen.le]
    have hword := Memory.word_store_append (s.hnewTable e slot) a (d.take 24) v
    rw [hd] at hword
    exact hword

/-- The descriptor's words, read in HBM with every store seen everywhere. -/
theorem State.hnewEntry_hbm (s : State) (a : Nat) :
    let w (k : Nat) : Word := BitVec.ofNat 64 (leNat (((Memory.bytes s.hbm a 32).drop (8 * k)).take 8))
    ({ vis := w 0, size := (w 1).toNat, shadow := w 2, cur := w 3 } : HEntry) = s.readEntry a := by
  have hword {k : Nat} (hk : k < 4) := Memory.word_of_bytes s.hbm a hk
  intro w
  simp only [w, hword (k := 0) (by decide), hword (k := 1) (by decide), hword (k := 2) (by decide), hword (k := 3) (by decide), State.readEntry]
  rfl

/-- An HNEW whose descriptor nothing holds goes on at once. -/
theorem State.hnewGo_hbm {u : State} {n pn a : Nat} {o : AOp} {p : Word} {slot : Option (Nat × Nat)} (hcaps : o.caps = [(p, .hbm a, 32)])
    (hbad : u.badByte pn [(p, .hbm a, 32)] = none) (hveils : u.order.veils = []) (hfresh : (u.readEntry a).fresh = true)
    (hcopied : u.copied (.hbm a) 32 = false) (hheld : u.descHeld n pn o.iseq [(p, .hbm a, 32)] = false)
    (hslot : u.freeSlot pn 1 ((u.part pn).idx 0x418 % 65536) = .go slot) (h : BitVec 4) :
    u.hnewGo n pn o h = .go ((u.chargeKind pn 0 (Memory.bytes u.hbm a 32)).hnewPut n pn o h [(p, .hbm a, 32)] (Memory.bytes u.hbm a 32) (u.readEntry a) slot) := by
  unfold State.hnewGo
  rw [hcaps, State.ways_hbm hcopied]
  dsimp only
  rw [hheld, if_neg Bool.false_ne_true, hbad]
  dsimp only
  rw [State.readCaps_hbm hveils, State.hnewEntry_hbm, hfresh, hslot, State.readsDone_hbm hveils]
  rfl

/-- The syllable's record, with its captured descriptor. -/
def State.hnewRecord (u : State) (i : Instr) (p : Word) (cs : List Cap) : AOp :=
  { iseq := u.ctx.iseq, word := u.ctx.word, instr := i, phase := .sync, addr := p, caps := cs }

theorem exec_hnew_goes {g h : BitVec 4} {s1 : BitVec 5} {pn : Nat} {s u t : State} {cs : List Cap} (hg : s.guardC g = true) (hr : s.regsOk [s1] = .ok)
    (hp : s.me.part = some pn) (hres : ((piecesOf (s.reg s1, 32)).any fun x => s.resolveCopied s.ctx.core x.1) = false)
    (hcap : s.hnewCapture s.ctx.core pn (s.reg s1) = .ok (u, cs))
    (hgo : u.hnewGo u.ctx.core pn (u.hnewRecord (.hnew g h s1) (s.reg s1) cs) h = .go t) : exec (.hnew g h s1) s = .next t := by
  unfold State.hnewRecord at hgo
  show execHnew g h s1 s = _
  simp only [execHnew, if_pos hg, hr, State.gate_ok, hp, hres, Bool.false_eq_true, if_false, hcap, hgo]

/-- HNEW of a good descriptor in HBM gives the register and the descriptor's fourth word its value. -/
theorem exec_hnew_hbm {g h : BitVec 4} {s1 : BitVec 5} {pn a : Nat} {slot : Option (Nat × Nat)} {s u : State} (hg : s.guardC g = true)
    (hr : s.regsOk [s1] = .ok) (hp : s.me.part = some pn) (hres : ((piecesOf (s.reg s1, 32)).any fun x => s.resolveCopied s.ctx.core x.1) = false)
    (hcap : s.hnewCapture s.ctx.core pn (s.reg s1) = .ok (u, [(s.reg s1, .hbm a, 32)])) (hctx : u.ctx = s.ctx)
    (hbad : u.badByte pn [(s.reg s1, .hbm a, 32)] = none) (hveils : u.order.veils = []) (hfresh : (u.readEntry a).fresh = true)
    (hcopied : u.copied (.hbm a) 32 = false) (hheld : u.descHeld s.ctx.core pn s.ctx.iseq [(s.reg s1, .hbm a, 32)] = false)
    (hslot : u.freeSlot pn 1 ((u.part pn).idx 0x418 % 65536) = .go slot) :
    ∃ t v, exec (.hnew g h s1) s = .next t ∧ sget 0#64 h.toNat t.me.h = v ∧ Memory.word t.hbm (a + 24) = v ∧ (slot = none → v = 0#64) ∧
      (∀ k b, slot = some (k, b) → v = handleOf (handleGen (u.readEntry b).cur) k (if (u.readEntry a).shadow = 0#64 then 1 else 2)) := by
  rw [← hctx] at hheld
  refine ⟨_, u.hnewValue (u.readEntry a) slot, exec_hnew_goes hg hr hp hres hcap (State.hnewGo_hbm rfl hbad hveils hfresh hcopied hheld hslot h), ?_⟩
  have hd : ((Memory.bytes u.hbm a 32).take 24).length = 24 := by rw [List.length_take, Memory.bytes_length]; rfl
  obtain ⟨hreg, hword⟩ := State.hnewPut_value (s := u.chargeKind pn 0 (Memory.bytes u.hbm a 32)) hd pn (u.hnewRecord (.hnew g h s1) (s.reg s1) [(s.reg s1, .hbm a, 32)]) h
    (s.reg s1) a (u.readEntry a) slot
  refine ⟨hreg, hword, ?_, ?_⟩
  · rintro rfl
    rfl
  · rintro k b rfl
    rfl

/-- Settles O46, clause by clause: HLD, HNEW, HFREE, PUBLISH at issue, its release and its swap, and the checks of a handle value. -/
theorem handlesComplete : Obligations.HandlesComplete := by
  unfold Obligations.HandlesComplete
  refine ⟨fun g h s1 s hg hr => exec_hld hg hr, ?_, fun g h pn a e s hg hp hcopied he => exec_hfree_clears hg hp hcopied he,
    fun g h pn k s hg hp hcopied he => exec_hfree_error hg hp hcopied he,
    fun g h scp pn a e s hg hp hcopied hchk => exec_publish_stands hg hp hcopied hchk,
    fun n pn a g h scp e s o haops hi hpart hruns hb hcopied hchk => exec_publishSwap_releases haops hi hpart hruns hcopied hchk hb, ?_,
    fun pn v s hv => State.handleEntry_invalid hv s pn, ?_⟩
  · intro g h s1 pn a slot s u hg hr hp hres hcap hctx hbad hveils hfresh hcopied hheld hslot
    exact exec_hnew_hbm hg hr hp hres hcap hctx hbad hveils hfresh hcopied hheld hslot
  · intro n pn a g h scp e s o haops hi hpart hruns hb hcopied hchk hcores himages
    exact exec_publishSwap_swaps haops hi hpart hruns hcopied hchk hb (State.shadowWritten_none hcores himages pn)
  · intro pn a v s h0 hslot hle hlow hat
    rw [State.handleEntry_entry h0 hslot hle hlow hat]
    refine ⟨fun hbad => by rw [if_pos hbad], fun hgood hcur => ?_⟩
    rw [hgood, if_neg Bool.false_ne_true, if_neg (Ne.symm hcur)]

end Sys2Proof.Machine

/-! PROOFS. The chart turn of a group, and the issue of a bundle in a tick (O7). -/

namespace Sys2Proof.Machine

/-! ### A chart turn -/

/-- The turn of a chart whose clock runs is one tick of its group (R146). -/
theorem State.chartTurn_ticks (ex : Instr → State → Result) {s : State} {num : Nat} {g : Grp} (hg : s.grp? num = some g) (hstat : g.status = .running)
    (hslip : g.slip = none) (htherm : s.power.therm = false) (hclock : g.clock = true) : s.chartTurn ex num = s.chartTick ex g := by
  simp [State.chartTurn, hg, hstat, hslip, htherm, hclock]

/-- A slip or a thermal trip holds the clock of a chart (R146, R380). -/
theorem State.chartTurn_held (ex : Instr → State → Result) {s : State} {num : Nat} {g : Grp} (hg : s.grp? num = some g)
    (hheld : g.slip.isSome = true ∨ s.power.therm = true) : s.chartTurn ex num = .next s := by
  obtain hslip | htherm := hheld
  · simp [State.chartTurn, hg, hslip]
  · simp [State.chartTurn, hg, htherm]

/-! ### The issue of a bundle in a tick -/

/-- A core is to issue at a tick: its stream goes on, its next issue tick has come, and it waits for no ALIGN and no target. -/
structure Core.ToIssue (c : Core) : Prop where
  exiting : c.x.k.exiting = false
  exited : c.x.k.exited = false
  due : c.x.next ≤ c.tick
  align : (c.x.align.isSome && !c.x.aligned) = false
  await : c.x.await = none

/-- A bundle that issues and asks for no stop makes the starts of its own tick (R142, R222). -/
theorem Tick.issue_issued (ex : Instr → State → Result) {look : Nat → Bool} {g : Grp} {n : Nat} {t : Tick} {u : State} (hc : (t.s.core n).ToIssue)
    (hx : t.s.issueX ex look g n = .issued u) (hstop : ∀ k code addr, u.ctx.ctl ≠ .stop k code addr) :
    Tick.issue ex look g n t = Tick.sameTick ex g.num n t.s u.ctx { t with s := { u with ctx := {} } } := by
  obtain ⟨hexiting, hexited, hdue, halign, hawait⟩ := hc
  have hnot : ¬ (t.s.core n).tick < (t.s.core n).x.next := Nat.not_lt.mpr hdue
  -- the effect of the bundle is no stop, by `hstop`, so it joins no trap
  simp only [Tick.issue, hexiting, hexited, hnot, halign, hawait, hx, decide_false, Bool.or_self, Bool.false_eq_true, if_false]

/-- A bundle that no row it sent may have found q7 full issues as it stands (R200). -/
theorem State.issueX_issued (ex : Instr → State → Result) {look : Nat → Bool} {s u : State} {g : Grp} {n : Nat}
    (hb : s.issueBundle ex .x n (s.core n).tick = .issued u) (htight : u.sentTight g n = false) : s.issueX ex look g n = .issued u := by
  simp [State.issueX, hb, htight]

/-- Settles O7: a chart turn by what holds the clock, then the issue of a core's bundle and the bundle itself. -/
theorem stepRunsChartTick : Obligations.StepRunsChartTick := by
  unfold Obligations.StepRunsChartTick
  refine ⟨?_, ?_, fun look s u g n => State.issueX_issued exec⟩
  · intro s adv num rest g hturns u hg
    rw [step_of_turn hturns]
    exact ⟨State.chartTurn_ticks exec hg, State.chartTurn_held exec hg⟩
  · intro look g n t u c hexiting hexited hdue halign hawait
    exact Tick.issue_issued exec ⟨hexiting, hexited, hdue, halign, hawait⟩

end Sys2Proof.Machine

/-! PROOFS. The control syllables of the B class complete with their effect (O24). -/

namespace Sys2Proof.Machine

section
variable {s : State} {g : BitVec 4}

/-! ### Marks (R184, R353) -/

theorem exec_trmark_x {tag : BitVec 32} {p : Nat} (hg : s.guardB g = true) (hp : s.me.part = some p) (hwho : s.ctx.who = .x) :
    exec (.trmark g tag) s = .next (s.trace p (2 * s.ctx.core) 1 tag.toNat (BitVec.ofNat 64 s.ctx.tick)) := by
  show execTrmark g tag s = _
  simp [execTrmark, hg, hp, hwho]

theorem exec_trmark_a {tag : BitVec 32} {p : Nat} (hg : s.guardB g = true) (hp : s.me.part = some p) (hwho : s.ctx.who = .a) :
    exec (.trmark g tag) s = .next (s.trace p (2 * s.ctx.core + 1) 1 tag.toNat (BitVec.ofNat 64 s.me.tick)) := by
  show execTrmark g tag s = _
  simp [execTrmark, hg, hp, hwho]

/-- A management core has no trace source (R349). -/
theorem exec_trmark_mgmt {tag : BitVec 32} (hwho : s.ctx.who = .mgmt) : exec (.trmark g tag) s = .next s := by
  show execTrmark g tag s = _
  simp [execTrmark, hwho]

theorem exec_fix_core {p : Nat} (hg : s.guardB g = true) (hp : s.me.part = some p) (hwho : s.ctx.who ≠ .mgmt) :
    exec (.fix g) s = .next (s.raiseFix (some p)) := by
  show execFix g s = _
  cases h : s.ctx.who with
  | mgmt => exact absurd h hwho
  | x => simp [execFix, hg, hp, h]
  | a => simp [execFix, hg, hp, h]

theorem exec_fix_mgmt (hg : s.guardB g = true) (hwho : s.ctx.who = .mgmt) : exec (.fix g) s = .next (s.raiseFix none) := by
  show execFix g s = _
  simp [execFix, hg, hwho]

/-! ### Effects left for the bundle's end (R37, R110, R176, R179, R183) -/

theorem exec_align_started (h : s.me.x.aligned = true) : exec (.align g) s = .next (s.leave .align) := by
  show execAlign g s = _
  simp [execAlign, h]

theorem exec_contour {id : BitVec 16} (hg : s.guardB g = true) : exec (.contour g id) s = .next (s.leave (.contour id.toNat)) := by
  show execContour g id s = _
  simp [execContour, hg]

theorem exec_wait {n : BitVec 24} (hg : s.guardB g = true) : exec (.wait g n) s = .next (s.leave (.wait n.toNat)) := by
  show execWait g n s = _
  simp [execWait, hg]

theorem exec_trap {code : BitVec 16} (hg : s.guardB g = true) : exec (.trap g code) s = .next (s.leave (.stop 0x40 code.toNat s.ctx.pc)) := by
  show execTrap g code s = _
  simp [execTrap, hg]

theorem exec_bkpt {code : BitVec 16} (hg : s.guardB g = true) : exec (.bkpt g code) s = .next (s.leave (.stop 0x41 code.toNat s.ctx.pc)) := by
  show execBkpt g code s = _
  simp [execBkpt, hg]

/-! ### System registers (R177, R180, R181) -/

theorem exec_clkdiv {rs : BitVec 5} (hg : s.guardB g = true) (hr : s.regsOk [rs] = .ok) :
    exec (.clkdiv g rs) s = .next (s.fly (s.op 0 1 (s.me.divisor 0) [.sys 0x1050 (s.reg rs)])) := by
  show execClkdiv g rs s = _
  simp [execClkdiv, hg, hr]

/-- Only a pop of an access queue that has no entry keeps MFS from its read (R140). -/
theorem State.aqChk_ok {n : Nat} (h : 0x030 ≤ n ∧ n ≤ 0x033 → (s.me.head (16 + (n - 0x030) / 2) s.me.tick).isSome = true) : s.aqChk n = .ok := by
  unfold State.aqChk
  rw [if_neg]
  rintro ⟨hlo, hhi, hnone⟩
  rw [Option.isNone_iff_eq_none.mp hnone] at h
  exact absurd (h ⟨hlo, hhi⟩) (by simp)

/-- MFS whose read is free to go on reads the register, and pops the queue that a pop number names. -/
theorem exec_mfs {rd : BitVec 5} {n : BitVec 12} (hg : s.guardB g = true) (hlegal : s.sysLegal false n.toNat = true) (hr : s.regsOk [rd] = .ok)
    (hq : 0x030 ≤ n.toNat ∧ n.toNat ≤ 0x033 → (s.me.head (16 + (n.toNat - 0x030) / 2) s.me.tick).isSome = true) :
    exec (.mfs g rd n) s = .next ((if 0x030 ≤ n.toNat ∧ n.toNat ≤ 0x033 then s.modMe fun c => c.pop (16 + (n.toNat - 0x030) / 2) else s).putReg 1 rd
      (s.sysRead n.toNat)) := by
  show execMfs g rd n s = _
  simp [execMfs, hlegal, hg, hr, State.aqChk_ok hq]

theorem exec_mts {rs : BitVec 5} {n : BitVec 12} (hg : s.guardB g = true) (hlegal : s.sysLegal true n.toNat = true) (hr : s.regsOk [rs] = .ok) :
    exec (.mts g rs n) s =
      .next (if s.ctx.who = .x then s.fly (s.op 0 1 (s.me.divisor 0) [.sys n.toNat (s.reg rs)]) else s.defer (.sys n.toNat (s.reg rs))) := by
  show execMts g rs n s = _
  cases h : s.ctx.who <;> simp [execMts, hlegal, hg, hr, h]

/-! ### The end of a stream (R182) -/

theorem State.unretired_iff : s.unretired = true ↔
    (∃ o ∈ s.me.aops, seqBefore o.iseq s.ctx.first = true) ∨ ∃ m ∈ s.me.cmds, seqBefore m.iseq s.ctx.first = true := by
  simp [State.unretired]

theorem exec_exit_leaves (hg : s.guardB g = true) (hh : s.inHandler = false) (hret : s.ctx.who = .a → s.unretired = false) :
    exec (.exit g) s = .next (s.leave .exit) := by
  show execExit g s = _
  have hnot : ¬ (s.ctx.who = .a ∧ s.unretired = true) := fun h => by simp [hret h.1] at h
  simp only [execExit, hh, hg, if_neg hnot, if_true, Bool.false_eq_true, if_false]

theorem exec_exit_waits (hg : s.guardB g = true) (hh : s.inHandler = false) (hwho : s.ctx.who = .a) (hun : s.unretired = true) :
    exec (.exit g) s = .next (s.waiting .ops) := by
  show execExit g s = _
  simp [execExit, hh, hg, hwho, hun]

/-! ### The survey (R328, R329) -/

/-- Over records that cannot be read SVCHK gives a free value (log entry 41). -/
theorem exec_svchk_unreadable {rd rs1 : BitVec 5} (hh : s.inHandler = true) (hg : s.guardB g = true) (hr : s.regsOk [rd, rs1] = .ok)
    (hbad : (s.surveyBad s.ctx.core (s.reg rs1).toNat).isSome = true) :
    exec (.svchk g rd rs1) s = .next (({ s with free := s.free + 1 } : State).putReg 1 rd (Config.freeWord s.free &&& 0x7FFF#64)) := by
  show execSvchk g rd rs1 s = _
  obtain ⟨a, ha⟩ := Option.isSome_iff_exists.mp hbad
  simp [execSvchk, hh, hg, hr, ha]

theorem exec_svchk_readable {rd rs1 : BitVec 5} (hh : s.inHandler = true) (hg : s.guardB g = true) (hr : s.regsOk [rd, rs1] = .ok)
    (hgood : s.surveyBad s.ctx.core (s.reg rs1).toNat = none) : exec (.svchk g rd rs1) s =
      .next (s.putReg 1 rd (BitVec.ofNat 64 ((s.me.surveyCheck (s.reg rs1).toNat).1 + 256 * (s.me.surveyCheck (s.reg rs1).toNat).2))) := by
  show execSvchk g rd rs1 s = _
  simp [execSvchk, hh, hg, hr, hgood]

/-- Whether something of an earlier bundle of the handler is still to be performed (R329). -/
def State.handlerOwes (s : State) : Bool :=
  (s.me.aops.any fun o => seqBefore o.iseq s.ctx.first && o.phase != .done) || s.me.cmds.any fun m => seqBefore m.iseq s.ctx.first

theorem State.handlerOwes_iff : s.handlerOwes = true ↔
    (∃ o ∈ s.me.aops, seqBefore o.iseq s.ctx.first = true ∧ o.phase ≠ .done) ∨ ∃ m ∈ s.me.cmds, seqBefore m.iseq s.ctx.first = true := by
  simp [State.handlerOwes]

theorem State.handlerOwes_eq_false (ha : ∀ o ∈ s.me.aops, seqBefore o.iseq s.ctx.first = true → o.phase = .done)
    (hc : ∀ m ∈ s.me.cmds, seqBefore m.iseq s.ctx.first = false) : s.handlerOwes = false := by
  rw [← Bool.not_eq_true, State.handlerOwes_iff]
  rintro (⟨o, ho, hbefore, hphase⟩ | ⟨m, hm, hbefore⟩)
  · exact hphase (ha o ho hbefore)
  · simp [hc m hm] at hbefore

theorem exec_resume {rs1 : BitVec 5} (hh : s.inHandler = true) (hg : s.guardB g = true) (hr : s.regsOk [rs1] = .ok) :
    exec (.resume g rs1) s = .next (if s.handlerOwes then s.waiting .ops else
      match s.resumeChk s.ctx.core (s.reg rs1).toNat with
      | some k => s.raise k
      | none => s.leave (.resume (s.reg rs1).toNat)) := by
  show execResume g rs1 s = _
  simp only [execResume, hh, hg, hr, Bool.not_true, Bool.false_eq_true, if_false, if_true, State.gate_ok]
  rfl

theorem State.resumeChk_readable {core n : Nat} (h : s.surveyBad core n = none) :
    s.resumeChk core n = if ((s.core core).surveyCheck n).1 = 0 then none else some { cause := 0x21 } := by
  simp [State.resumeChk, h]

theorem exec_resume_readable {rs1 : BitVec 5} (hh : s.inHandler = true) (hg : s.guardB g = true) (hr : s.regsOk [rs1] = .ok) (howes : s.handlerOwes = false)
    (hgood : s.surveyBad s.ctx.core (s.reg rs1).toNat = none) : exec (.resume g rs1) s =
      .next (if (s.me.surveyCheck (s.reg rs1).toNat).1 = 0 then s.leave (.resume (s.reg rs1).toNat) else s.raise { cause := 0x21 }) := by
  rw [exec_resume hh hg hr, howes, State.resumeChk_readable hgood, State.me]
  by_cases hvalid : ((s.core s.ctx.core).surveyCheck (s.reg rs1).toNat).1 = 0 <;> simp [hvalid]

end

/-- Settles O24, syllable by syllable. -/
theorem controlSyllablesComplete : Obligations.ControlSyllablesComplete := by
  unfold Obligations.ControlSyllablesComplete
  refine ⟨fun _ _ => rfl, fun _ _ _ _ => exec_trmark_x, fun _ _ _ _ => exec_trmark_a, fun _ _ _ => exec_trmark_mgmt, fun _ _ _ => exec_fix_core,
    fun _ _ => exec_fix_mgmt, fun _ _ => exec_align_started, fun _ _ _ => exec_contour, fun _ _ _ => exec_wait, fun _ _ _ => exec_clkdiv, ?_, ?_,
    fun _ _ _ _ => exec_mts, fun _ _ => exec_exit_leaves, ?_, fun _ _ _ hg => ⟨exec_trap hg, exec_bkpt hg⟩, ?_, ?_⟩
  · intro g rd n s hg hlegal hr hn
    rw [exec_mfs hg hlegal hr fun h => absurd h hn, if_neg hn]
  · intro g rd n s hg hlegal hr hn hhead
    rw [exec_mfs hg hlegal hr fun _ => hhead, if_pos hn]
  · intro g s hg hh hwho hun
    exact exec_exit_waits hg hh hwho (State.unretired_iff.mpr hun)
  · intro g rd rs1 s hh hg hr
    exact ⟨exec_svchk_unreadable hh hg hr, exec_svchk_readable hh hg hr⟩
  · intro g rs1 s hh hg hr
    refine ⟨fun howes => ?_, fun ha hc => exec_resume_readable hh hg hr (State.handlerOwes_eq_false ha hc)⟩
    rw [exec_resume hh hg hr, if_pos (State.handlerOwes_iff.mpr howes)]

end Sys2Proof.Machine

/-! SUPPORT. Words stored beside other words, a range zeroed, and a row of slots written one after another. -/

namespace Sys2Proof.Machine

theorem Memory.bytes_congr {m m' : Memory} {a n : Nat} (h : ∀ c, a ≤ c → c < a + n → Memory.read m c = Memory.read m' c) :
    Memory.bytes m a n = Memory.bytes m' a n := by
  induction n generalizing a with
  | zero => rfl
  | succ n ih => rw [Memory.bytes, Memory.bytes, h a (by omega) (by omega), ih fun c hlo hhi => h c (by omega) (by omega)]

/-- A byte of a memory with a range zeroed. -/
theorem Memory.read_zero (m : Memory) (lo k a : Nat) : Memory.read (Memory.zero m lo k) a = if a < lo ∨ lo + k ≤ a then Memory.read m a else 0#8 :=
  sget_sclear unwritten lo k a m

/-- A word beside the one stored. -/
theorem Memory.word_store_other (m : Memory) {a b : Nat} (w : Word) (h : b + 8 ≤ a ∨ a + 8 ≤ b) :
    Memory.word (Memory.store m a (wordBytes w)) b = Memory.word m b := by
  have hlen : (wordBytes w).length = 8 := leBytes_length 8 _
  have hread (c : Nat) (hlo : b ≤ c) (hhi : c < b + 8) := Memory.read_store_other m a c (wordBytes w) (by omega)
  rw [Memory.word, Memory.le, Memory.bytes_congr hread, ← Memory.le, ← Memory.word]

/-- The spill slots of n positions from a base, stored one after another. -/
theorem Memory.word_store_slots (f : Nat → Word) (m : Memory) (base p n : Nat) :
    Memory.word ((List.range n).foldl (fun m k => Memory.store m (spillSlot (base + k)) (wordBytes (f (base + k)))) m) (spillSlot p) =
      if base ≤ p ∧ p < base + n then f p else Memory.word m (spillSlot p) := by
  induction n with
  | zero => rw [if_neg (by omega)]; rfl
  | succ n ih =>
    rw [List.range_succ, List.foldl_append]
    by_cases hp : p = base + n
    · rw [hp, if_pos (by omega)]
      exact Memory.word_store ..
    · refine (Memory.word_store_other _ _ ?_).trans (ih.trans (if_congr (by omega) rfl rfl))
      unfold spillSlot
      omega

/-- The values of n positions from a base, written one after another. -/
theorem sget_foldl_sset_range (f : Nat → Word) (w : Store Word) (base p n : Nat) :
    sget 0#64 p ((List.range n).foldl (fun w k => sset 0#64 (base + k) (f (base + k)) w) w) = if base ≤ p ∧ p < base + n then f p else sget 0#64 p w := by
  induction n with
  | zero => rw [if_neg (by omega)]; rfl
  | succ n ih =>
    rw [List.range_succ, List.foldl_append]
    by_cases hp : p = base + n
    · rw [hp, if_pos (by omega)]
      exact sget_sset_self ..
    · exact (sget_sset_other _ _ _ hp).trans (ih.trans (if_congr (by omega) rfl rfl))

end Sys2Proof.Machine

/-! PROOFS. Fetched targets, the end of a slip, window moves and the meridian pulse (the first half of O48). -/

namespace Sys2Proof.Machine

/-! ### TARGET_FETCH (R166) -/

/-- A fetch of a target that the X-stream waits for ends the wait. -/
theorem XStream.fetchedTarget_same {x : XStream} {b w : BReg} (hw : x.await = some w) (h : w.val = b.val ∧ w.ready = b.ready) : x.fetchedTarget b = none := by
  simp [XStream.fetchedTarget, hw, h]

/-- Whether the fetch-ahead of a b register of the X-stream is over: its target is ready, or the slip that waits for it ends. -/
def State.fetchOver (s : State) (n bd : Nat) (c : Core) : Bool :=
  decide ((sget {} bd c.x.k.b).ready ≤ c.tick) || (s.fetchSlip n && (c.x.fetchedTarget (sget {} bd c.x.k.b)).isNone)

/-- But for the words it keeps, a fetch-ahead of the X-stream marks the b register and ends the wait once it is over, and changes nothing before. -/
theorem State.fetchX_eq (s : State) (n bd : Nat) (c : Core) : ∃ k : Ctrl, k.b = c.x.k.b ∧
    s.fetchX n bd c = { c with x := if s.fetchOver n bd c then
      { c.x with await := c.x.fetchedTarget (sget {} bd c.x.k.b), k := { k with b := sset {} bd { sget {} bd c.x.k.b with fetched := true } k.b } }
      else { c.x with k := k } } := by
  refine ⟨if decide ((sget {} bd c.x.k.b).ready ≤ c.tick + 3 * c.divisor 0) || s.slips n then c.x.k.hold (s.targetWords .x n (sget {} bd c.x.k.b)) else c.x.k, ?_, ?_⟩
  · split <;> rfl
  · unfold State.fetchX State.fetchOver
    dsimp only
    split <;> rfl

section
variable (s : State) (n bd : Nat)

theorem exec_targetFetch_x : ∃ t, exec (.targetFetch n .x bd) s = .next t ∧ (t.core n).a = (s.core n).a ∧
    (s.fetchOver n bd (s.core n) = true → sget {} bd (t.core n).x.k.b = { sget {} bd (s.core n).x.k.b with fetched := true } ∧
      (t.core n).x.await = (s.core n).x.fetchedTarget (sget {} bd (s.core n).x.k.b)) ∧
    (s.fetchOver n bd (s.core n) = false → (t.core n).x.k.b = (s.core n).x.k.b ∧ (t.core n).x.await = (s.core n).x.await) := by
  obtain ⟨k, hk, heq⟩ := s.fetchX_eq n bd (s.core n)
  refine ⟨s.modCore n (s.fetchX n bd), rfl, ?_⟩
  rw [State.core_modCore_self, heq]
  refine ⟨rfl, fun hover => ?_, fun hover => ?_⟩
  · rw [if_pos hover]
    exact ⟨sget_sset_self .., rfl⟩
  · rw [if_neg (by simp [hover])]
    exact ⟨hk, rfl⟩

theorem exec_targetFetch_a : ∃ t, exec (.targetFetch n .a bd) s = .next t ∧ (t.core n).x = (s.core n).x ∧
    ((sget {} bd (s.core n).a.k.b).ready ≤ (s.core n).cycle + 3 * (s.core n).divisor 0 →
      sget {} bd (t.core n).a.k.b = { sget {} bd (s.core n).a.k.b with fetched := true }) ∧
    ((s.core n).cycle + 3 * (s.core n).divisor 0 < (sget {} bd (s.core n).a.k.b).ready → (t.core n).a = (s.core n).a) := by
  refine ⟨s.modCore n (s.fetchA n bd), rfl, ?_⟩
  rw [State.core_modCore_self]
  unfold State.fetchA
  dsimp only
  split
  next hready => exact ⟨rfl, fun _ => sget_sset_self .., fun hlate => absurd hready (by omega)⟩
  next hnot => exact ⟨rfl, fun hready => absurd hready hnot, fun _ => rfl⟩

end

/-! ### SLIP_END (R145) -/

section
variable {k : Nat} {g : Grp} {why : Slip} {s : State} (hg : s.grp? k = some g) (hslip : g.slip = some why) (hstat : g.status = .running)

include hg hslip

theorem exec_slipEnd_early (hover : s.waitOver g.slipCore why = false) : exec (.slipEnd k) s = .next s := by
  show execSlipEnd k s = _
  simp [execSlipEnd, hg, hslip, hover]

include hstat

theorem exec_slipEnd_over (hover : s.waitOver g.slipCore why = true) :
    ∃ t, exec (.slipEnd k) s = .next t ∧ t.grp? k = some { g with slip := none } ∧ t.cores = s.cores := by
  refine ⟨(s.slipEnds g).setGrp { g with slip := none }, ?_, ?_, s.slipEnds_cores g⟩
  · show execSlipEnd k s = _
    simp [execSlipEnd, hg, hslip, hstat, hover]
  · have hgroups : (s.slipEnds g).groups = s.groups := congrArg (·.1) (s.slipEnds_haltView g)
    have hnum := State.num_of_grp? hg
    have hfound : (s.slipEnds g).grp? g.num = some g := by rw [State.grp?_of_groups hgroups, hnum, hg]
    subst hnum
    exact State.grp?_setGrp_self (g := { g with slip := none }) hfound

end

/-! ### Window lines (R151, R152) -/

/-- A link slot lies below every spill slot. -/
theorem linkSlot_below {base : Nat} (h : base < 8192) (p : Nat) : linkSlot base + 8 ≤ spillSlot p := by
  unfold linkSlot spillSlot
  omega

theorem Core.word_spillLine {c : Core} (h : c.x.low < 8192) (p : Nat) : Memory.word c.spillLine.sp (spillSlot p) =
    if c.x.low ≤ p ∧ p < c.x.low + 8 then sget 0#64 p c.x.win else Memory.word c.sp (spillSlot p) := by
  rw [← Memory.word_store_slots (sget 0#64 · c.x.win) c.sp]
  unfold Core.spillLine
  dsimp only
  split
  · exact Memory.word_store_other _ _ (.inr (linkSlot_below h p))
  · rfl

theorem Core.spillLine_win {c : Core} {p : Nat} (h : c.x.low + 8 ≤ p) : sget 0#64 p c.spillLine.x.win = sget 0#64 p c.x.win :=
  (sget_sclear ..).trans (if_pos (.inr h))

/-- k lines are spilled: LOW has moved up, their positions stand in their slots and the others as before. -/
theorem Core.moveLines_spill {c : Core} {k : Nat} (h : c.x.low + 8 * k ≤ 8192) : (c.moveLines false k).x.low = c.x.low + 8 * k ∧
    (∀ p, c.x.low + 8 * k ≤ p → sget 0#64 p (c.moveLines false k).x.win = sget 0#64 p c.x.win) ∧
    ∀ p, Memory.word (c.moveLines false k).sp (spillSlot p) =
      if c.x.low ≤ p ∧ p < c.x.low + 8 * k then sget 0#64 p c.x.win else Memory.word c.sp (spillSlot p) := by
  induction k generalizing c with
  | zero => exact ⟨rfl, fun _ _ => rfl, fun p => (if_neg (by omega)).symm⟩
  | succ k ih =>
    have hmove : c.moveLines false (k + 1) = c.spillLine.moveLines false k := rfl
    have hnext : c.spillLine.x.low = c.x.low + 8 := rfl
    obtain ⟨hlow, hwin, hsp⟩ := ih (c := c.spillLine) (by omega)
    rw [hmove]
    refine ⟨by omega, fun p hp => (hwin p (by omega)).trans (Core.spillLine_win (by omega)), fun p => ?_⟩
    rw [hsp, hnext, Core.word_spillLine (by omega)]
    by_cases hlater : c.x.low + 8 ≤ p
    · rw [Core.spillLine_win hlater, if_neg (by omega : ¬ (c.x.low ≤ p ∧ p < c.x.low + 8))]
      exact if_congr (by omega) rfl rfl
    · rw [if_neg (by omega)]
      exact if_congr (by omega) rfl rfl

theorem Core.fillLine_win (c : Core) (p : Nat) : sget 0#64 p c.fillLine.x.win =
    if c.x.low - 8 ≤ p ∧ p < c.x.low - 8 + 8 then Memory.word c.sp (spillSlot p) else sget 0#64 p c.x.win :=
  sget_foldl_sset_range (fun q => Memory.word c.sp (spillSlot q)) c.x.win (c.x.low - 8) p 8

/-- k lines are filled: LOW has moved down, their positions are read back from their slots, and bank 31 stays. -/
theorem Core.moveLines_fill {c : Core} {k : Nat} (h : 8 * k ≤ c.x.low) : (c.moveLines true k).x.low + 8 * k = c.x.low ∧ (c.moveLines true k).sp = c.sp ∧
    ∀ p, sget 0#64 p (c.moveLines true k).x.win = if (c.moveLines true k).x.low ≤ p ∧ p < c.x.low then Memory.word c.sp (spillSlot p) else sget 0#64 p c.x.win := by
  induction k generalizing c with
  | zero => exact ⟨rfl, rfl, fun p => (if_neg (by rintro ⟨hlo, hhi⟩; exact absurd hhi (Nat.not_lt.mpr hlo))).symm⟩
  | succ k ih =>
    have hmove : c.moveLines true (k + 1) = c.fillLine.moveLines true k := rfl
    have hnext : c.fillLine.x.low = c.x.low - 8 := rfl
    have hmem : c.fillLine.sp = c.sp := rfl
    obtain ⟨hlow, hsp, hwin⟩ := ih (c := c.fillLine) (by omega)
    rw [hmove]
    refine ⟨by omega, hsp, fun p => ?_⟩
    rw [hwin, Core.fillLine_win, hmem]
    by_cases hfirst : c.x.low - 8 ≤ p ∧ p < c.x.low - 8 + 8
    · rw [if_pos hfirst, if_neg (by omega), if_pos (by omega)]
    · rw [if_neg hfirst]
      exact if_congr (by omega) rfl rfl

/-- A core whose window move is over: the lines moved, the wait ended, bank 31 touched. -/
def Core.windowMoved (c : Core) (fill : Bool) (k now : Nat) : Core :=
  ({ c.moveLines fill k with x := { (c.moveLines fill k).x with window := none } } : Core).touch now 31 (!fill)

/-- The state after a window move of core n; a spill clears the error marks of the lines it covers. -/
def State.windowMoved (s : State) (n k : Nat) (fill : Bool) : State :=
  let t := s.modCore n fun c => c.windowMoved fill k s.power.ref
  if fill then t else t.writeGood (.sp n (spillSlot (s.core n).x.low)) (64 * k)

section
variable {n k : Nat} {fill : Bool} {g : Grp} {s : State}

/-- WINDOW_SPILL_FILL may move the lines that core n waits for. -/
structure State.WindowFree (s : State) (n k : Nat) (fill : Bool) (g : Grp) : Prop where
  grp : s.grpAt n = some g
  running : g.status = .running
  window : (s.core n).x.window = some (k, fill)
  bank : (sget ({} : Bank) 31 (s.core n).banks).st ≠ 3
  owed : fill = true → (s.core n).spillOwed n = false
  runs : (s.core n).windowRuns = true

/-- Nothing but a line in error keeps the lines from moving. -/
theorem State.WindowFree.exec_eq (h : s.WindowFree n k fill g) : exec (.windowSpillFill n) s = .next (match s.windowBad n k fill with
    | some a => s.stop n { cause := 0x20, engine := 6, iseq := (s.core n).x.windowSeq, addr := spPointer n a }
    | none => s.windowMoved n k fill) := by
  obtain ⟨hgrp, hrunning, hwindow, hbank, howed, hruns⟩ := h
  have hbank' : ((sget ({} : Bank) 31 (s.core n).banks).st == 3) = false := beq_false_of_ne hbank
  have howed' : (fill && (s.core n).spillOwed n) = false := by
    cases fill with
    | false => rfl
    | true => exact howed rfl
  show execWindowSpillFill n s = _
  simp only [execWindowSpillFill, hgrp, hrunning, hwindow, hruns, hbank', howed']
  rfl

/-- The lines have moved (log entry 80). -/
theorem exec_windowSpillFill_moves (h : s.WindowFree n k fill g) (hbad : s.windowBad n k fill = none) :
    ∃ t, exec (.windowSpillFill n) s = .next t ∧ t.core n = (s.core n).windowMoved fill k s.power.ref := by
  refine ⟨s.windowMoved n k fill, by rw [h.exec_eq, hbad], ?_⟩
  have hcore := State.core_modCore_self s n fun c => c.windowMoved fill k s.power.ref
  cases fill with
  | false => exact hcore
  | true => exact hcore

/-- A line in error stops the core at its address (R90). -/
theorem exec_windowSpillFill_stops {a : Nat} (h : s.WindowFree n k fill g) (hbad : s.windowBad n k fill = some a) :
    exec (.windowSpillFill n) s = .next (s.stop n { cause := 0x20, engine := 6, iseq := (s.core n).x.windowSeq, addr := spPointer n a }) := by
  rw [h.exec_eq, hbad]

theorem exec_windowSpillFill_spill (h : s.WindowFree n k false g) (hlow : (s.core n).x.low + 8 * k ≤ 8192) (hbad : s.windowBad n k false = none) :
    ∃ t, exec (.windowSpillFill n) s = .next t ∧ (t.core n).x.window = none ∧ (t.core n).x.low = (s.core n).x.low + 8 * k ∧
      (∀ p, (s.core n).x.low ≤ p → p < (s.core n).x.low + 8 * k → Memory.word (t.core n).sp (spillSlot p) = sget 0#64 p (s.core n).x.win) ∧
      (∀ p, (s.core n).x.low + 8 * k ≤ p → sget 0#64 p (t.core n).x.win = sget 0#64 p (s.core n).x.win) := by
  obtain ⟨t, hexec, hcore⟩ := exec_windowSpillFill_moves h hbad
  obtain ⟨hlow', hwin, hsp⟩ := Core.moveLines_spill hlow
  refine ⟨t, hexec, ?_⟩
  rw [hcore]
  exact ⟨rfl, hlow', fun p hlo hhi => (hsp p).trans (if_pos ⟨hlo, hhi⟩), hwin⟩

theorem exec_windowSpillFill_fill (h : s.WindowFree n k true g) (hlow : 8 * k ≤ (s.core n).x.low) (hbad : s.windowBad n k true = none) :
    ∃ t, exec (.windowSpillFill n) s = .next t ∧ (t.core n).x.window = none ∧ (t.core n).x.low + 8 * k = (s.core n).x.low ∧ (t.core n).sp = (s.core n).sp ∧
      (∀ p, (t.core n).x.low ≤ p → p < (s.core n).x.low → sget 0#64 p (t.core n).x.win = Memory.word (s.core n).sp (spillSlot p)) := by
  obtain ⟨t, hexec, hcore⟩ := exec_windowSpillFill_moves h hbad
  obtain ⟨hlow', hsp, hwin⟩ := Core.moveLines_fill hlow
  refine ⟨t, hexec, ?_⟩
  rw [hcore]
  exact ⟨rfl, hlow', hsp, fun p hlo hhi => (hwin p).trans (if_pos ⟨hlo, hhi⟩)⟩

end

/-! ### MERIDIAN_PULSE (R110) -/

/-- A core at its alignment whose chart clock has started at 0. -/
structure Core.Started (c : Core) : Prop where
  align : c.x.align.isSome = true
  tick : c.tick = 0
  aligned : c.x.aligned = true

/-- The pulse starts the clock of a core at its alignment. -/
theorem Core.pulse_started {c : Core} (h : c.x.align.isSome = true) : c.pulse.Started := ⟨h, rfl, h⟩

theorem State.foldl_withClock_keeps {f : Core → Core} {P : Core → Prop} (hf : ∀ c, P c → P (f c)) (l : List Nat) {s : State} {m : Nat} (h : P (s.core m)) :
    P ((l.foldl (fun t n => t.withClock n f) s).core m) :=
  List.foldlRecOn (motive := fun t : State => P (t.core m)) _ _ h fun _ ht n _ => State.withClock_core_keeps hf n m ht

/-- The pulse of a list of cores starts the clock of each. -/
theorem State.pulses_started {l : List Nat} {s : State} {m : Nat} (hm : m ∈ l) (h : (s.core m).x.align.isSome = true) :
    ((l.foldl (fun t n => t.withClock n Core.pulse) s).core m).Started := by
  induction l generalizing s with
  | nil => cases hm
  | cons n l ih =>
    by_cases hn : m = n
    · refine State.foldl_withClock_keeps (P := Core.Started) (fun c hc => Core.pulse_started hc.align) l ?_
      rw [hn, State.core_withClock_self, ← hn]
      exact Core.pulse_started h
    · exact ih ((List.mem_cons.mp hm).resolve_left hn) (by rwa [State.core_withClock_other _ _ hn])

theorem exec_meridianPulse_starts {k : Nat} {g : Grp} {s : State} (hg : s.grp? k = some g) (hstat : g.status = .running) (hne : g.cores ≠ [])
    (harrived : ∀ n ∈ g.cores, (s.core n).arrived = true) : ∃ t, exec (.meridianPulse k) s = .next t ∧ t.grp? k = some { g with clock := true, key := 0 } ∧
      (∀ n ∈ g.cores, (t.core n).tick = 0 ∧ (t.core n).x.aligned = true) := by
  have hany : g.cores.any (fun n => (s.core n).arrived) = true := by
    obtain ⟨n, hn⟩ := List.exists_mem_of_ne_nil _ hne
    exact List.any_eq_true.mpr ⟨n, hn, harrived n hn⟩
  have hall : (g.cores.all fun n => (s.core n).arrived || ((s.core n).x.k.exiting || (s.core n).x.k.exited)) = true :=
    List.all_eq_true.mpr fun n hn => by rw [harrived n hn, Bool.true_or]
  refine ⟨(g.cores.foldl (fun s n => s.withClock n Core.pulse) s).setGrp { g with clock := true, key := 0 }, ?_, ?_, fun n hn => ?_⟩
  · show execMeridianPulse k s = _
    simp only [execMeridianPulse, hg, hstat, hany, hall]
    rfl
  · have hgroups := State.foldl_keeps (·.groups) (fun t n => State.withClock_groups t n Core.pulse) g.cores s
    have hnum := State.num_of_grp? hg
    subst hnum
    exact State.grp?_setGrp_self (g := { g with clock := true, key := 0 }) ((State.grp?_of_groups hgroups _).trans hg)
  · have halign : (s.core n).x.align.isSome = true := by
      have h := harrived n hn
      simp only [Core.arrived, Bool.and_eq_true] at h
      exact h.1.1
    obtain ⟨-, htick, haligned⟩ := State.pulses_started hn halign
    exact ⟨htick, haligned⟩

end Sys2Proof.Machine

/-! PROOFS. Complete barrier phases and the power states of banks (the second half of O48), and O48. -/

namespace Sys2Proof.Machine

/-! ### BARRIER_PHASE_COMPLETE (R299) -/

/-- The only unfinished syllable of a core, after an acquire, is dropped by its number. -/
theorem Core.observe_dropAop_single {c : Core} {o : AOp} (h : c.aops = [o]) (v : List Nat) (w : Store Nat) :
    (({ c.observe o.iseq v with barW := w } : Core).dropAop o.iseq).aops = [] := by
  simp only [Core.dropAop, Core.observe, h, List.map_cons, List.map_nil]
  split <;> simp

section
variable {n : Nat} {gd : BitVec 4} {k : BitVec 5} {g : Grp} {s : State} {o : AOp}

theorem State.barwStep_waits (hg : s.grpAt n = some g) (j : Nat) (h : s.allArrived g j ((s.core n).waits j + 1) = false) : s.barwStep n o j = s := by
  simp [State.barwStep, hg, h]

theorem State.barwStep_completes (haops : (s.core n).aops = [o]) (hg : s.grpAt n = some g) (j : Nat)
    (h : s.allArrived g j ((s.core n).waits j + 1) = true) :
    ((s.barwStep n o j).core n).aops = [] ∧ ((s.barwStep n o j).core n).waits j = (s.core n).waits j + 1 := by
  have hcores (ms : List Nat) (sel : Veil → Bool) (learn : Bool) : (s.reveal ms sel learn).core n = s.core n :=
    State.core_of_cores (congrArg State.cores (State.reveal_frame ..)) n
  unfold State.barwStep
  rw [hg]
  dsimp only
  rw [h, Bool.not_true, if_neg Bool.false_ne_true, State.core_modCore_self, hcores]
  exact ⟨Core.observe_dropAop_single haops _ _, sget_sset_self ..⟩

variable (haops : (s.core n).aops = [o]) (hi : o.instr = .barw gd k) (hphase : o.phase = .sync) (hruns : s.opRuns n o.iseq = true)
  (hpart : (s.core n).part.isSome = true)

include haops hi hphase hruns hpart

theorem exec_barrierPhaseComplete : exec (.barrierPhaseComplete n) s = .next (s.eased (s.barwStep n o k.toNat) n) := by
  obtain ⟨pn, hpn⟩ := Option.isSome_iff_exists.mp hpart
  have hop : (s.core n).aop o.iseq = some o := by simp [Core.aop, haops]
  show execBarrierPhaseComplete n s = _
  simp [execBarrierPhaseComplete, haops, hi, State.syncStep, State.syncOne, hop, hpn, hphase, hruns]

theorem exec_barrierPhaseComplete_counts (hg : s.grpAt n = some g) (h : s.allArrived g k.toNat ((s.core n).waits k.toNat + 1) = true) :
    ∃ t, exec (.barrierPhaseComplete n) s = .next t ∧ (t.core n).aops = [] ∧ (t.core n).waits k.toNat = (s.core n).waits k.toNat + 1 := by
  obtain ⟨r, hcore, -⟩ := s.eased_self (s.barwStep n o k.toNat) n
  refine ⟨_, exec_barrierPhaseComplete haops hi hphase hruns hpart, ?_⟩
  rw [hcore]
  exact State.barwStep_completes haops hg _ h

theorem exec_barrierPhaseComplete_early (hg : s.grpAt n = some g) (h : s.allArrived g k.toNat ((s.core n).waits k.toNat + 1) = false) :
    exec (.barrierPhaseComplete n) s = .next s := by
  rw [exec_barrierPhaseComplete haops hi hphase hruns hpart, State.barwStep_waits hg _ h]
  simp [State.eased]

end

/-! ### Banks (R118, R121, R130) -/

section
variable {n b : Nat} {s : State}

theorem exec_bankWakeComplete_wakes (howner : (sget ({} : Bank) b (s.core n).banks).owner ≠ 0) (hst : (sget ({} : Bank) b (s.core n).banks).st = 3) :
    ∃ t, exec (.bankWakeComplete n b) s = .next t ∧ sget {} b (t.core n).banks = { sget {} b (s.core n).banks with st := 2, last := s.power.ref } ∧
      (t.core n).sp = (s.core n).sp := by
  refine ⟨_, congrArg Host.Outcome.next (if_pos ⟨howner, hst⟩), ?_⟩
  rw [State.core_modCore_self]
  exact ⟨sget_sset_self .., rfl⟩

theorem exec_bankIdleWarm_warms (howner : (sget ({} : Bank) b (s.core n).banks).owner ≠ 0) (hst : (sget ({} : Bank) b (s.core n).banks).st = 2)
    (hpin : (sget ({} : Bank) b (s.core n).banks).pin = false) (hidle : 2048 ≤ s.idleTicks (sget ({} : Bank) b (s.core n).banks).last) :
    ∃ t, exec (.bankIdleWarm n b) s = .next t ∧ sget {} b (t.core n).banks = { sget {} b (s.core n).banks with st := 1 } ∧ (t.core n).sp = (s.core n).sp := by
  refine ⟨_, congrArg Host.Outcome.next (if_pos ⟨howner, hst, by simp [hpin], hidle⟩), ?_⟩
  rw [State.core_modCore_self]
  exact ⟨sget_sset_self .., rfl⟩

theorem exec_bankIdleWarm_stays
    (h : (sget ({} : Bank) b (s.core n).banks).pin = true ∨ s.idleTicks (sget ({} : Bank) b (s.core n).banks).last < 2048) :
    exec (.bankIdleWarm n b) s = .next s := by
  refine congrArg Host.Outcome.next (if_neg ?_)
  rintro ⟨-, -, hpin, hidle⟩
  obtain hpinned | hbusy := h
  · exact hpin hpinned
  · omega

theorem exec_accBankIdleWarm_warms {a : Nat} (hst : ((s.core n).bank a).st = 2) (hheld : ((s.core n).bank a).held = false)
    (hidle : 2048 ≤ s.idleTicks ((s.core n).bank a).last) :
    exec (.accBankIdleWarm n a) s = .next (s.modCore n fun c => c.setBank a { c.bank a with st := 1 }) :=
  congrArg Host.Outcome.next (if_pos ⟨hst, by simp [hheld], hidle⟩)

/-! ### BANK_SCRUB_COMPLETE (R121, R128) -/

/-- A change to a core that keeps its owner and its saved stream keeps whether its access side works. -/
theorem State.accessRuns_modCore {f : Core → Core} (howner : (f (s.core n)).owner = (s.core n).owner) (hsaved : (f (s.core n)).saved = (s.core n).saved) :
    (s.modCore n f).accessRuns n = s.accessRuns n := by
  simp only [State.accessRuns, State.grpAt_modCore howner, State.core_modCore_self, hsaved]

/-- A core with a bank scrubbed. -/
def Core.scrubbed (c : Core) (b : Nat) : Core := { c with sp := Memory.zero c.sp (65536 * b) 65536, lines := sclear (1024 * b) 1024 c.lines }

/-- The SPALLOC that a scrubbed bank is handed to. -/
def State.scrubbedFor (s : State) (n b : Nat) : Option AOp :=
  if s.accessRuns n then (s.core n).aops.find? fun o => o.begun && o.mask.getLsbD b else none

section
variable (howner : (sget ({} : Bank) b (s.core n).banks).owner = 0) (hst : (sget ({} : Bank) b (s.core n).banks).st = 3)

include howner hst

/-- The scrub of a free bank zeroes it and hands it to the SPALLOC that waits for it, or leaves it COLD. -/
theorem exec_bankScrubComplete_free (hfree : (s.core n).bankOwner b = 0) : exec (.bankScrubComplete n b) s =
    .next (let u := s.modCore n fun c => c.scrubbed b
      match s.scrubbedFor n b with
      | some o => u.modCore n fun c => c.modAop o.iseq fun o => { o with value := o.value &&& ~~~(1#64 <<< b) }
      | none => u.modCore n fun c => { c with banks := sset {} b { sget {} b (s.core n).banks with st := 0, live := false } c.banks }) := by
  show execBankScrubComplete n b s = _
  have hruns : (s.modCore n fun c => c.scrubbed b).accessRuns n = s.accessRuns n := State.accessRuns_modCore rfl rfl
  rw [State.scrubbedFor, ← hruns]
  simp only [execBankScrubComplete, howner, hst, hfree, ne_eq, not_true_eq_false, or_self, if_false]
  rfl

theorem exec_bankScrubComplete_zeroes (hfree : (s.core n).bankOwner b = 0) :
    ∃ t, exec (.bankScrubComplete n b) s = .next t ∧ (∀ a, 65536 * b ≤ a → a < 65536 * b + 65536 → Memory.read (t.core n).sp a = 0#8) ∧
      (∀ a, a < 65536 * b ∨ 65536 * b + 65536 ≤ a → Memory.read (t.core n).sp a = Memory.read (s.core n).sp a) ∧
      (((s.core n).aops = [] → (sget ({} : Bank) b (t.core n).banks).st = 0) ∧
       (∀ o, (s.core n).aops = [o] → s.accessRuns n = true → o.begun = true → o.mask.getLsbD b = true →
        (t.core n).aops = [{ o with value := o.value &&& ~~~(1#64 <<< b) }] ∧ (t.core n).banks = (s.core n).banks)) := by
  refine ⟨_, exec_bankScrubComplete_free howner hst hfree, ?_⟩
  have hzero {m : Memory} (hm : m = Memory.zero (s.core n).sp (65536 * b) 65536) :
      (∀ a, 65536 * b ≤ a → a < 65536 * b + 65536 → Memory.read m a = 0#8) ∧
      ∀ a, a < 65536 * b ∨ 65536 * b + 65536 ≤ a → Memory.read m a = Memory.read (s.core n).sp a := by
    subst hm
    exact ⟨fun a hlo hhi => (Memory.read_zero ..).trans (if_neg (by omega)), fun a ha => (Memory.read_zero ..).trans (if_pos ha)⟩
  cases hfor : s.scrubbedFor n b with
  | none =>
    simp only [State.core_modCore_self]
    refine ⟨(hzero rfl).1, (hzero rfl).2, fun _ => congrArg Bank.st (sget_sset_self ..), fun o haops hruns hbegun hmask => ?_⟩
    simp [State.scrubbedFor, hruns, haops, hbegun, hmask] at hfor
  | some x =>
    simp only [State.core_modCore_self]
    refine ⟨(hzero rfl).1, (hzero rfl).2, fun haops => ?_, fun o haops hruns hbegun hmask => ?_⟩
    · simp [State.scrubbedFor, haops] at hfor
    · obtain rfl : o = x := by simpa [State.scrubbedFor, hruns, haops, hbegun, hmask] using hfor
      exact ⟨Core.modAop_single (c := (s.core n).scrubbed b) haops _, rfl⟩

/-- The scrub of a bank of a group placed meanwhile leaves it HOT and the group's (log entry 95). -/
theorem exec_bankScrubComplete_placed (hplaced : (s.core n).bankOwner b ≠ 0) :
    ∃ t, exec (.bankScrubComplete n b) s = .next t ∧ (t.core n).sp = (s.core n).sp ∧ (sget ({} : Bank) b (t.core n).banks).st = 2 ∧
      (sget ({} : Bank) b (t.core n).banks).owner = (s.core n).owner := by
  refine ⟨s.modCore n fun c => { c with banks := sset {} b { sget {} b (s.core n).banks with
    st := 2, owner := c.owner, pin := b == 31 || c.sys.bwpa.getLsbD b, last := s.power.ref } c.banks }, ?_, ?_⟩
  · show execBankScrubComplete n b s = _
    simp only [execBankScrubComplete, howner, hst]
    simp [hplaced]
  · rw [State.core_modCore_self]
    exact ⟨rfl, congrArg Bank.st (sget_sset_self ..), congrArg Bank.owner (sget_sset_self ..)⟩

end
end

/-- Settles O48, event by event. -/
theorem waitsAndBanksEnd : Obligations.WaitsAndBanksEnd := by
  unfold Obligations.WaitsAndBanksEnd
  refine ⟨?_, fun n bd s => exec_targetFetch_a s n bd, fun k g why s hg hstat hslip => ⟨exec_slipEnd_over hg hslip hstat, exec_slipEnd_early hg hslip⟩,
    ?_, ?_, ?_, fun k g s => exec_meridianPulse_starts, ?_, fun n b s => exec_bankWakeComplete_wakes, fun n b s => ⟨exec_bankIdleWarm_warms, exec_bankIdleWarm_stays⟩,
    fun n a s => exec_accBankIdleWarm_warms, fun n b s => exec_bankScrubComplete_zeroes, fun n b s => exec_bankScrubComplete_placed⟩
  · intro n bd s b same
    obtain ⟨t, hexec, ha, hover, hearly⟩ := exec_targetFetch_x s n bd
    refine ⟨t, hexec, ha, fun hready => ?_, fun w hslip hw hsame => ?_, fun hlate hslip => hearly ?_⟩
    · obtain ⟨hb, hawait⟩ := hover (by rw [State.fetchOver, decide_eq_true hready, Bool.true_or])
      exact ⟨hb, fun w hw hsame => hawait.trans (XStream.fetchedTarget_same hw hsame)⟩
    · have hnone := XStream.fetchedTarget_same hw hsame
      obtain ⟨hb, hawait⟩ := hover (by rw [State.fetchOver, hslip, hnone]; exact Bool.or_true _)
      exact ⟨hb, hawait.trans hnone⟩
    · rw [State.fetchOver, hslip, decide_eq_false (Nat.not_le.mpr hlate)]
      rfl
  · intro n k g s hg hstat hwindow hlow hbank hruns hbad
    exact exec_windowSpillFill_spill ⟨hg, hstat, hwindow, hbank, fun h => absurd h (by decide), hruns⟩ hlow hbad
  · intro n k g s hg hstat hwindow hlow hbank howed hruns hbad
    exact exec_windowSpillFill_fill ⟨hg, hstat, hwindow, hbank, fun _ => howed, hruns⟩ hlow hbad
  · intro n k a fill g s hg hstat hwindow hbank howed hruns hbad
    exact exec_windowSpillFill_stops ⟨hg, hstat, hwindow, hbank, howed, hruns⟩ hbad
  · intro n gd k g s o haops hi hphase hruns hpart hg
    exact ⟨exec_barrierPhaseComplete_counts haops hi hphase hruns hpart hg, exec_barrierPhaseComplete_early haops hi hphase hruns hpart hg⟩

end Sys2Proof.Machine

/-! SUPPORT. Accumulator banks, rows, operand slots and queues of a core: a read after a write, and what a write leaves alone. -/

namespace Sys2Proof.Machine

section
variable (c : Core)

@[simp] theorem Core.bank_setBank_self (a : Nat) (b : AccBank) : (c.setBank a b).bank a = b := sget_sset_self ..
@[simp] theorem Core.row_setBank (a r : Nat) (b : AccBank) : (c.setBank a b).row r = c.row r := rfl
@[simp] theorem Core.row_setRow_self (r : Nat) (v : Row) : (c.setRow r v).row r = v := sget_sset_self ..
theorem Core.row_setRow_other {r k : Nat} (v : Row) (h : k ≠ r) : (c.setRow r v).row k = c.row k := sget_sset_other _ _ _ h
@[simp] theorem Core.bank_setRow (a r : Nat) (v : Row) : (c.setRow r v).bank a = c.bank a := rfl
@[simp] theorem Core.ops_setRow (r : Nat) (v : Row) : (c.setRow r v).ops = c.ops := rfl
@[simp] theorem Core.slot_setSlot_self (o : Nat) (v : Slot) : (c.setSlot o v).slot o = v := sget_sset_self ..
@[simp] theorem Core.queue_setQueue_self (q : Nat) (v : Queue) : (c.setQueue q v).queue q = v := sget_sset_self ..

/-! Counting a write into a bank keeps who holds it, its type and every row. -/

@[simp] theorem Core.row_bankWrite (a now r : Nat) : (c.bankWrite a now).row r = c.row r := rfl
@[simp] theorem Core.ops_bankWrite (a now : Nat) : (c.bankWrite a now).ops = c.ops := rfl
@[simp] theorem Core.held_bankWrite (a now : Nat) : ((c.bankWrite a now).bank a).held = (c.bank a).held := by simp [Core.bankWrite]
@[simp] theorem Core.ty_bankWrite (a now : Nat) : ((c.bankWrite a now).bank a).ty = (c.bank a).ty := by simp [Core.bankWrite]

end

/-- What every step of a fold over a core leaves alone, the fold does. -/
theorem Core.foldl_keeps {α β : Type} (v : Core → β) {f : Core → α → Core} (h : ∀ c x, v (f c x) = v c) (l : List α) (c : Core) : v (l.foldl f c) = v c := by
  induction l generalizing c with
  | nil => rfl
  | cons x l ih => exact (ih _).trans (h c x)

/-- n rows from a row zeroed one after another. -/
theorem Core.row_foldl_setRow_zero (c : Core) (lo n r : Nat) :
    ((List.range n).foldl (fun c i => c.setRow (lo + i) 0#1024) c).row r = if lo ≤ r ∧ r < lo + n then 0#1024 else c.row r := by
  induction n with
  | zero => exact (if_neg (by omega)).symm
  | succ n ih =>
    rw [List.range_succ, List.foldl_append]
    by_cases hr : r = lo + n
    · rw [hr, if_pos (by omega)]
      exact Core.row_setRow_self ..
    · exact (Core.row_setRow_other _ _ hr).trans (ih.trans (if_congr (by omega) rfl rfl))

/-- Values laid down one after another read back at their places. -/
theorem sget_foldl_sset_zipIdx {α : Type} [DecidableEq α] (d : α) (lo : Nat) (l : List α) (k : Nat) (st : Store α) {i : Nat} (hk : k ≤ i) (hi : i < k + l.length) :
    sget d (lo + i) ((l.zipIdx k).foldl (fun st e => sset d (lo + e.2) e.1 st) st) = l.getD (i - k) d := by
  induction l using List.reverseRecOn with
  | nil => exact absurd hi (by rw [List.length_nil]; omega)
  | append_singleton l v ih =>
    rw [List.length_append, List.length_singleton] at hi
    rw [List.zipIdx_append, List.foldl_append]
    by_cases hlast : i = k + l.length
    · subst hlast
      rw [Nat.add_sub_cancel_left]
      simp
    · have hbefore : i - k < l.length := by omega
      rw [List.getD_append _ _ _ _ hbefore, ← ih (by omega)]
      exact sget_sset_other _ _ _ (by simp; omega)

end Sys2Proof.Machine

/-! PROOFS. What a contour takes from BWPH and DIVP (O27). -/

namespace Sys2Proof.Machine

/-- A pending value that landed before the contour's tick is taken, and its pending bit cleared (R124, R177). -/
theorem contourTake_pending {cur : Word} (h : cur.getLsbD 63 = true) (t : Nat) :
    contourTake none cur t = (some (cur &&& 0x7FFFFFFFFFFFFFFF#64), cur &&& 0x7FFFFFFFFFFFFFFF#64) := by
  simp [contourTake, h]

theorem contourTake_nothing {cur : Word} (h : cur.getLsbD 63 = false) (t : Nat) : (contourTake none cur t).1 = none := by
  simp only [contourTake, h, Bool.false_eq_true, if_false]

section
variable {c : Core} (t id : Nat) (floor : Word) (hbwph : c.sys.bwphLate = none) (hdivp : c.sys.divpLate = none)
include hbwph hdivp

theorem Core.contour_pending (hb : c.sys.bwph.getLsbD 63 = true) (hd : c.sys.divp.getLsbD 63 = true) :
    (c.contour t id floor).sys = { c.sys with
      bwpa := c.sys.bwph &&& 0x7FFFFFFFFFFFFFFF#64, bwph := c.sys.bwph &&& 0x7FFFFFFFFFFFFFFF#64,
      diva := raiseDiv (c.sys.divp &&& 0x7FFFFFFFFFFFFFFF#64) floor, divp := c.sys.divp &&& 0x7FFFFFFFFFFFFFFF#64, contid := BitVec.ofNat 64 id } := by
  simp only [Core.contour, hbwph, hdivp, contourTake_pending hb, contourTake_pending hd]
  rfl

theorem Core.contour_nothing (hb : c.sys.bwph.getLsbD 63 = false) (hd : c.sys.divp.getLsbD 63 = false) :
    (c.contour t id floor).sys.bwpa = c.sys.bwpa ∧ (c.contour t id floor).sys.diva = c.sys.diva ∧ (c.contour t id floor).banks = c.banks := by
  simp [Core.contour, hbwph, hdivp, contourTake_nothing hb, contourTake_nothing hd]

end

/-- Settles O27. -/
theorem contourAppliesPending : Obligations.ContourAppliesPending := by
  unfold Obligations.ContourAppliesPending
  refine ⟨fun c t id floor hbwph hdivp hb hd => ?_, fun c t id floor => Core.contour_nothing t id floor, fun c t id floor => ⟨_, _, rfl⟩⟩
  rw [Core.contour_pending t id floor hbwph hdivp hb hd]
  exact ⟨rfl, rfl, rfl, rfl, rfl⟩

end Sys2Proof.Machine

/-! PROOFS. What ACQ, AREL, OCLAIM and OREL do at their landing tick (O33). -/

namespace Sys2Proof.Machine

/-- What ACQ without .z makes of its bank: held and of the type, its rows as they stand (R132). -/
def Core.acquire (c : Core) (a ty now : Nat) : Core := c.setBank a { c.bank a with held := true, ty := ty, st := 2, last := now }

@[simp] theorem Core.row_acquire (c : Core) (a ty now r : Nat) : (c.acquire a ty now).row r = c.row r := rfl
@[simp] theorem Core.bank_acquire (c : Core) (a ty now : Nat) : (c.acquire a ty now).bank a = { c.bank a with held := true, ty := ty, st := 2, last := now } :=
  c.bank_setBank_self ..

section
variable (c old : Core) (t now : Nat)

theorem Core.land_acq_keep (a ty : Nat) : c.land old t now (.acq a ty false) = c.acquire a ty now := rfl

theorem Core.land_acq_zero (a ty : Nat) :
    c.land old t now (.acq a ty true) = ((List.range 16).foldl (fun c i => c.setRow (16 * a + i) 0#1024) (c.acquire a ty now)).bankWrite a now := rfl

theorem Core.row_land_acq (a ty : Nat) (z : Bool) (r : Nat) :
    (c.land old t now (.acq a ty z)).row r = if z = true ∧ 16 * a ≤ r ∧ r < 16 * a + 16 then 0#1024 else c.row r := by
  cases z with
  | false => simp [Core.land_acq_keep]
  | true =>
    rw [Core.land_acq_zero, Core.row_bankWrite, Core.row_foldl_setRow_zero, Core.row_acquire]
    exact if_congr (by simp) rfl rfl

theorem Core.bank_land_acq (a ty : Nat) (z : Bool) : ((c.land old t now (.acq a ty z)).bank a).held = true ∧ ((c.land old t now (.acq a ty z)).bank a).ty = ty := by
  cases z with
  | false => simp [Core.land_acq_keep]
  | true =>
    have hbank := Core.foldl_keeps (·.bank a) (f := fun c i => c.setRow (16 * a + i) 0#1024) (fun c i => c.bank_setRow a _ _) (List.range 16) (c.acquire a ty now)
    simp [Core.land_acq_zero, hbank]

theorem Core.land_arel (a : Nat) : ((c.land old t now (.arel a)).bank a).held = false ∧ ∀ r, (c.land old t now (.arel a)).row r = c.row r := by
  simp [Core.land]

variable {c} {o : Nat}

theorem Core.land_oclaim_unclaimed (h : (c.slot o).claimed = false) :
    (c.land old t now (.oclaim o)).slot o = { c.slot o with claimed := true, ready := false } := by
  simp [Core.land, h]

theorem Core.land_oclaim_claimed (h : (c.slot o).claimed = true) : c.land old t now (.oclaim o) = c := by
  simp [Core.land, h]

theorem Core.land_orel_claimed (h : (c.slot o).claimed = true) :
    (c.land old t now (.orel o)).slot o = { claimed := false, ready := false, gen := ((c.slot o).gen + 1) % 2 ^ 32 } := by
  simp [Core.land, h]

theorem Core.land_orel_unclaimed (h : (c.slot o).claimed = false) : c.land old t now (.orel o) = c := by
  simp [Core.land, h]

end

/-- A row that writes a bit of a bank that is not held is a fault (R132). -/
theorem Core.landFault_unheld {c : Core} {r : Nat} {m : Row} (hm : m ≠ 0#1024) (h : (c.bank (r / 16)).held = false) (bad : List (Nat × Nat)) (v : Row) :
    c.landFault bad (.rows [(r, m, v)]) = some 0x0E := by
  simp [Core.landFault, hm, h]

/-- Settles O33. -/
theorem banksAndSlotsLand : Obligations.BanksAndSlotsLand := by
  unfold Obligations.BanksAndSlotsLand
  refine ⟨fun c old t now a ty z => ?_, fun c old t now a => c.land_arel old t now a, fun c old t now o => ⟨fun h => ?_, Core.land_oclaim_claimed old t now⟩,
    fun c old t now o => ⟨Core.land_orel_claimed old t now, Core.land_orel_unclaimed old t now⟩, fun c bad r m v hm h => Core.landFault_unheld hm h bad v⟩
  · obtain ⟨hheld, hty⟩ := c.bank_land_acq old t now a ty z
    have hrow := c.row_land_acq old t now a ty z
    refine ⟨hheld, hty, fun hz k hk => ?_, fun hz r => ?_, fun r hr => ?_⟩
    · exact (hrow _).trans (if_pos ⟨hz, by omega, by omega⟩)
    · exact (hrow r).trans (if_neg (by simp [hz]))
    · exact (hrow r).trans (if_neg (by omega))
  · rw [Core.land_oclaim_unclaimed old t now h]
    exact ⟨rfl, rfl⟩

end Sys2Proof.Machine

/-! PROOFS. The bank, slot and legend syllables at issue (O32). -/

namespace Sys2Proof.Machine

@[simp] theorem Chk.andThen_ok (b : Chk) : Chk.andThen .ok b = b := rfl

/-- Legends that pass R219 are valid one by one, and reading them meets no error. -/
theorem State.legendChk_ok {s : State} {l n : Nat} (h : s.legendChk l n = .ok) :
    (∀ i < n, s.me.legendFault (l + i) = none) ∧ s.legendsGood l n = .ok := by
  unfold State.legendChk at h
  cases hfault : s.me.legendsFault l n with
  | some k => simp [hfault] at h
  | none =>
    refine ⟨fun i hi => ?_, by simpa [hfault] using h⟩
    exact List.findSome?_eq_none_iff.mp hfault i (List.mem_range.mpr hi)

/-- Valid legends of which none is a codebook build pass the check of LGSUM (R226). -/
theorem State.sumChk_ok {s : State} {l n : Nat} (hvalid : ∀ i < n, s.me.legendFault (l + i) = none)
    (hkind : ((List.range n).all fun i => (s.me.desc (l + i)).kind != 2) = true) : s.sumChk l n = .ok := by
  unfold State.sumChk
  rw [List.findSome?_eq_none_iff.mpr]
  intro i hi
  have hk : (s.me.desc (l + i)).kind ≠ 2 := by simpa using List.all_eq_true.mp hkind i hi
  simp [hvalid i (List.mem_range.mp hi), hk]

section
variable {s : State} {g : BitVec 4} (hg : s.guardM g = true)
include hg

/-! ### Banks and slots (R131, R132, R227) -/

theorem exec_acq (n : BitVec 6) (ty : BitVec 2) (z : BitVec 1) : exec (.acq g n ty z) s = .next (s.mat 1 false [.acq n.toNat ty.toNat (z == 1#1)]) := by
  show execAcq g n ty z s = _
  simp only [execAcq, hg, if_true]

theorem exec_arel (n : BitVec 6) : exec (.arel g n) s = .next (s.mat 1 false [.arel n.toNat]) := by
  show execArel g n s = _
  simp only [execArel, hg, if_true]

theorem exec_oclaim (n : BitVec 6) : exec (.oclaim g n) s = .next (s.mat 1 false [.oclaim n.toNat]) := by
  show execOclaim g n s = _
  simp only [execOclaim, hg, if_true]

theorem exec_orel (n : BitVec 6) : exec (.orel g n) s = .next (s.mat 1 false [.orel n.toNat]) := by
  show execOrel g n s = _
  simp only [execOrel, hg, if_true]

theorem exec_owr (o r : BitVec 6) {vs : BitVec 10} (hheld : s.heldOk [s.vrow vs] = .ok) (hgood : s.rowsGood [s.vrow vs] = .ok) :
    exec (.owr g o r vs) s = .next (s.mat 2 true [.slot o.toNat (128 * r.toNat) (rowBytes (s.me.row (s.vrow vs)))]) := by
  show execOwr g o r vs s = _
  simp only [execOwr, hg, if_true, hheld, hgood, Chk.seq_ok, State.gate_ok]

/-! ### Legends (R224 to R226) -/

theorem exec_lginv (l n : BitVec 8) : exec (.lginv g l n) s = .next (s.mat 1 false [.lginv l.toNat (n.toNat + 1)]) := by
  show execLginv g l n s = _
  simp only [execLginv, hg, if_true]

theorem exec_lgsave {l n : BitVec 8} {o : BitVec 6} (pos : BitVec 3) (hchk : s.legendChk l.toNat (n.toNat + 1) = .ok) (hclaimed : (s.me.slot o.toNat).claimed = true) :
    exec (.lgsave g l n o pos) s = .next (s.mat (2 * (n.toNat + 1) + 2) true [.slot o.toNat (1024 * pos.toNat)
      ((List.range (n.toNat + 1)).flatMap fun i => (List.range 256).flatMap fun e => leBytes 4 (s.me.entry (l.toNat + i) e).toNat)]) := by
  show execLgsave g l n o pos s = _
  simp only [execLgsave, hg, if_true, hchk, hclaimed, Chk.need_true, Chk.andThen_ok, State.gate_ok]

theorem exec_lgload (l n : BitVec 8) {o : BitVec 6} (pos : BitVec 3) (hclaimed : (s.me.slot o.toNat).claimed = true) (hready : (s.me.slot o.toNat).ready = true)
    (hgood : s.bad.contains (2, s.ctx.core, o.toNat) = false) :
    exec (.lgload g l n o pos) s = .next (s.fly { s.op 3 (2 * (n.toNat + 1) + 2) (s.me.divisor 2)
      [.legends (s.me.loadLegends s.ctx.word l.toNat (n.toNat + 1) o.toNat pos.toNat (s.me.slot o.toNat).gen)] with
        kind := .fill, wide := true, gens := BitVec.ofNat 64 ((s.me.slot o.toNat).gen * 2 ^ 32) }) := by
  show execLgload g l n o pos s = _
  simp only [execLgload, hg, if_true, hclaimed, hready, hgood, Bool.false_eq_true, if_false, Chk.need_true, Chk.andThen_ok, State.gate_ok]

theorem exec_lgsum {l n : BitVec 8} {vd : BitVec 10} (hheld : s.heldOk [s.vrow vd] = .ok) (hty : s.me.rowType (s.vrow vd) < 2)
    (hchk : s.legendChk l.toNat (n.toNat + 1) = .ok) (hkind : ((List.range (n.toNat + 1)).all fun i => (s.me.desc (l.toNat + i)).kind != 2) = true) :
    exec (.lgsum g l n vd) s = .next (s.mat 6 true [wholeRow (s.vrow vd) (ofLanes 32 ((List.range (n.toNat + 1)).map fun k =>
      BitVec.ofNat 32 (s.me.rowSum (s.me.rowType (s.vrow vd)) (l.toNat + k))))]) := by
  obtain ⟨hvalid, hgood⟩ := State.legendChk_ok hchk
  have hsum := State.sumChk_ok hvalid hkind
  show execLgsum g l n vd s = _
  simp only [execLgsum, hg, if_true, hheld, hty, decide_true, hsum, hgood, Chk.need_true, Chk.andThen_ok, State.gate_ok]

end

/-- Settles O32, syllable by syllable. -/
theorem banksAndSlotsIssue : Obligations.BanksAndSlotsIssue := by
  unfold Obligations.BanksAndSlotsIssue
  exact ⟨fun _ n ty z _ hg => ⟨exec_acq hg n ty z, exec_arel hg n, exec_oclaim hg n, exec_orel hg n⟩, fun _ o r _ _ hg => exec_owr hg o r,
    fun _ l n _ hg => exec_lginv hg l n, fun _ _ _ _ pos _ hg => exec_lgsave hg pos, fun _ l n _ pos _ hg => exec_lgload hg l n pos,
    fun _ _ _ _ _ hg => exec_lgsum hg⟩

end Sys2Proof.Machine

/-! PROOFS. RESULT_LANDING of one due operation, and VSEND_ARRIVAL (O39). -/

namespace Sys2Proof.Machine

/-! ### What a landing leaves in flight -/

theorem Core.sysWrite_ops (c : Core) (n : Nat) (v : Word) (t : Option Nat) : (c.sysWrite n v t).ops = c.ops := by
  unfold Core.sysWrite
  dsimp only
  (repeat' split) <;> rfl

theorem Core.landWindow_ops (c : Core) (now p : Nat) (v : Word) : (c.landWindow now p v).ops = c.ops := by
  unfold Core.landWindow
  dsimp only
  split <;> rfl

/-- A landing leaves the operations in flight to RESULT_LANDING. -/
theorem Core.land_ops (c old : Core) (t now : Nat) (l : Land) : (c.land old t now l).ops = c.ops := by
  cases l with
  | wreg p v => exact c.landWindow_ops now p v
  | sys n v => exact c.sysWrite_ops n v _
  | rows rs =>
    simp only [Core.land]
    split
    · rfl
    · rw [Core.ops_bankWrite]
      exact Core.foldl_keeps Core.ops (fun c r => c.ops_setRow ..) rs c
  | acc a fw ps =>
    rw [Core.land, Core.ops_bankWrite]
    exact Core.foldl_keeps Core.ops (fun c p => c.ops_setRow ..) ps c
  | mzero a r n =>
    rw [Core.land, Core.ops_bankWrite]
    exact Core.foldl_keeps Core.ops (fun c i => c.ops_setRow ..) (List.range r) c
  | acq a ty z =>
    cases z with
    | false => rfl
    | true =>
      rw [Core.land_acq_zero, Core.ops_bankWrite]
      exact Core.foldl_keeps Core.ops (fun c i => c.ops_setRow ..) (List.range 16) (c.acquire a ty now)
  | oclaim o | orel o =>
    simp only [Core.land]
    split <;> rfl
  | legends | entries =>
    refine Core.foldl_keeps Core.ops (fun c x => ?_) _ c
    rfl
  | _ => rfl

/-! ### RESULT_LANDING of one due operation (R132, R142) -/

/-- A core after operation `o` has landed as `l`, its only landing. -/
def Core.landed (c : Core) (now : Nat) (o : Op) (l : Land) : Core := { c.land c c.tick now l with ops := c.ops.filter fun p => p != o }

section
variable {n : Nat} {s : State} {o : Op} {l : Land} (hdue : (s.core n).dueLandings = [o]) (hlands : o.lands = [l])
include hlands

theorem State.applyOp_single (hmesh : ∀ m v, l ≠ .mesh m v) (hpush : o.push = none) (old : Core) :
    s.applyOp n old o = (s.modCore n fun c => c.land old c.tick s.power.ref l).modCore n fun c => { c with ops := c.ops.filter fun p => p != o } := by
  unfold State.applyOp
  rw [hlands, hpush]
  cases l with
  | mesh m v => exact absurd rfl (hmesh m v)
  | _ => rfl

include hdue

theorem exec_resultLanding_lands (hfault : (s.core n).landFault (s.badOf n) l = none) (hmesh : ∀ m v, l ≠ .mesh m v) (hpush : o.push = none) :
    ∃ t, exec (.resultLanding n) s = .next t ∧ t.core n = (s.core n).landed s.power.ref o l ∧ (∀ m, m ≠ n → t.core m = s.core m) ∧ t.hbm = s.hbm ∧
      t.groups = s.groups := by
  refine ⟨s.applyOp n (s.core n) o, ?_, ?_⟩
  · show execResultLanding n s = _
    simp [execResultLanding, hdue, hlands, hfault, tokenOver, hpush]
  · rw [State.applyOp_single hlands hmesh hpush]
    refine ⟨?_, fun m hm => ?_, rfl, rfl⟩
    · simp only [State.core_modCore_self, Core.land_ops, Core.landed]
    · rw [State.core_modCore_other _ _ hm, State.core_modCore_other _ _ hm]

/-- A landing that faults stops the group at its operation, which has the cause, with nothing landed. -/
theorem exec_resultLanding_stops {k : Nat} (hfault : (s.core n).landFault (s.badOf n) l = some k) :
    exec (.resultLanding n) s = .next ((s.modCore n fun c => { c with ops := c.ops.map fun p => if o == p then { p with cause := k } else p }).stop n
      { cause := k, engine := o.engine, iseq := o.iseq }) := by
  show execResultLanding n s = _
  simp only [execResultLanding, hdue, List.filterMap_cons, List.filterMap_nil, hlands, List.findSome?_cons, hfault, Option.map_some, List.foldl_nil]
  refine congrArg (fun mark => Host.Outcome.next (State.stop (s.modCore n fun c => { c with ops := c.ops.map mark }) n _)) (funext fun p => ?_)
  cases hp : o == p <;> simp [hp]

end

/-! ### What each landing writes -/

/-- A landed c register shows at once (R162). -/
theorem Ctrl.cNow_cPut (k : Ctrl) (n t : Nat) (v : Bool) : (k.cPut n t v).cNow n = v := by
  simp [Ctrl.cNow, Ctrl.cPut]

theorem blend_zero (old new : Row) : blend 0#1024 old new = old := by
  rw [blend, BitVec.and_zero, BitVec.or_zero, BitVec.not_zero, BitVec.and_allOnes]

section
variable (c : Core) (now : Nat) (o : Op)

/-! Registers of the X-stream (R142, R152, R162). -/

theorem Core.landed_greg (r : Nat) (v : Word) : sget 0#64 r (c.landed now o (.greg r v)).x.g = v ∧
    ∀ k, k ≠ r → sget 0#64 k (c.landed now o (.greg r v)).x.g = sget 0#64 k c.x.g :=
  ⟨sget_sset_self .., fun _ hk => sget_sset_other _ _ _ hk⟩

theorem Core.landed_wreg_file {p : Nat} (v : Word) (hlow : c.x.low ≤ p) (htop : p < c.x.base + c.x.frame) :
    sget 0#64 p (c.landed now o (.wreg p v)).x.win = v ∧ (c.landed now o (.wreg p v)).sp = c.sp := by
  have hland : c.land c c.tick now (.wreg p v) = { c with x := { c.x with win := sset 0#64 p v c.x.win } } := if_pos ⟨hlow, htop⟩
  rw [Core.landed, hland]
  exact ⟨sget_sset_self .., rfl⟩

/-- A position that the file does not hold lands in its slot of bank 31. -/
theorem Core.landed_wreg_spilled {p : Nat} (v : Word) (h : p < c.x.low ∨ c.x.base + c.x.frame ≤ p) :
    Memory.word (c.landed now o (.wreg p v)).sp (spillSlot p) = v ∧ (c.landed now o (.wreg p v)).x = c.x := by
  have hland : c.land c c.tick now (.wreg p v) = ({ c with sp := Memory.store c.sp (spillSlot p) (wordBytes v) } : Core).touch now 31 true := if_neg (by omega)
  rw [Core.landed, hland]
  exact ⟨Memory.word_store .., rfl⟩

theorem Core.landed_creg (r : Nat) (v : Bool) : (c.landed now o (.creg r v)).x.k.cNow r = v := Ctrl.cNow_cPut ..

theorem Core.landed_preg (r : Nat) (m v : Word) : (c.landed now o (.preg r m v)).pred r = (c.pred r &&& ~~~m) ||| (v &&& m) ∧
    ∀ k, k ≠ r → (c.landed now o (.preg r m v)).pred k = c.pred k :=
  ⟨sget_sset_self .., fun _ hk => sget_sset_other _ _ _ hk⟩

theorem Core.landed_breg (r : Nat) (v : Word) (ready : Nat) :
    sget {} r (c.landed now o (.breg r v ready)).x.k.b = { val := v, ready := ready, fetched := false } :=
  sget_sset_self ..

theorem Core.landed_lcnt (r : Nat) (v : Word) : sget 0#64 r (c.landed now o (.lcnt r v)).x.k.lc = v ∧
    ∀ k, k ≠ r → sget 0#64 k (c.landed now o (.lcnt r v)).x.k.lc = sget 0#64 k c.x.k.lc :=
  ⟨sget_sset_self .., fun _ hk => sget_sset_other _ _ _ hk⟩

/-! System registers (R113, R124, R177, R180). -/

theorem Core.landed_bwph (v : Word) : (c.landed now o (.sys 0x020 v)).sys.bwph = (v &&& 0xFFFFFFFFFF#64) ||| 0x8000000000000000#64 ∧
    (c.landed now o (.sys 0x020 v)).sys.bwpa = c.sys.bwpa :=
  ⟨rfl, rfl⟩

theorem Core.landed_divp (v : Word) : (c.landed now o (.sys 0x1050 v)).sys.divp = (v &&& 0xFFFF#64) ||| 0x8000000000000000#64 ∧
    (c.landed now o (.sys 0x1050 v)).sys.diva = c.sys.diva :=
  ⟨rfl, rfl⟩

theorem Core.landed_lvl {k : Nat} (v : Word) (hk : k < 6) (hlevels : k < c.sys.levels) (hfree : (sget 0#64 k c.sys.lvl).toNat < 2 ^ 60) :
    sget 0#64 k (c.landed now o (.sys (0x010 + k) v)).sys.lvl =
      (sget 0#64 k c.sys.lvl &&& 0xF0000000FFFFFFFF#64) ||| (v &&& 0x0FFFFFFF00000000#64) := by
  have hdiv : (sget 0#64 k c.sys.lvl).toNat / 2 ^ 60 = 0 := Nat.div_eq_of_lt hfree
  have hrange : 0x010 ≤ 0x010 + k ∧ 0x010 + k < 0x016 ∧ k < c.sys.levels := ⟨by omega, by omega, hlevels⟩
  show sget 0#64 k (c.sysWrite (0x010 + k) v (some c.tick)).sys.lvl = _
  rw [Core.sysWrite, if_neg (by omega), if_neg (by omega)]
  simp only [Nat.add_sub_cancel_left, if_pos hrange, if_pos hdiv]
  exact sget_sset_self ..

/-- A number below 0x100 that is not BWPH's or an LVL's has no writable field. -/
theorem Core.landed_sys_other {r : Nat} (v : Word) (hr : r < 0x100) (hbwph : r ≠ 0x020) (hlvl : r < 0x010 ∨ 0x016 ≤ r) :
    (c.landed now o (.sys r v)).sys = c.sys := by
  show (c.sysWrite r v (some c.tick)).sys = c.sys
  rw [Core.sysWrite]
  repeat rw [if_neg (by omega)]

/-! Rows, slots and legends (R132, R142, R217, R220, R224). -/

theorem Core.landed_row (r : Nat) (m v : Row) : (c.landed now o (.rows [(r, m, v)])).row r = blend m (c.row r) v ∧
    ∀ k, k ≠ r → (c.landed now o (.rows [(r, m, v)])).row k = c.row k := by
  by_cases hm : m = 0#1024
  · have hland : c.land c c.tick now (.rows [(r, m, v)]) = c := by simp [Core.land, hm]
    rw [Core.landed, hland, hm, blend_zero]
    exact ⟨rfl, fun _ _ => rfl⟩
  · have hland : c.land c c.tick now (.rows [(r, m, v)]) = (c.setRow r (blend m (c.row r) v)).bankWrite (r / 16) now := by simp [Core.land, hm]
    rw [Core.landed, hland]
    exact ⟨c.row_setRow_self r _, fun k hk => c.row_setRow_other _ hk⟩

theorem Core.landed_slot {k : Nat} (off : Nat) (d : Bytes) (hclaimed : (c.slot k).claimed = true) :
    (c.landed now o (.slot k off d)).slot k = { claimed := true, ready := true, gen := ((c.slot k).gen + 1) % 2 ^ 32 } ∧
      (c.landed now o (.slot k off d)).e.slotMem = Memory.store c.e.slotMem (8192 * k + off) d := by
  have hslot : (c.landed now o (.slot k off d)).slot k = { claimed := (c.slot k).claimed, ready := true, gen := ((c.slot k).gen + 1) % 2 ^ 32 } :=
    sget_sset_self ..
  rw [hslot, hclaimed]
  exact ⟨rfl, rfl⟩

theorem Core.landed_legend (k : Nat) (d : Desc) (es : List (BitVec 32)) : (c.landed now o (.legends [(k, d, es)])).desc k = d ∧
    (es.length = 256 → ∀ e, e < 256 → (c.landed now o (.legends [(k, d, es)])).entry k e = es.getD e 0#32) :=
  ⟨sget_sset_self .., fun hlen e he => sget_foldl_sset_zipIdx 0#32 (256 * k) es 0 c.e.ent (Nat.zero_le e) (by omega)⟩

theorem Core.landed_lginv (k m j : Nat) : (c.landed now o (.lginv k m)).desc j = if k ≤ j ∧ j < k + m then {} else c.desc j := by
  refine (sget_sclear _ k m j _).trans ?_
  by_cases h : k ≤ j ∧ j < k + m
  · rw [if_pos h, if_neg (by omega)]
  · rw [if_neg h, if_pos (by omega)]
    rfl

end

/-- A slot's bytes that land meet a claimed slot (R132). -/
theorem Core.claimed_of_landFault {c : Core} {bad : List (Nat × Nat)} {o off : Nat} {d : Bytes} (h : c.landFault bad (.slot o off d) = none) :
    (c.slot o).claimed = true := by
  cases hclaimed : (c.slot o).claimed with
  | true => rfl
  | false => simp [Core.landFault, hclaimed] at h

/-! ### VSEND_ARRIVAL (R199) -/

/-- The row of the VSEND that reserved the only entry of q7 makes it present. -/
theorem Core.head_fillSent {c : Core} {e : Entry} {m k t : Nat} (hq : (c.queue 7).es = [e]) (hfilled : e.filled = false) (hpresent : e.present ≤ t)
    (hsrc : e.src = some (m, k)) (v : Row) : (c.fillSent m k v).head 7 t = some { e with filled := true, val := v } := by
  simp [Core.fillSent, Core.head, hq, hfilled, hsrc, hpresent]

theorem exec_vsendArrival_fills {n m k d : Nat} {s : State} {e : Entry} {o : Op} {v : Row} (hq : ((s.core n).queue 7).es = [e]) (hfilled : e.filled = false)
    (hpresent : e.present ≤ (s.core n).tick) (hsrc : e.src = some (m, k)) (hop : (s.core m).ops.find? (fun o => o.iseq == k && o.engine == 2) = some o)
    (hlands : o.lands = [.mesh d v]) : exec (.vsendArrival n) s = .next (s.modCore n fun c => c.fillSent m k v) := by
  show execVsendArrival n s = _
  simp [execVsendArrival, hq, hfilled, hpresent, hsrc, hop, hlands]

/-- Settles O39: the landing by its kind, a row into a bank not held, and the arrival of a VSEND row. -/
theorem resultLanding : Obligations.ResultLanding := by
  unfold Obligations.ResultLanding
  refine ⟨fun n s o l hdue hlands hfault hmesh hpush => ?_, fun n s o r m v hdue hlands hm hheld => ?_,
    fun n m k d s e o v hq hfilled hpresent hsrc hop hlands => ?_⟩
  · obtain ⟨t, hexec, hcore, hother, hhbm, hgroups⟩ := exec_resultLanding_lands hdue hlands hfault hmesh hpush
    refine ⟨t, hexec, hother, hhbm, hgroups, ?_⟩
    rw [hcore]
    refine ⟨rfl, ?greg, ?wregFile, ?wregSpilled, ?creg, ?row, ?preg, ?breg, ?lcnt, ?bwph, ?divp, ?lvl, ?sysOther, ?entry, ?slot, ?legend, ?lginv, ?ipsel, ?iptab⟩
    case greg => rintro r v rfl; exact Core.landed_greg ..
    case wregFile => rintro p v rfl; exact Core.landed_wreg_file _ _ _ v
    case wregSpilled => rintro p v rfl; exact Core.landed_wreg_spilled _ _ _ v
    case creg => rintro r v rfl; exact Core.landed_creg ..
    case row => rintro r m v rfl; exact Core.landed_row ..
    case preg => rintro r m v rfl; exact Core.landed_preg ..
    case breg => rintro r v ready rfl; exact Core.landed_breg ..
    case lcnt => rintro r v rfl; exact Core.landed_lcnt ..
    case bwph => rintro v rfl; exact Core.landed_bwph ..
    case divp => rintro v rfl; exact Core.landed_divp ..
    case lvl => rintro k v rfl; exact Core.landed_lvl _ _ _ v
    case sysOther => rintro r v rfl; exact Core.landed_sys_other _ _ _ v
    case entry => rintro q k v rfl; rfl
    case slot => rintro k off d rfl; exact Core.landed_slot _ _ _ off d (Core.claimed_of_landFault hfault)
    case legend => rintro k d es rfl; exact Core.landed_legend ..
    case lginv => rintro k m rfl; exact Core.landed_lginv _ _ _ k m
    case ipsel => rintro fn rfl; rfl
    case iptab => rintro k tab rfl; exact sget_sset_self ..
  · exact exec_resultLanding_stops hdue hlands (Core.landFault_unheld hm hheld _ v)
  · refine ⟨_, exec_vsendArrival_fills hq hfilled hpresent hsrc hop hlands, ?_, fun j hj => State.core_modCore_other _ _ hj⟩
    rw [State.core_modCore_self]
    exact Core.head_fillSent hq hfilled hpresent hsrc v

end Sys2Proof.Machine

/-! PROOFS. The order of a queue's entries (O38). -/

namespace Sys2Proof.Machine

/-! ### Heads, fills and reservations (R138, R139) -/

section
variable {c : Core} {q : Nat} {e : Entry} {rest : List Entry}

theorem Core.head_cons (h : (c.queue q).es = e :: rest) (tick : Nat) :
    c.head q tick = if e.filled && decide (e.present ≤ tick) then some e else none := by
  simp only [Core.head, h]

/-- A filled head shows from its tick on. -/
theorem Core.head_filled {tick : Nat} (h : (c.queue q).es = e :: rest) (hfilled : e.filled = true) (hpresent : e.present ≤ tick) :
    c.head q tick = some e := by
  rw [Core.head_cons h, hfilled, decide_eq_true hpresent]
  rfl

/-- An unfilled head leaves the queue empty to a pop. -/
theorem Core.head_unfilled (h : (c.queue q).es = e :: rest) (hfilled : e.filled = false) (tick : Nat) : c.head q tick = none := by
  rw [Core.head_cons h, hfilled]
  rfl

/-- A fill finds its entry by the distance of its number from the pops taken. -/
theorem Core.fillEntry_es (c : Core) (q n : Nat) (v : Row) : ((c.fillEntry q n v).queue q).es = (c.queue q).es.mapIdx fun i e =>
    if i = (n + 65536 - (c.queue q).pops % 65536) % 65536 && !e.filled then { e with filled := true, val := v } else e := by
  rw [Core.fillEntry, Core.queue_setQueue_self]

/-- A fill behind the head leaves the head. -/
theorem Core.fillEntry_behind {n : Nat} (h : (c.queue q).es = e :: rest) (hpops : (c.queue q).pops < 65536) (hn : n < 65536)
    (hne : n ≠ (c.queue q).pops) (v : Row) : ∃ rest', ((c.fillEntry q n v).queue q).es = e :: rest' := by
  have hplace : ¬ 0 = (n + 65536 - (c.queue q).pops % 65536) % 65536 := by omega
  rw [Core.fillEntry_es, h, List.mapIdx_cons, decide_eq_false hplace]
  exact ⟨_, rfl⟩

/-- The number of the head is the count of pops, and a fill with it fills the head. -/
theorem Core.fillEntry_head (h : (c.queue q).es = e :: rest) (hfilled : e.filled = false) (v : Row) :
    ∃ rest', ((c.fillEntry q (c.queue q).pops v).queue q).es = { e with filled := true, val := v } :: rest' := by
  have hplace : 0 = ((c.queue q).pops + 65536 - (c.queue q).pops % 65536) % 65536 := by omega
  rw [Core.fillEntry_es, h, List.mapIdx_cons, decide_eq_true hplace, hfilled]
  exact ⟨_, rfl⟩

end

@[simp] theorem Core.pop_queue_self (c : Core) (q : Nat) :
    (c.pop q).queue q = { es := (c.queue q).es.drop 1, pops := ((c.queue q).pops + 1) % 65536 } :=
  Core.queue_setQueue_self c q _

@[simp] theorem Core.reserve_queue_self (c : Core) (q : Nat) (e : Entry) :
    (c.reserve q e).1.queue q = { c.queue q with es := (c.queue q).es ++ [e] } :=
  Core.queue_setQueue_self c q _

/-- A reservation behind another entry changes no head. -/
theorem Core.head_reserve {c : Core} {q : Nat} (h : (c.queue q).es ≠ []) (e : Entry) (tick : Nat) : (c.reserve q e).1.head q tick = c.head q tick := by
  obtain ⟨f, rest, hes⟩ := List.exists_cons_of_ne_nil h
  have hres : ((c.reserve q e).1.queue q).es = f :: (rest ++ [e]) := by rw [Core.reserve_queue_self, hes, List.cons_append]
  rw [Core.head_cons hres, Core.head_cons hes]

/-- Settles O38: what each operation leaves at the head. -/
theorem queueOrder : Obligations.QueueOrder := by
  unfold Obligations.QueueOrder
  refine ⟨fun c q n tick e rest v hes hfilled hpops hn hne => ?behind, fun c q tick e rest v hes hfilled _ hpresent => ?head,
    fun c q tick e f rest hes hfilled hpresent => ?pop, fun c q tick e hne => Core.head_reserve hne e tick,
    fun c q e => ⟨by simp, rfl⟩, fun c q => by simp [Core.full]⟩
  case behind =>
    obtain ⟨rest', hes'⟩ := Core.fillEntry_behind hes hpops hn hne v
    exact Core.head_unfilled hes' hfilled tick
  case head =>
    obtain ⟨rest', hes'⟩ := Core.fillEntry_head hes hfilled v
    exact Core.head_filled hes' rfl hpresent
  case pop =>
    have hes' : ((c.pop q).queue q).es = f :: rest := by simp [hes]
    exact ⟨Core.head_filled hes' hfilled hpresent, by simp [hes]⟩

end Sys2Proof.Machine

/-! PROOFS. Queue moves and the interpolation engine at issue: what completes (O36), what faults or waits (O37), and what issue leaves alone (O17). -/

namespace Sys2Proof.Machine

/-! ### The checks of a move (R138, R141) -/

@[simp] theorem Chk.seq_ok_right (a : Chk) : a.seq .ok = a := by cases a <;> rfl

/-- A wait comes before whatever another check finds. -/
@[simp] theorem Chk.seq_waits (w : Slip) (b : Chk) : Chk.seq (.waits w) b = .waits w := rfl

/-- Two checks that find nothing find nothing together. -/
theorem Chk.seq_eq_ok {a b : Chk} (ha : a = .ok) (hb : b = .ok) : a.seq b = .ok := by rw [ha, hb, Chk.seq_ok]

theorem State.gate_congr {s : State} {f f' : State → State} (h : f s = f' s) (c : Chk) : s.gate c f = s.gate c f' := by
  cases c with
  | ok => exact h
  | waits | fault => rfl

section
variable {s : State} {op : BitVec 2} {ch : BitVec 4} {q : Nat} {md : BitVec 2}

theorem State.tokenChk_there (h : s.tokenThere op ch) : s.tokenChk op ch = .ok := if_neg fun ⟨hop, hnone⟩ => h hop hnone

theorem State.tokenChk_none (h : sget 0 ch.toNat s.me.tk = 0) : s.tokenChk 2#2 ch = .waits (.token ch.toNat) := if_pos ⟨rfl, h⟩

theorem State.popChk_goes (h : (s.me.head q s.ctx.tick).isSome = true ∨ md = 2#2) : s.popChk q md = .ok := by
  unfold State.popChk
  exact if_pos (by simpa using h)

theorem State.popChk_strict (h : s.me.head q s.ctx.tick = none) : s.popChk q 0#2 = .fault { cause := 0x08 } := by
  unfold State.popChk
  rw [h]
  rfl

theorem State.popChk_stalls (h : s.me.head q s.ctx.tick = none) : s.popChk q 1#2 = .waits (.pop q) := by
  unfold State.popChk
  rw [h]
  rfl

theorem State.pushChk_room (h : s.me.full q = false) : s.pushChk q md = .ok := by
  unfold State.pushChk
  rw [h]
  rfl

theorem State.pushChk_strict (h : s.me.full q = true) : s.pushChk q 0#2 = .fault { cause := 0x09 } := by
  unfold State.pushChk
  rw [h]
  rfl

theorem State.pushChk_stalls (h : s.me.full q = true) : s.pushChk q 1#2 = .waits (.room q) := by
  unfold State.pushChk
  rw [h]
  rfl

end

/-! ### Pops, pushes and their operations (R139, R141, R203) -/

theorem State.takeToken_eq (s : State) (op : BitVec 2) (ch : BitVec 4) : s.takeToken op ch = s.withToken op ch := rfl

@[simp] theorem State.withToken_ctx (s : State) (op : BitVec 2) (ch : BitVec 4) : (s.withToken op ch).ctx = s.ctx := by
  unfold State.withToken
  split <;> rfl

/-- A token pop takes one token of its channel and leaves the rest of the core. -/
theorem State.me_withToken (s : State) (op : BitVec 2) (ch : BitVec 4) : ∃ tk, (s.withToken op ch).me = { s.me with tk := tk } := by
  unfold State.withToken
  split
  · exact ⟨_, State.me_modMe ..⟩
  · exact ⟨s.me.tk, rfl⟩

@[simp] theorem State.me_withToken_sys (s : State) (op : BitVec 2) (ch : BitVec 4) : (s.withToken op ch).me.sys = s.me.sys := by
  obtain ⟨tk, h⟩ := s.me_withToken op ch
  rw [h]

@[simp] theorem State.me_withToken_e (s : State) (op : BitVec 2) (ch : BitVec 4) : (s.withToken op ch).me.e = s.me.e := by
  obtain ⟨tk, h⟩ := s.me_withToken op ch
  rw [h]

/-- An I-class operation is the same from every state of the issue with the same context and divisors. -/
theorem State.iOp_congr {s t : State} (hctx : t.ctx = s.ctx) (hsys : t.me.sys = s.me.sys) (lat : Nat) (wide : Bool) (op : BitVec 2) (ch : BitVec 4)
    (lands : List Land) : t.iOp lat wide op ch lands = s.iOp lat wide op ch lands := by
  simp only [State.iOp, Core.divisor, hctx, hsys]

/-- An operation in flight behind a token pop. -/
theorem State.fly_withToken (s : State) (lat : Nat) (wide : Bool) (op : BitVec 2) (ch : BitVec 4) (lands : List Land) :
    (s.withToken op ch).fly ((s.withToken op ch).iOp lat wide op ch lands) = (s.withToken op ch).fly (s.iOp lat wide op ch lands) := by
  rw [State.iOp_congr (s.withToken_ctx op ch) (s.me_withToken_sys op ch)]

/-- The head that a pop takes, when it is there and not only peeked at. -/
def State.headTaken (s : State) (q : Nat) (pk : BitVec 1) : State :=
  if (s.me.head q s.ctx.tick).isSome && pk == 0#1 then s.modMe fun c => c.pop q else s

theorem State.headTaken_keeps (s : State) (q : Nat) (pk : BitVec 1) : (s.headTaken q pk).ctx = s.ctx ∧ (s.headTaken q pk).me.sys = s.me.sys := by
  unfold State.headTaken
  split
  · rw [State.me_modMe]
    exact ⟨rfl, rfl⟩
  · exact ⟨rfl, rfl⟩

theorem State.popDone_eq (s : State) (q : Nat) (md : BitVec 2) (pk : BitVec 1) (cf : BitVec 3) (op : BitVec 2) (ch : BitVec 4) (wide : Bool)
    (dest : Row → Land) : s.popDone q md pk cf op ch wide dest = ((s.headTaken q pk).withToken op ch).fly (s.iOp 2 wide op ch
      (dest (((s.me.head q s.ctx.tick).map (·.val)).getD 0#1024) ::
        if md = 2#2 then [Land.creg cf.toNat (s.me.head q s.ctx.tick).isNone, .creg (cf.toNat + 1) (s.me.head q s.ctx.tick).isSome] else [])) := by
  simp only [State.popDone, State.headTaken, Bool.and_eq_true, beq_iff_eq]

theorem State.popTo_eq (s : State) (q : Nat) (md : BitVec 2) (pk : BitVec 1) (cf : BitVec 3) (op : BitVec 2) (ch : BitVec 4) (wide : Bool) (chk : Chk)
    (dest : Row → Land) : s.popTo q md pk cf op ch wide chk dest =
      s.gate ((chk.seq (s.popChk q md)).seq (s.tokenChk op ch)) fun s => s.popDone q md pk cf op ch wide dest := by
  refine State.gate_congr ?_ _
  obtain ⟨hctx, hsys⟩ := s.headTaken_keeps q pk
  rw [State.popDone_eq, ← State.iOp_congr hctx hsys, ← State.fly_withToken]
  rfl

/-- An entry reserved last in a queue. -/
def State.entryReserved (s : State) (q : Nat) : State := s.modMe fun _ => (s.me.reserve q emptyEntry).1

theorem State.entryReserved_keeps (s : State) (q : Nat) : (s.entryReserved q).ctx = s.ctx ∧ (s.entryReserved q).me.sys = s.me.sys := by
  rw [State.entryReserved, State.me_modMe]
  exact ⟨rfl, rfl⟩

theorem State.pushDone_eq (s : State) (q lat : Nat) (op : BitVec 2) (ch : BitVec 4) (wide : Bool) (v : Row) :
    s.pushDone q lat op ch wide v = ((s.entryReserved q).withToken op ch).fly
      (s.iOp lat wide op ch [.entries q [((s.me.reserve q emptyEntry).2, v)] none]) := rfl

theorem State.pushFrom_eq (s : State) (q : Nat) (md op : BitVec 2) (ch : BitVec 4) (wide : Bool) (chk : Chk) (v : State → Row) :
    s.pushFrom q md op ch wide chk v = s.gate ((chk.seq (s.pushChk q md)).seq (s.tokenChk op ch)) fun s => s.pushDone q 1 op ch wide (v s) := by
  refine State.gate_congr ?_ _
  obtain ⟨hctx, hsys⟩ := s.entryReserved_keeps q
  rw [State.pushDone_eq, ← State.iOp_congr hctx hsys, ← State.fly_withToken]
  rfl

section
variable {s : State} {q : Nat} {chk : Chk} (hchk : chk = .ok) {op : BitVec 2} {ch : BitVec 4} {wide : Bool}
include hchk

section
variable {md : BitVec 2} {pk : BitVec 1} {cf : BitVec 3} {dest : Row → Land}

theorem State.popTo_goes (hgoes : (s.me.head q s.ctx.tick).isSome = true ∨ md = 2#2) (ht : s.tokenThere op ch) :
    s.popTo q md pk cf op ch wide chk dest = s.popDone q md pk cf op ch wide dest := by
  rw [State.popTo_eq, hchk, State.popChk_goes hgoes, State.tokenChk_there ht]
  rfl

theorem State.popTo_strict (hempty : s.me.head q s.ctx.tick = none) (ht : s.tokenThere op ch) :
    s.popTo q 0#2 pk cf op ch wide chk dest = s.raise { cause := 0x08 } := by
  rw [State.popTo_eq, hchk, State.popChk_strict hempty, State.tokenChk_there ht]
  rfl

theorem State.popTo_stalls (hempty : s.me.head q s.ctx.tick = none) : s.popTo q 1#2 pk cf op ch wide chk dest = s.waiting (.pop q) := by
  rw [State.popTo_eq, hchk, State.popChk_stalls hempty]
  rfl

theorem State.popTo_noToken (hgoes : (s.me.head q s.ctx.tick).isSome = true ∨ md = 2#2) (hnone : sget 0 ch.toNat s.me.tk = 0) :
    s.popTo q md pk cf 2#2 ch wide chk dest = s.waiting (.token ch.toNat) := by
  rw [State.popTo_eq, hchk, State.popChk_goes hgoes, State.tokenChk_none hnone]
  rfl

end

variable {md : BitVec 2} {v : State → Row}

theorem State.pushFrom_goes (hroom : s.me.full q = false) (ht : s.tokenThere op ch) : s.pushFrom q md op ch wide chk v = s.pushDone q 1 op ch wide (v s) := by
  rw [State.pushFrom_eq, hchk, State.pushChk_room hroom, State.tokenChk_there ht]
  rfl

theorem State.pushFrom_strict (hfull : s.me.full q = true) (ht : s.tokenThere op ch) :
    s.pushFrom q 0#2 op ch wide chk v = s.raise { cause := 0x09 } := by
  rw [State.pushFrom_eq, hchk, State.pushChk_strict hfull, State.tokenChk_there ht]
  rfl

theorem State.pushFrom_stalls (hfull : s.me.full q = true) : s.pushFrom q 1#2 op ch wide chk v = s.waiting (.room q) := by
  rw [State.pushFrom_eq, hchk, State.pushChk_stalls hfull]
  rfl

theorem State.pushFrom_noToken (hroom : s.me.full q = false) (hnone : sget 0 ch.toNat s.me.tk = 0) :
    s.pushFrom q md 2#2 ch wide chk v = s.waiting (.token ch.toNat) := by
  rw [State.pushFrom_eq, hchk, State.pushChk_room hroom, State.tokenChk_none hnone]
  rfl

end

/-! ### The interpolation engine (R206, R208, R209) -/

/-- What IPLD asks of its slot after its token (R209). -/
def State.tableChk (s : State) (o : Nat) : Chk :=
  (Chk.need (s.me.slot o).claimed 0x10).andThen ((Chk.need (s.me.slot o).ready 0x0A).andThen
    ((if s.bad.contains (2, s.ctx.core, o) then Chk.fault (slotBad s.ctx.core o) else Chk.ok).andThen (Chk.need (s.tableOk o) 0x0C)))

theorem State.tableChk_ok {s : State} {o : Nat} (hclaimed : (s.me.slot o).claimed = true) (hready : (s.me.slot o).ready = true)
    (hgood : (2, s.ctx.core, o) ∉ s.bad) (htable : s.tableOk o = true) : s.tableChk o = .ok := by
  have hbad : s.bad.contains (2, s.ctx.core, o) = false := by simpa using hgood
  rw [State.tableChk, hclaimed, hready, hbad, htable]
  rfl

/-- What IPF asks of its row, of y0 and of its engine before its token (R208). -/
def State.ipfChk (s : State) (r : Nat) : Chk :=
  (((s.heldOk [r]).seq (Chk.need (s.me.rowType r == 0 || s.me.rowType r == 2) 0x0D)).seq (Chk.need (!s.me.full 18) 0x09)).seq
    ((Chk.need (decide (s.me.e.ipfEnd ≤ s.ctx.tick)) 0x0A).seq (s.rowsGood [r]))

/-- With nothing else wrong, IPF asks for room in y0 (R208). -/
theorem State.ipfChk_eq {s : State} {r : Nat} (hheld : s.heldOk [r] = .ok) (hty : s.me.rowType r = 0 ∨ s.me.rowType r = 2)
    (hend : s.me.e.ipfEnd ≤ s.ctx.tick) (hgood : s.rowsGood [r] = .ok) : s.ipfChk r = Chk.need (!s.me.full 18) 0x09 := by
  have hfloat : (s.me.rowType r == 0 || s.me.rowType r == 2) = true := by simpa using hty
  rw [State.ipfChk, hheld, hfloat, decide_eq_true hend, hgood]
  simp

/-- A core whose engine a row of a type occupies from a tick: one vector cycle, two for a B16 row (R208). -/
def Core.ipfBusy (c : Core) (tick ty : Nat) : Core := { c with e := { c.e with ipfEnd := tick + (if ty = 0 then 1 else 2) * c.divisor 1 } }

def State.ipfBusy (s : State) (ty : Nat) : State := s.modMe fun c => c.ipfBusy s.ctx.tick ty

/-- IPF that goes on: the engine is occupied, and the row evaluated under the selection at issue is pushed into y0 (R208). -/
def State.ipfDone (s : State) (r : Nat) (op : BitVec 2) (ch : BitVec 4) : State :=
  (s.ipfBusy (s.me.rowType r)).pushDone 18 12 op ch true (interpRow (tableOf s.me.e.ipsel s.me.e.tabs) (s.me.rowType r) (s.me.row r))

@[simp] theorem State.me_ipfBusy (s : State) (ty : Nat) : (s.ipfBusy ty).me = s.me.ipfBusy s.ctx.tick ty := State.me_modMe ..

/-- An occupied engine is free at a tick above 0, so its core is listed. -/
theorem Core.ipfBusy_ne_default (c : Core) (tick ty : Nat) : c.ipfBusy tick ty ≠ {} := by
  intro h
  have hend : tick + (if ty = 0 then 1 else 2) * c.divisor 1 = 0 := congrArg (fun c : Core => c.e.ipfEnd) h
  have hpos : 0 < (if ty = 0 then 1 else 2) * c.divisor 1 := Nat.mul_pos (by split <;> decide) (Nat.succ_pos _)
  omega

/-- The engine is occupied and y0's entry reserved in one change of the core. -/
theorem State.ipfBusy_entryReserved (s : State) (ty : Nat) : (s.ipfBusy ty).entryReserved 18 =
    s.modMe fun _ => { (s.me.reserve 18 emptyEntry).1 with
      e := { (s.me.reserve 18 emptyEntry).1.e with ipfEnd := s.ctx.tick + (if ty = 0 then s.me.divisor 1 else 2 * s.me.divisor 1) } } := by
  have hcycles : (if ty = 0 then s.me.divisor 1 else 2 * s.me.divisor 1) = (if ty = 0 then 1 else 2) * s.me.divisor 1 := by
    split
    · exact (Nat.one_mul _).symm
    · rfl
  rw [hcycles, State.entryReserved, State.me_ipfBusy]
  exact State.modCore_modCore s s.ctx.core (fun c => c.ipfBusy s.ctx.tick ty) _ (Core.ipfBusy_ne_default _ _ _)

/-- A format word that finds FQ full overflows it: FMT and FMTI have no stall mode (R233). -/
theorem State.pushFw_full {s : State} {chk : Chk} (hchk : chk = .ok) (hfull : s.me.full 20 = true) (w : State → Word) :
    s.pushFw chk w = s.raise { cause := 0x09 } := by
  rw [State.pushFw, hchk, hfull]
  rfl

/-! ### The syllables -/

section
variable (g : BitVec 4) (op : BitVec 2) (ch : BitVec 4) (s : State)

theorem exec_vpop (vr : BitVec 10) (q : BitVec 4) (md : BitVec 2) (pk : BitVec 1) (cf : BitVec 3) : exec (.vpop g vr q md pk cf op ch) s =
    .next (if s.guardM g then s.popTo q.toNat md pk cf op ch true (s.heldOk [s.vrow vr]) (wholeRow (s.vrow vr)) else s) := rfl

theorem exec_ypop (vr : BitVec 10) (md : BitVec 2) (pk : BitVec 1) (cf : BitVec 3) : exec (.ypop g vr md pk cf op ch) s =
    .next (if s.guardM g then s.popTo 18 md pk cf op ch true (s.heldOk [s.vrow vr]) (wholeRow (s.vrow vr)) else s) := rfl

theorem exec_spop (sg : BitVec 5) (q : BitVec 4) (md : BitVec 2) (pk : BitVec 1) (cf : BitVec 3) : exec (.spop g sg q md pk cf op ch) s =
    .next (if s.guardM g then s.popTo (12 + q.toNat) md pk cf op ch false (s.regsOk [sg]) (fun v => s.xLand sg (v.setWidth 64)) else s) := rfl

theorem exec_cpop (sg : BitVec 5) (md : BitVec 2) (pk : BitVec 1) (cf : BitVec 3) : exec (.cpop g sg md pk cf op ch) s =
    .next (if s.guardM g then s.popTo 19 md pk cf op ch false (s.regsOk [sg]) (fun v => s.xLand sg (v.setWidth 64)) else s) := rfl

theorem exec_vpush (vr : BitVec 10) (q : BitVec 4) (md : BitVec 2) : exec (.vpush g vr q md op ch) s =
    .next (if s.guardM g then s.pushFrom (8 + q.toNat) md op ch true ((s.heldOk [s.vrow vr]).seq (s.rowsGood [s.vrow vr])) (fun s' => s'.me.row (s.vrow vr))
      else s) := rfl

theorem exec_apush (sg : BitVec 5) (q : BitVec 4) (md : BitVec 2) : exec (.apush g sg q md op ch) s =
    .next (if s.guardM g then s.pushFrom (16 + q.toNat) md op ch false (s.regsOk [sg]) (fun s => (s.reg sg).setWidth 1024) else s) := rfl

theorem exec_fmt (rs : BitVec 5) : exec (.fmt g rs) s = .next (if s.guardM g then s.pushFw (s.regsOk [rs]) (fun s => s.reg rs) else s) := rfl

theorem exec_fmti (t : BitVec 4) : exec (.fmti g t) s = .next (if s.guardM g then s.pushFw .ok (fun s => sget 0#64 t.toNat s.me.sys.fmtt) else s) := rfl

theorem exec_ipsel (fn : BitVec 4) : exec (.ipsel g fn op ch) s =
    .next (if s.guardM g then s.gate (s.tokenChk op ch) fun s => (s.withToken op ch).fly (s.iOp 1 false op ch [.ipsel fn.toNat]) else s) := by
  refine congrArg Host.Outcome.next (if_congr Iff.rfl (State.gate_congr ?_ _) rfl)
  exact s.fly_withToken 1 false op ch _

theorem exec_ipld (fn : BitVec 4) (o : BitVec 6) : exec (.ipld g fn o op ch) s =
    .next (if s.guardM g then s.gate ((s.tokenChk op ch).seq (s.tableChk o.toNat)) fun s =>
      (s.withToken op ch).fly (s.iOp 8 true op ch [.iptab (fn.toNat - 8) (s.slotTable o.toNat)]) else s) := by
  refine congrArg Host.Outcome.next (if_congr Iff.rfl (State.gate_congr ?_ _) rfl)
  have htable : (s.withToken op ch).slotTable o.toNat = s.slotTable o.toNat := by simp only [State.slotTable, State.me_withToken_e]
  exact htable ▸ s.fly_withToken 8 true op ch _

theorem exec_ipf (vs : BitVec 10) : exec (.ipf g vs op ch) s =
    .next (if s.guardM g then s.gate ((s.ipfChk (s.vrow vs)).seq (s.tokenChk op ch)) fun s => s.ipfDone (s.vrow vs) op ch else s) := by
  refine congrArg Host.Outcome.next (if_congr Iff.rfl (State.gate_congr ?_ _) rfl)
  have hctx : (s.ipfBusy (s.me.rowType (s.vrow vs))).ctx = s.ctx := rfl
  have hsys : (s.ipfBusy (s.me.rowType (s.vrow vs))).me.sys = s.me.sys := by
    rw [State.me_ipfBusy]
    rfl
  rw [State.ipfDone, State.pushDone_eq, State.iOp_congr hctx hsys, State.ipfBusy_entryReserved, State.me_ipfBusy]
  simp only [State.op, State.iOp, State.takeToken_eq, State.withToken_ctx]
  rfl

end

/-- Settles O36, syllable by syllable. -/
theorem queueMoves : Obligations.QueueMoves := by
  unfold Obligations.QueueMoves
  refine ⟨fun g vr q md pk cf op ch s hg hheld hgoes ht => ?vpop, fun g vr md pk cf op ch s hg hheld hgoes ht => ?ypop,
    fun g sg q md pk cf op ch s hg hregs hgoes ht => ?spop, fun g sg md pk cf op ch s hg hregs hgoes ht => ?cpop,
    fun g vr q md op ch s hg hheld hgood hroom ht => ?vpush, fun g sg q md op ch s hg hregs hroom ht => ?apush, fun g fn op ch s hg ht => ?ipsel,
    fun g fn o op ch s hg ht hclaimed hready hgood htable => ?ipld, fun g vs op ch s hg ht hheld hty hroom hend hgood => ?ipf⟩
  case vpop => rw [exec_vpop, if_pos hg, State.popTo_goes hheld hgoes ht]
  case ypop => rw [exec_ypop, if_pos hg, State.popTo_goes hheld hgoes ht]
  case spop => rw [exec_spop, if_pos hg, State.popTo_goes hregs hgoes ht]
  case cpop => rw [exec_cpop, if_pos hg, State.popTo_goes hregs hgoes ht]
  case vpush => rw [exec_vpush, if_pos hg, State.pushFrom_goes (Chk.seq_eq_ok hheld hgood) hroom ht]
  case apush => rw [exec_apush, if_pos hg, State.pushFrom_goes hregs hroom ht]
  case ipsel => rw [exec_ipsel, if_pos hg, State.tokenChk_there ht, State.gate_ok]
  case ipld => rw [exec_ipld, if_pos hg, State.tokenChk_there ht, Chk.seq_ok, State.tableChk_ok hclaimed hready hgood htable, State.gate_ok]
  case ipf =>
    rw [exec_ipf, if_pos hg, State.ipfChk_eq hheld hty hend hgood, hroom, State.tokenChk_there ht]
    rfl

/-- Settles O37: the modes of pops and pushes, the overflows without a mode, and the waits for a token. -/
theorem queueModes : Obligations.QueueModes := by
  unfold Obligations.QueueModes
  refine ⟨fun g vr q pk cf op ch s hg hheld ht => ⟨fun hempty => ?vpop, fun hempty => ?ypop, fun hgood hfull => ?vpush, fun hgood hty hend hfull => ?ipf⟩,
    fun g sg q pk cf op ch s hg hregs ht => ⟨fun hempty => ?spop, fun hempty => ?cpop, fun hfull => ?apush⟩,
    fun g t rs s hg hfull => ⟨fun hregs => ?fmt, ?fmti⟩,
    fun g ch q vr md pk cf s hg hnone hheld hgood => ⟨fun hgoes => ?vpopToken, fun hgoes => ?ypopToken, fun hroom => ?vpushToken, fun hty hend hroom => ?ipfToken⟩,
    fun g ch q sg md pk cf s hg hnone hregs => ⟨fun hgoes => ?spopToken, fun hgoes => ?cpopToken, fun hroom => ?apushToken⟩,
    fun g fn ch o s hg hnone => ⟨?ipselToken, ?ipldToken⟩⟩
  case vpop => simp only [exec_vpop, hg, if_true, State.popTo_strict hheld hempty ht, State.popTo_stalls hheld hempty, and_self]
  case ypop => simp only [exec_ypop, hg, if_true, State.popTo_strict hheld hempty ht, State.popTo_stalls hheld hempty, and_self]
  case spop => simp only [exec_spop, hg, if_true, State.popTo_strict hregs hempty ht, State.popTo_stalls hregs hempty, and_self]
  case cpop => simp only [exec_cpop, hg, if_true, State.popTo_strict hregs hempty ht, State.popTo_stalls hregs hempty, and_self]
  case vpush => simp only [exec_vpush, hg, if_true, State.pushFrom_strict (Chk.seq_eq_ok hheld hgood) hfull ht, State.pushFrom_stalls (Chk.seq_eq_ok hheld hgood) hfull, and_self]
  case apush => simp only [exec_apush, hg, if_true, State.pushFrom_strict hregs hfull ht, State.pushFrom_stalls hregs hfull, and_self]
  case ipf =>
    rw [exec_ipf, if_pos hg, State.ipfChk_eq hheld hty hend hgood, hfull, State.tokenChk_there ht]
    rfl
  case fmt => rw [exec_fmt, if_pos hg, State.pushFw_full hregs hfull]
  case fmti => rw [exec_fmti, if_pos hg, State.pushFw_full rfl hfull]
  case vpopToken => rw [exec_vpop, if_pos hg, State.popTo_noToken hheld hgoes hnone]
  case ypopToken => rw [exec_ypop, if_pos hg, State.popTo_noToken hheld hgoes hnone]
  case spopToken => rw [exec_spop, if_pos hg, State.popTo_noToken hregs hgoes hnone]
  case cpopToken => rw [exec_cpop, if_pos hg, State.popTo_noToken hregs hgoes hnone]
  case vpushToken => rw [exec_vpush, if_pos hg, State.pushFrom_noToken (Chk.seq_eq_ok hheld hgood) hroom hnone]
  case apushToken => rw [exec_apush, if_pos hg, State.pushFrom_noToken hregs hroom hnone]
  case ipfToken =>
    rw [exec_ipf, if_pos hg, State.ipfChk_eq hheld hty hend hgood, hroom, State.tokenChk_none hnone]
    rfl
  case ipselToken => rw [exec_ipsel, if_pos hg, State.tokenChk_none hnone, State.gate_waits]
  case ipldToken => rw [exec_ipld, if_pos hg, State.tokenChk_none hnone, Chk.seq_waits, State.gate_waits]

end Sys2Proof.Machine

/-! PROOFS. What a queue move that issues leaves alone (O17). -/

namespace Sys2Proof.Machine

/-! ### Changes to the operations, queues, tokens and occupancy of a core -/

/-- A core that differs at most in its operations in flight, its queues with what they remember of pops, its tokens, and when its interpolation engine is
free. -/
def Core.Moved (c d : Core) : Prop :=
  ∃ os q f k e n, d = { c with ops := c.ops ++ os, q := q, freed7 := f, seen := n, tk := k, e := { c.e with ipfEnd := e } }

theorem Core.Moved.refl (c : Core) : c.Moved c := ⟨[], c.q, c.freed7, c.tk, c.e.ipfEnd, c.seen, by rw [List.append_nil]⟩

theorem Core.Moved.trans {c d e : Core} (h : c.Moved d) (h' : d.Moved e) : c.Moved e := by
  obtain ⟨os, q, f, k, i, n, rfl⟩ := h
  obtain ⟨os', q', f', k', i', n', rfl⟩ := h'
  exact ⟨os ++ os', q', f', k', i', n', by rw [List.append_assoc]⟩

section
variable (c : Core)

theorem Core.moved_ops (os : List Op) : c.Moved { c with ops := c.ops ++ os } := ⟨os, c.q, c.freed7, c.tk, c.e.ipfEnd, c.seen, rfl⟩

theorem Core.moved_setTokens (n v : Nat) : c.Moved (c.setTokens n v) := ⟨[], c.q, c.freed7, _, c.e.ipfEnd, c.seen, by rw [List.append_nil]; rfl⟩

theorem Core.moved_pop (q : Nat) : c.Moved (c.pop q) := ⟨[], _, _, c.tk, c.e.ipfEnd, _, by rw [List.append_nil]; rfl⟩

theorem Core.moved_reserve (q : Nat) (e : Entry) : c.Moved (c.reserve q e).1 := ⟨[], _, c.freed7, c.tk, c.e.ipfEnd, c.seen, by rw [List.append_nil]; rfl⟩

theorem Core.moved_ipfBusy (tick ty : Nat) : c.Moved (c.ipfBusy tick ty) := ⟨[], c.q, c.freed7, c.tk, _, c.seen, by rw [List.append_nil]; rfl⟩

end

/-- An issue that has changed its own core in that way, and nothing else. -/
structure State.Moved (s t : State) : Prop where
  ctx : t.ctx = s.ctx
  me : s.me.Moved t.me
  others : ∀ c, c ≠ s.ctx.core → t.core c = s.core c
  rest : { t with cores := s.cores, ctx := s.ctx } = s

theorem State.Moved.refl (s : State) : s.Moved s := ⟨rfl, Core.Moved.refl _, fun _ _ => rfl, rfl⟩

section
variable {s t : State} (h : s.Moved t)
include h

theorem State.Moved.modMe {f : Core → Core} (hf : t.me.Moved (f t.me)) : s.Moved (t.modMe f) where
  ctx := h.ctx
  me := by
    rw [State.me_modMe]
    exact h.me.trans hf
  others c hc := by
    have hother : c ≠ t.ctx.core := by rwa [h.ctx]
    exact (State.core_modCore_other t f hother).trans (h.others c hc)
  rest := h.rest

theorem State.Moved.fly (o : Op) : s.Moved (t.fly o) := h.modMe (t.me.moved_ops [o])

theorem State.Moved.withToken (op : BitVec 2) (ch : BitVec 4) : s.Moved (t.withToken op ch) := by
  unfold State.withToken
  split
  · exact h.modMe (Core.moved_setTokens ..)
  · exact h

theorem State.Moved.popDone (q : Nat) (md : BitVec 2) (pk : BitVec 1) (cf : BitVec 3) (op : BitVec 2) (ch : BitVec 4) (wide : Bool) (dest : Row → Land) :
    s.Moved (t.popDone q md pk cf op ch wide dest) := by
  have htaken : s.Moved (t.headTaken q pk) := by
    unfold State.headTaken
    split
    · exact h.modMe (Core.moved_pop ..)
    · exact h
  rw [State.popDone_eq]
  exact (htaken.withToken op ch).fly _

theorem State.Moved.pushDone (q lat : Nat) (op : BitVec 2) (ch : BitVec 4) (wide : Bool) (v : Row) : s.Moved (t.pushDone q lat op ch wide v) := by
  have hreserved : s.Moved (t.entryReserved q) := h.modMe (Core.moved_reserve ..)
  rw [State.pushDone_eq]
  exact (hreserved.withToken op ch).fly _

theorem State.Moved.ipfDone (r : Nat) (op : BitVec 2) (ch : BitVec 4) : s.Moved (t.ipfDone r op ch) :=
  (h.modMe (Core.moved_ipfBusy ..)).pushDone ..

end

/-! ### Issue that goes on -/

/-- If the issue goes on, it has only moved queue entries, tokens and occupancy of its core. -/
def State.onlyMoves (s t : State) : Prop := t.ctx.out = .running → s.Moved t

/-- A wait or a fault does not go on, so behind a gate only the body counts. -/
theorem State.onlyMoves_gate {s : State} {f : State → State} (h : s.Moved (f s)) (c : Chk) : s.onlyMoves (s.gate c f) := by
  intro hout
  cases c with
  | ok => exact h
  | waits w => cases hout
  | fault k =>
    rw [State.gate_fault, State.raise_out] at hout
    cases hout

/-- A false guard moves nothing. -/
theorem State.onlyMoves_guarded {s t u : State} {p : Prop} [Decidable p] (h : s.onlyMoves u) (ht : .next (if p then u else s) = (.next t : Result)) :
    s.onlyMoves t := by
  injection ht with ht
  subst ht
  split
  · exact h
  · exact fun _ => .refl s

theorem State.onlyMoves_popTo {s : State} {q : Nat} {md : BitVec 2} {pk : BitVec 1} {cf : BitVec 3} {op : BitVec 2} {ch : BitVec 4} {wide : Bool} {chk : Chk}
    {dest : Row → Land} : s.onlyMoves (s.popTo q md pk cf op ch wide chk dest) := by
  rw [State.popTo_eq]
  exact State.onlyMoves_gate ((State.Moved.refl s).popDone ..) _

theorem State.onlyMoves_pushFrom {s : State} {q : Nat} {md op : BitVec 2} {ch : BitVec 4} {wide : Bool} {chk : Chk} {v : State → Row} :
    s.onlyMoves (s.pushFrom q md op ch wide chk v) := by
  rw [State.pushFrom_eq]
  exact State.onlyMoves_gate ((State.Moved.refl s).pushDone ..) _

theorem State.onlyMoves_pushFw {s : State} {chk : Chk} {w : State → Word} : s.onlyMoves (s.pushFw chk w) :=
  State.onlyMoves_gate (((State.Moved.refl s).modMe (Core.moved_reserve ..)).fly _) _

theorem exec_onlyMoves {i : Instr} {s t : State} (hi : movesQueues i = true) (h : exec i s = .next t) : s.onlyMoves t := by
  have hfly (op : BitVec 2) (ch : BitVec 4) (o : Op) : s.Moved ((s.withToken op ch).fly o) := ((State.Moved.refl s).withToken op ch).fly o
  cases i with
  | vpop | ypop | spop | cpop => exact State.onlyMoves_guarded State.onlyMoves_popTo h
  | vpush | apush => exact State.onlyMoves_guarded State.onlyMoves_pushFrom h
  | fmt | fmti => exact State.onlyMoves_guarded State.onlyMoves_pushFw h
  | ipsel =>
    rw [exec_ipsel] at h
    exact State.onlyMoves_guarded (State.onlyMoves_gate (hfly ..) _) h
  | ipld =>
    rw [exec_ipld] at h
    exact State.onlyMoves_guarded (State.onlyMoves_gate (hfly ..) _) h
  | ipf =>
    rw [exec_ipf] at h
    exact State.onlyMoves_guarded (State.onlyMoves_gate ((State.Moved.refl s).ipfDone ..) _) h
  | _ => cases hi

/-- Settles O17: every queue move that goes on is a change of its core by `Core.Moved` alone. -/
theorem queueMovesFrame : Obligations.QueueMovesFrame := by
  unfold Obligations.QueueMovesFrame
  intro i s t hi _ _ h hout
  obtain ⟨-, hme, hothers, hrest⟩ := exec_onlyMoves hi h hout
  have hhbm : t.hbm = s.hbm := (congrArg State.hbm hrest :)
  have hpeer : t.peer = s.peer := (congrArg State.peer hrest :)
  exact ⟨hme, hothers, fun a => ⟨by rw [hhbm], by rw [hpeer]⟩, hrest⟩

end Sys2Proof.Machine

/-! PROOFS. The register window over CALL and RET (O20), and its faults and spills (O19). -/

namespace Sys2Proof.Machine

/-! ### Links (R152) -/

/-- An address and a frame size share a link word without overlap. -/
theorem link_toNat {past : Word} {f : Nat} (hf : f < 256) (hpast : past.toNat < 2 ^ 56) :
    (past ||| BitVec.ofNat 64 (f * 2 ^ 56)).toNat = 2 ^ 56 * f + past.toNat := by
  have hword : (BitVec.ofNat 64 (f * 2 ^ 56)).toNat = 2 ^ 56 * f := by
    rw [BitVec.toNat_ofNat]
    omega
  rw [BitVec.toNat_or, hword, Nat.or_comm, Nat.two_pow_add_eq_or_of_lt hpast]

theorem linkAddr_link {past : Word} {f : Nat} (hf : f < 256) (hpast : past.toNat < 2 ^ 56) :
    linkAddr (past ||| BitVec.ofNat 64 (f * 2 ^ 56)) = past := by
  have hmask : (0x00FFFFFFFFFFFFFF#64).toNat = 2 ^ 56 - 1 := rfl
  apply BitVec.eq_of_toNat_eq
  rw [linkAddr, BitVec.toNat_and, hmask, Nat.and_two_pow_sub_one_eq_mod, link_toNat hf hpast, Nat.mul_add_mod, Nat.mod_eq_of_lt hpast]

theorem linkFrame_link {past : Word} {f : Nat} (hf : f < 256) (hpast : past.toNat < 2 ^ 56) :
    linkFrame (past ||| BitVec.ofNat 64 (f * 2 ^ 56)) = f := by
  rw [linkFrame, link_toNat hf hpast]
  omega

/-! ### Frames pushed and popped (R149, R151) -/

/-- Values written from a position up leave what is below. -/
theorem sget_foldl_sset_below (f : Nat → Word) {base p : Nat} (h : p < base) (l : List Nat) (w : Store Word) :
    sget 0#64 p (l.foldl (fun w k => sset 0#64 (base + k) (f k) w) w) = sget 0#64 p w := by
  induction l generalizing w with
  | nil => rfl
  | cons k l ih => exact (ih _).trans (sget_sset_other _ _ _ (by omega))

/-- A window that moves from one extent to another keeps every position below both. -/
theorem sget_extent_below (f : Nat → Word) {e0 e1 p : Nat} (h0 : p < e0) (h1 : p < e1) (l : List Nat) (w : Store Word) :
    sget 0#64 p (l.foldl (fun w k => sset 0#64 (e0 + k) (f k) w) (sclear e1 (e0 - e1) w)) = sget 0#64 p w := by
  rw [sget_foldl_sset_below f h0, sget_sclear, if_pos (.inl h1)]

theorem XStream.pushFrame_win (x : XStream) {f p : Nat} (link : Word) (n : Nat) (h0 : p < x.base + x.frame) (h1 : p < x.base + 16 + f) :
    sget 0#64 p (x.pushFrame f link n).win = sget 0#64 p x.win :=
  sget_extent_below (fun k => Config.freeWord (n + k)) h0 h1 _ _

theorem XStream.popFrame_win (x : XStream) {p : Nat} (n : Nat) (h0 : p < x.base + x.frame)
    (h1 : p < x.base - 16 + linkFrame (sget 0#64 x.base x.links)) : sget 0#64 p (x.popFrame n).win = sget 0#64 p x.win :=
  sget_extent_below (fun k => Config.freeWord (n + k)) h0 h1 _ _

@[simp] theorem XStream.pushFrame_link (x : XStream) (f : Nat) (link : Word) (n : Nat) :
    sget 0#64 (x.base + 16) (x.pushFrame f link n).links = link :=
  sget_sset_self ..

/-- Settles O20: RET takes base and frame from the link that CALL wrote. -/
theorem callThenReturnRestoresWindow : Obligations.CallThenReturnRestoresWindow := by
  unfold Obligations.CallThenReturnRestoresWindow
  intro x f n m past hframe hpast y z
  have hlink : sget 0#64 y.base y.links = past ||| BitVec.ofNat 64 (x.frame * 2 ^ 56) := x.pushFrame_link ..
  have hcaller : linkFrame (sget 0#64 y.base y.links) = x.frame := by rw [hlink, linkFrame_link hframe hpast]
  refine ⟨rfl, rfl, ?addr, Nat.add_sub_cancel .., hcaller, fun p hcall hret => ?win, fun b hb => ?links⟩
  case addr => rw [hlink, linkAddr_link hframe hpast]
  case win =>
    have hpop : p < y.base - 16 + linkFrame (sget 0#64 y.base y.links) := by
      rw [hcaller]
      exact (Nat.add_sub_cancel x.base 16).symm ▸ hcall
    exact (y.popFrame_win m hret hpop).trans (x.pushFrame_win _ n hcall hret)
  case links => exact (sget_sset_other _ _ _ hb).trans (sget_sset_other _ _ _ hb)

/-! ### CALL, RET and BR that do not go on (R151, R153, R167) -/

section
variable {g : BitVec 4} {s : State} (hg : s.guardB g = true)
include hg

theorem exec_br (bd : BitVec 3) : exec (.br g bd) s =
    .next (s.gate (Chk.need (s.branchOk (sget {} bd.toNat s.ctrl.b).val) 0x05) fun s' =>
      s'.leave (.goto (sget {} bd.toNat s.ctrl.b).val (some (sget {} bd.toNat s.ctrl.b)))) := by
  show execBr g bd s = _
  simp only [execBr, hg, if_true]

variable (hwho : s.ctx.who = .x)
include hwho

/-- On the X-stream CALL checks the end of the new frame with its target, then spills before it goes on. -/
theorem exec_call_x (bd fr : BitVec 3) : exec (.call g bd fr) s =
    .next (s.gate ((Chk.need (decide (s.me.x.base + 16 + 4 * fr.toNat ≤ 6656)) 0x03).seq (Chk.need (s.branchOk (sget {} bd.toNat s.ctrl.b).val) 0x05)) fun s' =>
      if s'.me.x.spillLines (4 * fr.toNat) = 0 then s'.leave (.call (sget {} bd.toNat s.ctrl.b).val (sget {} bd.toNat s.ctrl.b) (4 * fr.toNat))
      else s'.needWindow (s'.me.x.spillLines (4 * fr.toNat)) false) := by
  show execCall g bd fr s = _
  simp only [execCall, hg, hwho, if_true]

/-- On the X-stream RET checks its base with the target in its link, then fills before it goes on. -/
theorem exec_ret_x : exec (.ret g) s =
    .next (s.gate ((Chk.need (s.me.x.base != 0) 0x04).seq (Chk.need (s.branchOk (linkAddr (sget 0#64 s.me.x.base s.me.x.links))) 0x05)) fun s' =>
      if s'.me.x.fillLines = 0 then s'.leave (.ret (linkAddr (sget 0#64 s.me.x.base s.me.x.links))) else s'.needWindow s'.me.x.fillLines true) := by
  show execRet g s = _
  simp only [execRet, hg, hwho, if_true]

end

/-- A frame that ends above the file's 256 positions asks for spills. -/
theorem XStream.spillLines_ne_zero {x : XStream} {f : Nat} (h : x.low + 256 < x.base + 16 + f) : x.spillLines f ≠ 0 := by
  unfold XStream.spillLines
  omega

/-- Settles O19. -/
theorem windowFaultsAndMoves : Obligations.WindowFaultsAndMoves := by
  unfold Obligations.WindowFaultsAndMoves
  refine ⟨fun g bd fr s hg hwho hover hgood => ?overflow, fun g s hg hwho hbase hgood => ?underflow, fun g bd s hg hbad => ?target,
    fun g bd fr s hg hwho hfits hgood hfull => ?spill⟩
  case overflow =>
    rw [exec_call_x hg hwho, hgood, decide_eq_false (by omega)]
    rfl
  case underflow =>
    rw [exec_ret_x hg hwho, hbase, hgood]
    rfl
  case target =>
    rw [exec_br hg, hbad]
    rfl
  case spill =>
    rw [exec_call_x hg hwho, hgood, decide_eq_true hfits, Chk.need_true, Chk.need_true, Chk.seq_ok, State.gate_ok, if_neg (XStream.spillLines_ne_zero hfull)]
    rfl

end Sys2Proof.Machine

/-! PROOFS. The scalar syllables that write a register: their words, and their completion with the value of their rule (O9, O10, O11). -/

namespace Sys2Proof.Machine

/-! ### Words of format SR (R33, R41, R46) -/

theorem append_fields {m : Nat} (h : BitVec m) (rd a b : BitVec 5) : h ++ (rd ++ a ++ b ++ 0#29) = h ++ rd ++ a ++ b ++ 0#29 := by
  rw [BitVec.append_assoc' (x₁ := h), BitVec.append_assoc' (x₁ := h), BitVec.append_assoc' (x₁ := h)]
  rfl

theorem srWord_eq_hdr (o : BitVec 8) (g : BitVec 4) (rd a b : BitVec 5) : srWord g (o, rd, a, b) = hdr 0#3 o g (rd ++ a ++ b ++ 0#29) :=
  (append_fields (0#1 ++ 0#3 ++ 0#4 ++ o ++ g) rd a b).symm

theorem srWord_two_registers (o : BitVec 8) (g : BitVec 4) (rd a : BitVec 5) : srWord g (o, rd, a, 0#5) = hdr 0#3 o g (rd ++ a ++ 0#34) := by
  rw [srWord_eq_hdr, BitVec.append_assoc (x₁ := rd ++ a)]
  rfl

section
variable {i : Instr} {c : BitVec 8 × BitVec 5 × BitVec 5 × BitVec 5} {row : ScalarRow}

theorem encode_of_aluCode (hc : aluCode i = some c) (hrow : scalarRow i = some row) :
    encode i = some (srWord row.guard c) ∧ row.rd = c.2.1 ∧ row.lat = 1 := by
  cases i with
  | add | sub | and | or | xor | andn | shl | shr | sar | rotr | min | max | minn | maxn =>
    cases hc
    cases hrow
    exact ⟨congrArg some (srWord_eq_hdr ..).symm, rfl, rfl⟩
  | clz | ctz | popc | mov =>
    cases hc
    cases hrow
    exact ⟨congrArg some (srWord_two_registers ..).symm, rfl, rfl⟩
  | _ => cases hc

theorem encode_of_mulCode (hc : mulCode i = some c) (hrow : scalarRow i = some row) :
    encode i = some (srWord row.guard c) ∧ row.rd = c.2.1 := by
  cases i with
  | mul | mulh | mulhn | div | divn | rem | remn =>
    cases hc
    cases hrow
    exact ⟨congrArg some (srWord_eq_hdr ..).symm, rfl⟩
  | _ => cases hc

/-- Only the multiplications and divisions of R158 take longer than one control cycle (R46). -/
theorem lat_of_scalarRow (hrow : scalarRow i = some row) (hmul : mulCode i = none) : row.lat = 1 := by
  cases i with
  | mul | mulh | mulhn | div | divn | rem | remn => cases hmul
  | _ => cases hrow <;> rfl

end

/-! ### Values of R157 and R158 -/

theorem foldl_count {α : Type} (p : α → Bool) (l : List α) (n : Nat) : l.foldl (fun n a => if p a then n + 1 else n) n = n + (l.filter p).length := by
  induction l generalizing n with
  | nil => rfl
  | cons a l ih =>
    rw [List.foldl_cons, ih, List.filter_cons]
    split
    · rw [List.length_cons, Nat.add_assoc, Nat.add_comm 1]
    · rfl

theorem popcount_eq_length (x : Word) : popcount x = ((List.range 64).filter fun k => x.getLsbD k).length :=
  (foldl_count _ _ 0).trans (Nat.zero_add _)

section
variable (x y : Word)

theorem scalarOp_min : scalarOp 12 x y = if x.toInt < y.toInt then x else y := if_congr BitVec.slt_iff_toInt_lt rfl rfl
theorem scalarOp_max : scalarOp 13 x y = if x.toInt < y.toInt then y else x := if_congr BitVec.slt_iff_toInt_lt rfl rfl
theorem scalarOp_minn : scalarOp 14 x y = if x.toNat < y.toNat then x else y := if_congr BitVec.ult_iff_toNat_lt rfl rfl
theorem scalarOp_maxn : scalarOp 15 x y = if x.toNat < y.toNat then y else x := if_congr BitVec.ult_iff_toNat_lt rfl rfl

theorem scalarOp_mul : scalarOp 3 x y = BitVec.ofNat 64 (x.toNat * y.toNat) :=
  BitVec.eq_of_toNat_eq (by rw [BitVec.toNat_ofNat]; exact BitVec.toNat_mul x y)

theorem mulHigh_toNat : mulHigh x.toNat y.toNat = BitVec.ofNat 64 (x.toNat * y.toNat / 2 ^ 64) := by
  rw [← BitVec.ofInt_natCast]
  rfl

/-- -2^63 / -1 wraps to -2^63 with no case of its own. -/
theorem divS_eq : divS x y = if y = 0#64 then ones else if x = minWord ∧ y = ones then minWord else BitVec.ofInt 64 (x.toInt.tdiv y.toInt) := by
  refine if_congr Iff.rfl rfl ?_
  split
  next h => rw [h.1, h.2]; decide
  next => rfl

/-- -2^63 rem -1 is 0 with no case of its own. -/
theorem remS_eq : remS x y = if y = 0#64 then x else if x = minWord ∧ y = ones then 0#64 else BitVec.ofInt 64 (x.toInt.tmod y.toInt) := by
  refine if_congr Iff.rfl rfl ?_
  split
  next h => rw [h.1, h.2]; decide
  next => rfl

end

/-! ### Fields of a word (R159) -/

/-- The mask of the low n bits. -/
theorem getLsbD_lowMask (n k : Nat) : (BitVec.ofNat 64 (2 ^ n - 1)).getLsbD k = (decide (k < 64) && decide (k < n)) := by
  rw [BitVec.getLsbD_ofNat, Nat.testBit_two_pow_sub_one]

theorem lowBits_eq_setWidth (n : Nat) (x : Word) : lowBits n x = (x.setWidth n).setWidth 64 := by
  apply BitVec.eq_of_getLsbD_eq
  intro k hk
  simp only [lowBits, BitVec.getLsbD_and, getLsbD_lowMask, BitVec.getLsbD_setWidth, hk, decide_true, Bool.true_and]
  exact Bool.and_comm _ _

theorem lowBits_ushiftRight (p n : Nat) (x : Word) : lowBits n (x >>> p) = (x.extractLsb' p n).setWidth 64 := by
  rw [lowBits_eq_setWidth]
  congr 1
  apply BitVec.eq_of_getLsbD_eq
  intro k hk
  simp [hk]

theorem insertBits_eq_ofFnLE (p len : Nat) (x y : Word) : insertBits p (len + 1) x y =
    BitVec.ofFnLE fun (k : Fin 64) => if p ≤ k.val ∧ k.val ≤ p + len then y.getLsbD (k.val - p) else x.getLsbD k.val := by
  apply BitVec.eq_of_getLsbD_eq
  intro k hk
  rw [BitVec.getLsbD_ofFnLE, dif_pos hk]
  simp only [insertBits, BitVec.getLsbD_or, BitVec.getLsbD_and, BitVec.getLsbD_not, BitVec.getLsbD_shiftLeft, getLsbD_lowMask, hk, decide_true, Bool.true_and]
  by_cases hin : p ≤ k ∧ k ≤ p + len
  · have hlow : ¬ k < p := by omega
    have hfield : k - p < len + 1 := by omega
    have h64 : k - p < 64 := by omega
    simp [hin, hlow, hfield, h64]
  · have hout : k < p ∨ ¬ k - p < len + 1 := by omega
    rcases hout with h | h <;> simp [hin, h]

/-! ### Every scalar syllable is the shared body with the value of its rule (R156 to R161) -/

section
variable {s : State} {lat : Nat} {g : BitVec 4} {rd a b : BitVec 5} {val : State → Word}

theorem scalar3_eq {f : Word → Word → Word} (h : ∀ s : State, f (s.reg a) (s.reg b) = val s) :
    scalar3 lat f g rd a b s = .next (scalarBody g [rd, a, b] lat rd val s) := by
  rw [scalar3, funext h]

theorem scalar2_eq {f : Word → Word} (h : ∀ s : State, f (s.reg a) = val s) :
    scalar2 lat f g rd a s = .next (scalarBody g [rd, a] lat rd val s) := by
  rw [scalar2, funext h]

end

theorem exec_of_scalarRow {i : Instr} {row : ScalarRow} (hrow : scalarRow i = some row) (s : State) :
    exec i s = .next (scalarBody row.guard row.regs row.lat row.rd row.value s) := by
  cases i with
  | min => cases hrow; exact scalar3_eq fun _ => scalarOp_min ..
  | max => cases hrow; exact scalar3_eq fun _ => scalarOp_max ..
  | minn => cases hrow; exact scalar3_eq fun _ => scalarOp_minn ..
  | maxn => cases hrow; exact scalar3_eq fun _ => scalarOp_maxn ..
  | mul => cases hrow; exact scalar3_eq fun _ => scalarOp_mul ..
  | mulhn => cases hrow; exact scalar3_eq (f := fun x y => mulHigh x.toNat y.toNat) fun _ => mulHigh_toNat ..
  | div => cases hrow; exact scalar3_eq fun _ => divS_eq ..
  | rem => cases hrow; exact scalar3_eq fun _ => remS_eq ..
  | popc => cases hrow; exact scalar2_eq (f := fun x => BitVec.ofNat 64 (popcount x)) fun _ => congrArg _ (popcount_eq_length _)
  | zext => cases hrow; exact scalar2_eq fun _ => lowBits_eq_setWidth ..
  | bfx _ _ _ pos len => cases hrow; exact scalar2_eq (f := fun x => lowBits (len.toNat + 1) (x >>> pos.toNat)) fun _ => lowBits_ushiftRight ..
  | bfi => cases hrow; exact scalar3_eq fun _ => insertBits_eq_ofFnLE ..
  | add | sub | and | or | xor | andn | shl | shr | sar | rotr | clz | ctz | mov | mulh | divn | remn | sext | sel | addi | andi | ori | xori | shli | shri
    | sari | li | lih | addpc => cases hrow; rfl
  | _ => cases hrow

/-- A scalar syllable completes when its guard is true and it may name its registers. -/
theorem exec_of_scalarRow_ready {i : Instr} {row : ScalarRow} {s : State} (hrow : scalarRow i = some row) (hg : s.guardC row.guard = true)
    (hr : s.regsOk row.regs = .ok) : exec i s = .next (s.putReg row.lat row.rd (row.value s)) := by
  rw [exec_of_scalarRow hrow, scalarBody_true _ _ _ _ _ _ hg hr]

/-- Settles O9: the word by the form's number of registers, the effect by the row that every scalar syllable is. -/
theorem registerForms : Obligations.RegisterForms := by
  unfold Obligations.RegisterForms
  intro i c row s hc hrow
  obtain ⟨henc, hrd, hlat⟩ := encode_of_aluCode hc hrow
  exact ⟨henc, hrd, fun hg hr => hlat ▸ exec_of_scalarRow_ready hrow hg hr⟩

/-- Settles O10: the corners of division are what the model's formula gives there. -/
theorem multiplyDivide : Obligations.MultiplyDivide := by
  unfold Obligations.MultiplyDivide
  intro i c row s hc hrow
  obtain ⟨henc, hrd⟩ := encode_of_mulCode hc hrow
  exact ⟨henc, hrd, exec_of_scalarRow_ready hrow⟩

/-- Settles O11: what is neither of R157 nor R158 takes one control cycle. -/
theorem fieldAndImmediateForms : Obligations.FieldAndImmediateForms := by
  unfold Obligations.FieldAndImmediateForms
  intro i row s hrow _ hmul hg hr
  have hlat := lat_of_scalarRow hrow hmul
  exact ⟨hlat, hlat ▸ exec_of_scalarRow_ready hrow hg hr⟩

end Sys2Proof.Machine

/-! PROOFS. PBR, PBRX, BR, CALL and RET that go on (O18). -/

namespace Sys2Proof.Machine

section
variable {g : BitVec 4} {s : State} (hg : s.guardB g = true)
include hg

theorem exec_pbr (bd : BitVec 3) (off : BitVec 32) : exec (.pbr g bd off) s = .next (s.putB bd (s.ctx.pc + (off.signExtend 64 <<< 3))) := by
  show execPbr g bd off s = _
  simp only [execPbr, hg, if_true]

theorem exec_pbrx {rs : BitVec 5} (bd : BitVec 3) (hr : s.regsOk [rs] = .ok) : exec (.pbrx g bd rs) s = .next (s.putB bd (s.reg rs)) := by
  show execPbrx g bd rs s = _
  simp only [execPbrx, hg, hr, if_true, State.gate_ok]

variable (hwho : s.ctx.who ≠ .x)
include hwho

/-- Off the X-stream CALL checks its target alone. -/
theorem exec_call_off_x (bd fr : BitVec 3) : exec (.call g bd fr) s =
    .next (s.gate (Chk.need (s.branchOk (sget {} bd.toNat s.ctrl.b).val) 0x05) fun s' =>
      s'.leave (.call (sget {} bd.toNat s.ctrl.b).val (sget {} bd.toNat s.ctrl.b) (4 * fr.toNat))) := by
  show execCall g bd fr s = _
  simp only [execCall, hg, if_true]

/-- Off the X-stream RET goes through b7. -/
theorem exec_ret_off_x : exec (.ret g) s =
    .next (s.gate (Chk.need (s.branchOk (sget ({} : BReg) 7 s.ctrl.b).val) 0x05) fun s' => s'.leave (.ret (sget ({} : BReg) 7 s.ctrl.b).val)) := by
  show execRet g s = _
  simp only [execRet, hg, if_true]

end

/-- A frame within the file's 256 positions asks for no spill (R151). -/
theorem XStream.spillLines_eq_zero {x : XStream} {f : Nat} (h : x.base + 16 + f ≤ x.low + 256) : x.spillLines f = 0 := by
  unfold XStream.spillLines
  omega

/-- A caller's frame that lies in the file asks for no fill (R151). -/
theorem XStream.fillLines_eq_zero {x : XStream} (h : x.low ≤ x.base - 16) : x.fillLines = 0 := by
  unfold XStream.fillLines
  omega

/-- Settles O18, syllable by syllable. -/
theorem branchesAndCalls : Obligations.BranchesAndCalls := by
  unfold Obligations.BranchesAndCalls
  refine ⟨fun g bd off s hg => exec_pbr hg bd off, fun g bd rs s hg => exec_pbrx hg bd, fun g bd s hg hgood => ?branch,
    fun g bd fr s hg hgood hwin => ?call, fun g s hg hwho hbase hlow hgood => ?retX, fun g s hg hwho hgood => ?retOff⟩
  case branch => rw [exec_br hg, hgood, Chk.need_true, State.gate_ok]
  case call =>
    by_cases hwho : s.ctx.who = .x
    · obtain ⟨hfits, hheld⟩ := hwin hwho
      rw [exec_call_x hg hwho, hgood, decide_eq_true hfits, Chk.need_true, Chk.need_true, Chk.seq_ok, State.gate_ok, if_pos (XStream.spillLines_eq_zero hheld)]
    · rw [exec_call_off_x hg hwho, hgood, Chk.need_true, State.gate_ok]
  case retX =>
    rw [exec_ret_x hg hwho, hgood, bne_iff_ne.mpr hbase, Chk.need_true, Chk.need_true, Chk.seq_ok, State.gate_ok, if_pos (XStream.fillLines_eq_zero hlow)]
  case retOff => rw [exec_ret_off_x hg hwho, hgood, Chk.need_true, State.gate_ok]

end Sys2Proof.Machine

/-! PROOFS. Loops: what starts a level (O21), the end check of a body, and the stage predicates of a kernel iteration (O22). -/

namespace Sys2Proof.Machine

/-! ### Loop syllables that start a level (R168, R171, R172, R174) -/

section
variable {g : BitVec 4} {s : State} {lv : BitVec 3} (hg : s.guardB g = true)
include hg

theorem exec_loop {stop : BitVec 17} (trip : BitVec 24) (hc : s.loopChk lv (s.loopEnd stop.toNat) = .ok) :
    exec (.loop g lv stop trip) s = .next (s.startLoop lv (s.loopEnd stop.toNat) trip.toNat none) := by
  show execLoop g lv stop trip s = _
  simp only [execLoop, hg, hc, if_true, State.gate_ok]

theorem exec_loopx {stop : BitVec 17} {rs : BitVec 5} (hr : s.regsOk [rs] = .ok) (hc : s.loopChk lv (s.loopEnd stop.toNat) = .ok) :
    exec (.loopx g lv stop rs) s = .next (s.startLoop lv (s.loopEnd stop.toNat) (s.reg rs).toNat none) := by
  show execLoopx g lv stop rs s = _
  simp only [execLoopx, hg, hr, hc, if_true, Chk.seq_ok, State.gate_ok]

variable {stop : BitVec 12} {vb : BitVec 10} {sm : BitVec 6} (hrot : s.rotLegal vb sm = true) (hc : s.loopChk lv (s.loopEnd stop.toNat) = .ok)
include hrot hc

theorem exec_loopR (stg : BitVec 3) (trip : BitVec 10) :
    exec (.loopR g lv stop stg vb sm trip) s = .next (s.startRot lv (s.loopEnd stop.toNat) stg vb sm trip.toNat) := by
  show execLoopR g lv stop stg vb sm trip s = _
  simp only [execLoopR, hrot, hg, hc, Bool.not_true, Bool.false_eq_true, if_false, if_true, State.gate_ok]

/-- The register form also needs its kernel iterations to be below 2^32. -/
theorem exec_loopxR {stg : BitVec 3} {rs : BitVec 5} (hr : s.regsOk [rs] = .ok) (hn : (s.reg rs).toNat + stg.toNat - 1 < 2 ^ 32) :
    exec (.loopxR g lv stop stg vb sm rs) s = .next (s.startRot lv (s.loopEnd stop.toNat) stg vb sm (s.reg rs).toNat) := by
  show execLoopxR g lv stop stg vb sm rs s = _
  simp only [execLoopxR, hrot, hg, hr, hc, decide_eq_true hn, Bool.not_true, Bool.false_eq_true, if_false, if_true, Chk.need_true, Chk.seq_ok, State.gate_ok]

end

section
variable (s : State) (lv : BitVec 3) (stop : Word) (stg : BitVec 3) (vb : BitVec 10) (sm : BitVec 6)

theorem State.startRot_zero : s.startRot lv stop stg vb sm 0 = s.startLoop lv stop 0 none := rfl

theorem State.startRot_pos {n : Nat} (h : n ≠ 0) : s.startRot lv stop stg vb sm n = s.startLoop lv stop (n + stg.toNat - 1)
    (some { on := true, lv := lv.toNat, i := 0, rho := 0, vb := vb.toNat, sm := sm.toNat, stages := stg.toNat, trip := n }) := if_neg h

end

/-! ### The start of a level at the bundle's end (R169) -/

theorem Ctrl.finish_loop {k : Ctrl} {n : Nat} (hn : n ≠ 0) (lv : Nat) (stop : Word) (rot : Option Rot) (past : Word) (x : Bool) :
    k.finish (.loop lv n stop rot) past x =
      ({ k.deactivate lv with
          pc := past, loops := { lv := lv, start := past, stop := stop } :: (k.deactivate lv).loops, rot := rot.getD (k.deactivate lv).rot
          lc := if x then k.lc else sset 0#64 lv (BitVec.ofNat 64 n) k.lc }, [], rot.isSome) := by
  cases x <;> exact if_neg hn

/-- With no trip the stream goes on as from a bundle that ends at the end address, the level that falls away named first. -/
theorem Ctrl.finish_loop_zero (k : Ctrl) (lv : Nat) (stop : Word) (rot : Option Rot) (past : Word) (x : Bool) :
    k.finish (.loop lv 0 stop rot) past x =
      (let e := ({ k.deactivate lv with lc := if x then k.lc else sset 0#64 lv 0#64 k.lc } : Ctrl).finish .none stop x
       (e.1, { lv := lv, start := past, stop := stop } :: e.2.1, e.2.2)) := by
  cases x <;> rfl

/-- Settles O21: the bundle's end by its trip count, then syllable by syllable. -/
theorem loopsStart : Obligations.LoopsStart := by
  unfold Obligations.LoopsStart
  refine ⟨fun k lv n past stop rot x hn => ?starts, fun k lv past stop rot x => ?skips, fun g lv stop trip s hg => exec_loop hg trip,
    fun g lv stop rs s hg => exec_loopx hg, fun g lv stop stg vb sm trip s hg hrot hc hn => ?rotating, fun g lv stop stg vb sm s hg hrot hc => ?rotatingNone,
    fun g lv stop stg vb sm rs s hg hrot hr hc hn => ?registerNone, fun g lv stop stg vb sm rs s hg hrot hr hc hsum hn => ?register⟩
  case starts =>
    rw [Ctrl.finish_loop hn]
    exact ⟨rfl, rfl, rfl, rfl, rfl, fun h => if_pos h, fun h => by simp [h]⟩
  case skips =>
    rw [Ctrl.finish_loop_zero]
    exact ⟨rfl, rfl, rfl⟩
  case rotating => exact (exec_loopR hg hrot hc stg trip).trans (congrArg _ (s.startRot_pos _ _ _ _ _ fun h => hn (BitVec.eq_of_toNat_eq h)))
  case rotatingNone => exact exec_loopR hg hrot hc stg 0#10
  case registerNone =>
    have hzero : (s.reg rs).toNat = 0 := congrArg BitVec.toNat hn
    refine (exec_loopxR hg hrot hc hr (by omega)).trans ?_
    rw [hzero]
    rfl
  case register => exact (exec_loopxR hg hrot hc hr hsum).trans (congrArg _ (s.startRot_pos _ _ _ _ _ fun h => hn (BitVec.eq_of_toNat_eq h)))

/-! ### The end check, level by level (R169) -/

section
variable {e : Word} {l : Level} {ls rest : List Level} {k : Ctrl}

theorem endCheck_elsewhere (h : ∀ l ∈ ls.head?, l.stop ≠ e) : endCheck e ls k = (k, [], false) := by
  cases ls with
  | nil => rfl
  | cons l rest => exact if_pos (h l rfl)

/-- A level that stays above 0 takes its back edge. -/
theorem endCheck_back (hl : ls = l :: rest) (hstop : l.stop = e) (hlc : sget 0#64 l.lv k.lc ≠ 1#64) :
    endCheck e ls k = (({ k with lc := sset 0#64 l.lv (sget 0#64 l.lv k.lc - 1#64) k.lc } : Ctrl).backEdge l, [], true) := by
  have hstays : sget 0#64 l.lv k.lc - 1#64 ≠ 0#64 := fun h => hlc (sub_eq_zero.mp h)
  subst hl
  exact (if_neg (not_not_intro hstop)).trans (if_pos hstays)

/-- A level that reaches 0 is deactivated, and the next one out is checked. -/
theorem endCheck_exit (hl : ls = l :: rest) (hstop : l.stop = e) (hlc : sget 0#64 l.lv k.lc = 1#64) :
    endCheck e ls k =
      (let r := endCheck e rest (({ k with lc := sset 0#64 l.lv 0#64 k.lc } : Ctrl).deactivate l.lv); (r.1, l :: r.2.1, r.2.2)) := by
  subst hl
  rw [endCheck, if_neg (not_not_intro hstop), hlc]
  rfl

end

@[simp] theorem Ctrl.backEdge_loops (k : Ctrl) (l : Level) : (k.backEdge l).loops = k.loops := rfl

/-- A back edge of the level that rotates counts its iteration (R172). -/
theorem Ctrl.backEdge_rot_rotating {k : Ctrl} {l : Level} (hon : k.rot.on = true) (hlv : k.rot.lv = l.lv) :
    (k.backEdge l).rot = { k.rot with i := k.rot.i + 1, rho := (k.rot.rho + k.rot.sm) % (k.rot.sm + 1) } := if_pos (by simp [hon, hlv])

theorem Ctrl.backEdge_rot_other {k : Ctrl} {l : Level} (h : k.rot.on = false ∨ k.rot.lv ≠ l.lv) : (k.backEdge l).rot = k.rot :=
  if_neg (by rcases h with h | h <;> simp [h])

theorem Ctrl.deactivate_rot_off {k : Ctrl} {lv : Nat} (h : lv ≤ k.rot.lv) : (k.deactivate lv).rot.on = false := by
  rw [Ctrl.deactivate, if_pos h]

theorem Ctrl.deactivate_rot_stays_off {k : Ctrl} (h : k.rot.on = false) (lv : Nat) : (k.deactivate lv).rot.on = false := by
  unfold Ctrl.deactivate
  dsimp only
  split
  · rfl
  · exact h

/-- Rotation that is off stays off. -/
theorem endCheck_rot_stays_off (e : Word) (ls : List Level) {k : Ctrl} (h : k.rot.on = false) : (endCheck e ls k).1.rot.on = false := by
  induction ls generalizing k with
  | nil => exact h
  | cons l rest ih =>
    by_cases hstop : l.stop = e
    · by_cases hlc : sget 0#64 l.lv k.lc = 1#64
      · rw [endCheck_exit rfl hstop hlc]
        exact ih (Ctrl.deactivate_rot_stays_off (k := { k with lc := _ }) h l.lv)
      · rw [endCheck_back rfl hstop hlc]
        exact (congrArg Rot.on (Ctrl.backEdge_rot_other (k := { k with lc := _ }) (.inl h))).trans h
    · rw [endCheck_elsewhere (by simpa using hstop)]
      exact h

/-- The innermost of nested levels falls away, and rotation with it if it rotated this level or one within it. -/
theorem Ctrl.deactivate_innermost {k : Ctrl} {l : Level} {rest : List Level} (hl : k.loops = l :: rest) (hin : ∀ j ∈ rest, j.lv < l.lv) :
    k.deactivate l.lv = { k with loops := rest, rot := { k.rot with on := k.rot.on && decide (k.rot.lv < l.lv) } } := by
  have hloops : k.loops.filter (fun j => decide (j.lv < l.lv)) = rest := by
    rw [hl, List.filter_cons_of_neg (by simp), List.filter_eq_self]
    exact fun j hj => decide_eq_true (hin j hj)
  unfold Ctrl.deactivate
  rw [hloops]
  split
  next h => rw [decide_eq_false (by omega), Bool.and_false]
  next h => rw [decide_eq_true (by omega), Bool.and_true]

/-! ### The end of a bundle that redirects nothing (R169) -/

/-- Whether a back edge begins a kernel iteration: the innermost level is the one that rotates (R172). -/
def Ctrl.rotatesInner (k : Ctrl) : Bool := k.rot.on && (match k.loops with | l :: _ => l.lv == k.rot.lv | [] => false)

theorem Ctrl.finish_none (k : Ctrl) (past : Word) (x : Bool) : k.finish .none past x =
    (let r := endCheck past k.loops { k with pc := past }; (r.1, r.2.1, r.2.2 && r.1.rotatesInner)) := by
  let r := endCheck past k.loops { k with pc := past }
  exact congrArg (fun rotates => (r.1, r.2.1, rotates)) (Bool.and_assoc ..)

theorem Ctrl.rotatesInner_backEdge {k : Ctrl} {l : Level} {rest : List Level} (hl : k.loops = l :: rest) :
    (k.backEdge l).rotatesInner = (k.rot.on && l.lv == k.rot.lv) := by
  rw [Ctrl.rotatesInner, Ctrl.backEdge_loops, hl]
  unfold Ctrl.backEdge
  dsimp only
  split <;> rfl

section
variable {k : Ctrl} {l : Level} {rest : List Level} {past : Word} (x : Bool)

theorem Ctrl.finish_none_elsewhere (h : ∀ l ∈ k.loops.head?, l.stop ≠ past) : k.finish .none past x = ({ k with pc := past }, [], false) := by
  rw [Ctrl.finish_none, endCheck_elsewhere h]
  rfl

variable (hl : k.loops = l :: rest) (hstop : l.stop = past)
include hl hstop

theorem Ctrl.finish_none_back (hlc : sget 0#64 l.lv k.lc ≠ 1#64) : k.finish .none past x =
    (({ k with lc := sset 0#64 l.lv (sget 0#64 l.lv k.lc - 1#64) k.lc } : Ctrl).backEdge l, [], k.rot.on && l.lv == k.rot.lv) := by
  rw [Ctrl.finish_none, endCheck_back (k := { k with pc := past }) hl hstop hlc, ← Ctrl.rotatesInner_backEdge hl]
  rfl

variable (hlc : sget 0#64 l.lv k.lc = 1#64)
include hlc

/-- With the innermost level at its last iteration the check goes on with the next one out. -/
theorem Ctrl.finish_none_exit : k.finish .none past x =
    (let r := endCheck past rest (({ k with pc := past, lc := sset 0#64 l.lv 0#64 k.lc } : Ctrl).deactivate l.lv)
     (r.1, l :: r.2.1, r.2.2 && r.1.rotatesInner)) := by
  rw [Ctrl.finish_none, endCheck_exit (k := { k with pc := past }) hl hstop hlc]

/-- Where the levels are nested, it does so as if the innermost had not been there. -/
theorem Ctrl.finish_none_exit_nested (hin : ∀ j ∈ rest, j.lv < l.lv) : k.finish .none past x =
    (let e := ({ k with loops := rest, lc := sset 0#64 l.lv 0#64 k.lc, rot := { k.rot with on := k.rot.on && decide (k.rot.lv < l.lv) } } : Ctrl).finish .none past x
     (e.1, l :: e.2.1, e.2.2)) := by
  rw [Ctrl.finish_none_exit x hl hstop hlc, Ctrl.deactivate_innermost (k := { k with pc := past, lc := _ }) hl hin, Ctrl.finish_none]

/-- Rotation of that level, or of one within it, ends with it. -/
theorem Ctrl.finish_none_exit_rot_off (hrot : l.lv ≤ k.rot.lv) : (k.finish .none past x).1.rot.on = false ∧ (k.finish .none past x).2.2 = false := by
  rw [Ctrl.finish_none_exit x hl hstop hlc]
  have hoff := endCheck_rot_stays_off past rest (Ctrl.deactivate_rot_off (k := { k with pc := past, lc := sset 0#64 l.lv 0#64 k.lc }) hrot)
  exact ⟨hoff, by simp [Ctrl.rotatesInner, hoff]⟩

end

/-! ### Stage predicates (R172) -/

/-- Stage predicate j: all ones while the iteration that stage j works on is one of the trip. -/
def Rot.stageMask (r : Rot) (j : Nat) : Word := if j ≤ r.i ∧ r.i - j < r.trip then BitVec.allOnes 64 else 0#64

section
variable {c : Core}

theorem Core.stagePreds_idle (h : c.x.rotPend = false ∨ c.tick < c.x.next) : c.stagePreds = c :=
  if_neg (by rcases h with h | h <;> simp [h])

/-- At the issue tick of the first bundle of a kernel iteration the predicates from p6 up are the stages'. -/
theorem Core.pred_stagePreds (hpend : c.x.rotPend = true) (hdue : c.x.next ≤ c.tick) (q : Nat) :
    c.stagePreds.pred q = if 6 ≤ q ∧ q < 6 + c.x.k.rot.stages then c.x.k.rot.stageMask (q - 6) else c.pred q := by
  have hset := sget_foldl_sset_range (fun q => c.x.k.rot.stageMask (q - 6)) c.x.p 6 q c.x.k.rot.stages
  simp only [Nat.add_sub_cancel_left] at hset
  rw [Core.stagePreds, if_pos (by simp [hpend, hdue])]
  exact hset

/-- The other predicates are left alone. -/
theorem Core.pred_stagePreds_other {j : Nat} (h : j < 6 ∨ 6 + c.x.k.rot.stages ≤ j) : c.stagePreds.pred j = c.pred j := by
  by_cases hp : c.x.rotPend = true ∧ c.x.next ≤ c.tick
  · rw [Core.pred_stagePreds hp.1 hp.2, if_neg (by omega)]
  · rw [Core.stagePreds_idle (by rwa [Decidable.not_and_iff_or_not, Bool.not_eq_true, Nat.not_le] at hp)]

end

/-- Settles O22: the end check by what its innermost level does, an exit handing on to the levels left. -/
theorem loopBodyEnds : Obligations.LoopBodyEnds := by
  unfold Obligations.LoopBodyEnds
  refine ⟨fun k l rest past x hl hstop hlc => ?iteration, fun c j hpend hdue hj => ?stage, fun c j => Core.pred_stagePreds_other, fun c => Core.stagePreds_idle,
    fun k n past x => ⟨rfl, rfl⟩, fun k l rest past x hl hstop hlc => ?back, fun k l m rest past x hl hstop hm hlc hin => ?fall,
    fun k l past x hl hstop hlc => ?last, fun k l m rest past x hl hstop hm hlc hmlc hin => ?outer, fun k l rest past x => Ctrl.finish_none_exit_nested x,
    fun k l rest past x => Ctrl.finish_none_exit_rot_off x, fun k past x h => ?elsewhere⟩
  case iteration =>
    rw [Ctrl.finish_none_back x hl hstop hlc]
    refine ⟨fun hon hlv => ⟨Ctrl.backEdge_rot_rotating (k := { k with lc := _ }) hon hlv, by simp [hon, hlv]⟩,
      fun h => ⟨Ctrl.backEdge_rot_other (k := { k with lc := _ }) h, ?_⟩⟩
    rcases h with hoff | hlv
    · simp [hoff]
    · simp [hlv.symm]
  case stage =>
    rw [Core.pred_stagePreds hpend hdue, if_pos (by omega), Nat.add_sub_cancel_left]
    rfl
  case back =>
    rw [Ctrl.finish_none_back x hl hstop hlc]
    exact ⟨rfl, rfl, sget_sset_self .., rfl⟩
  case fall =>
    rw [Ctrl.finish_none_exit_nested x hl hstop hlc hin, Ctrl.finish_none_elsewhere x (by simpa using hm)]
    exact ⟨rfl, rfl, sget_sset_self .., rfl⟩
  case last =>
    rw [Ctrl.finish_none_exit_nested x hl hstop hlc (by simp), Ctrl.finish_none_elsewhere x (by simp)]
    exact ⟨rfl, rfl, sget_sset_self .., rfl, rfl⟩
  case outer =>
    have hne : m.lv ≠ l.lv := (hin m List.mem_cons_self).ne
    have hkeep : sget 0#64 m.lv (sset 0#64 l.lv 0#64 k.lc) = sget 0#64 m.lv k.lc := sget_sset_other _ _ _ hne
    rw [Ctrl.finish_none_exit_nested x hl hstop hlc hin, Ctrl.finish_none_back x rfl hm (by rwa [hkeep]), hkeep]
    exact ⟨rfl, rfl, rfl, (sget_sset_other _ _ _ hne.symm).trans (sget_sset_self ..), sget_sset_self ..⟩
  case elsewhere => rw [Ctrl.finish_none_elsewhere x fun l hl => h l (List.mem_of_mem_head? hl)]

end Sys2Proof.Machine

/-! PROOFS. Compares, flags and sends, and a row syllable that names a bank not held (O31). -/

namespace Sys2Proof.Machine

section
variable {s : State} {g : BitVec 4} {va : BitVec 10}

/-! ### VCMP (R191) -/

/-- VCMP whose rows may be read leaves its predicate pair in flight. -/
theorem exec_vcmp {vb : BitVec 10} (hheld : s.heldOk [s.vrow va, s.vrow vb] = .ok) (hgood : s.rowsGood [s.vrow va, s.vrow vb] = .ok) (pd cond : BitVec 4) :
    let ty := s.me.rowType (s.vrow va)
    let m := s.lanesOn g ty
    let t := bitsWhere (tyLanes ty) fun k => laneCmp cond.toNat ty ((codesOf ty (s.me.row (s.vrow va))).getD k 0) ((codesOf ty (s.me.row (s.vrow vb))).getD k 0)
    let high := ~~~ BitVec.ofNat 64 (2 ^ tyLanes ty - 1)
    exec (.vcmp g pd va vb cond) s = .next (s.fly (s.op 2 4 (s.me.divisor 1)
      [.preg pd.toNat (m ||| high) (t &&& m), .preg (pd.toNat + 1) (m ||| high) (~~~t &&& m)])) := by
  show execVcmp g pd va vb cond s = _
  simp only [execVcmp, hheld, hgood, Chk.seq_ok, State.gate_ok]

/-! ### VFLAG (R197) -/

/-- The condition that VFLAG takes from the guarded bits v of a predicate under a mask: ANY, ALL or NONE, by its kind. -/
def flagValue (kd : BitVec 2) (m v : Word) : Bool :=
  if kd = 0#2 then v != 0#64 else if kd = 1#2 then v == m else v == 0#64

theorem exec_vflag_condition {kd : BitVec 2} (hkd : kd ≠ 3#2) (dst : BitVec 5) (ps : BitVec 4) :
    let f := flagValue kd (s.guardV g) (s.me.pred ps.toNat &&& s.guardV g)
    exec (.vflag g dst ps kd) s = .next (s.fly (s.op 2 5 (s.me.divisor 1) [.creg (dst.toNat % 8) f, .creg (dst.toNat % 8 + 1) (!f)])) := by
  have hkinds : kd = 0#2 ∨ kd = 1#2 ∨ kd = 2#2 := by
    revert kd
    decide
  rcases hkinds with rfl | rfl | rfl <;> rfl

theorem exec_vflag_count {dst : BitVec 5} (hreg : s.regsOk [dst] = .ok) (ps : BitVec 4) :
    exec (.vflag g dst ps 3#2) s =
      .next (s.fly (s.op 2 5 (s.me.divisor 1) [s.xLand dst (BitVec.ofNat 64 (popcount (s.me.pred ps.toNat &&& s.guardV g)))])) := by
  show execVflag g dst ps 3#2 s = _
  simp only [execVflag, hreg, if_true, State.gate_ok]

/-! ### VSEND (R199, R200) -/

section
variable {dir : BitVec 3} {peer : Nat} {grp : Grp} (hpeer : s.meshPeer dir.toNat = some peer) (hgrp : s.grpAt s.ctx.core = some grp)
include hpeer hgrp

theorem exec_vsend_idle (hnone : s.lanesOn g (s.me.rowType (s.vrow va)) = 0#64) : exec (.vsend g va dir) s = .next s := by
  show execVsend g va dir s = _
  simp only [execVsend, hpeer, hgrp, hnone, if_true]

/-- With room in the receiver's q7 for a row present there at a tick, VSEND reserves the entry and leaves the row in flight. -/
theorem exec_vsend_sends (hlanes : s.lanesOn g (s.me.rowType (s.vrow va)) ≠ 0#64) (hheld : s.heldOk [s.vrow va] = .ok) (hgood : s.rowsGood [s.vrow va] = .ok)
    {present : Nat} (hpresent : s.ctx.tick + 3 + 3 * grp.hops s.ctx.core - 3 * grp.hops peer = present)
    (hroom : (s.core peer).sentHeld (grp.hops peer) present s.ctx.core (grp.hops s.ctx.core) s.ctx.tick < 16) :
    let ty := s.me.rowType (s.vrow va)
    let t := s.modCore peer fun c => c.reserveSent s.ctx.core s.ctx.iseq present
    exec (.vsend g va dir) s =
      .next (t.fly { t.op 2 3 1 [.mesh peer (s.me.row (s.vrow va) &&& laneMask (tyWidth ty) (tyLanes ty) (s.lanesOn g ty))] with wide := true }) := by
  show execVsend g va dir s = _
  simp only [execVsend, hpeer, hgrp, if_neg hlanes, hpresent, decide_eq_true hroom, Bool.or_true, Chk.need_true, hheld, hgood, Chk.seq_ok, State.gate_ok]

end

end

/-! ### Row syllables whatever their guard (R132) -/

theorem State.heldOk_unheld {s : State} {rs : List Nat} (h : (rs.all fun r => (s.me.bank (r / 16)).held) = false) :
    s.heldOk rs = .fault { cause := 0x0E } := by
  rw [State.heldOk, h]
  rfl

/-- A row syllable with nothing else wrong raises BANK-UNHELD over a bank that is not held. -/
theorem State.vec_unheld {s : State} {row : VectorRow} (hmore : row.more s = .ok) (hgood : s.rowsGood (row.srcs.map s.vrow) = .ok)
    (hunheld : ((s.vrow row.vd :: row.srcs.map s.vrow).all fun r => (s.me.bank (r / 16)).held) = false) :
    s.vec row.guard row.lat row.vd row.srcs row.more row.value = s.raise { cause := 0x0E } := by
  simp only [State.vec, State.heldOk_unheld hunheld, hmore, hgood, Chk.seq_ok_right, State.gate_fault]

/-- A syllable of R188 to R192 that writes a row is the row syllable of its rule. -/
theorem exec_of_vectorRow {i : Instr} {row : VectorRow} (h : vectorRow i = some row) (s : State) :
    exec i s = .next (s.vec row.guard row.lat row.vd row.srcs row.more row.value) := by
  cases i with
  | vadd | vsub | vmul | vfma | vfms | vadds | vsubs | vmin | vmax | vclamp | vabs | vneg | vmullo | vmulh | vand | vor | vxor | vnot | vrshr | vshl | vshr | vsar
  | vrotl | vmovi | vbc | viota | vsel | vmov | vperm =>
    cases h
    rfl
  | _ => cases h

/-- Settles O31, syllable by syllable; the syllables that write a row through the row syllable that each is. -/
theorem vectorFlagsAndSends : Obligations.VectorFlagsAndSends := by
  unfold Obligations.VectorFlagsAndSends
  refine ⟨fun g pd va vb cond s hheld hgood => ?vcmp, fun g dst ps kd s hkd => ?condition, fun g dst ps s hreg => ?count,
    fun g va dir peer grp s hpeer hgrp hlanes hheld hgood => ?sends, fun i row s hrow hmore hgood hunheld => ?unheld,
    fun g va dir peer grp s hpeer hgrp hnone => ?idle⟩
  case vcmp => exact exec_vcmp hheld hgood pd cond
  case condition => exact exec_vflag_condition hkd dst ps
  case count => exact exec_vflag_count hreg ps
  case sends => exact exec_vsend_sends hpeer hgrp hlanes hheld hgood rfl
  case unheld => rw [exec_of_vectorRow hrow, State.vec_unheld hmore hgood hunheld]
  case idle => exact exec_vsend_idle hpeer hgrp hnone

end Sys2Proof.Machine

/-! PROOFS. Accesses of a management core at issue (O41). -/

namespace Sys2Proof.Machine

/-! ### Accesses of a management core (R389, R390) -/

/-- An access syllable with a true guard whose registers may be used, on a management core, is its whole access (R390). -/
theorem exec_accessRow_mgmt {i : Instr} {r : AccessRow} {s : State} (hrow : accessRow i = some r) (hwho : s.ctx.who = .mgmt) (hguard : s.guardC r.guard = true)
    (hregs : s.regsOk r.regs = .ok) (hstq : ∀ g q b imm md, i ≠ .stq g q b imm md) :
    exec i s = .next (s.mgmtAccess i (r.addr s) (r.data s) (r.extra s)) := by
  have haccess (addr data extra : Word) : s.access i r.regs addr data extra = s.mgmtAccess i addr data extra := by
    rw [State.access, hregs, State.gate_ok]
    simp only [hwho]
  cases i with
  | ld | ldx | st | stx | await | aadd | amin | amax | aand | aor | axor | axchg | acas =>
    cases hrow
    rw [← haccess]
    exact congrArg Host.Outcome.next (if_pos hguard)
  | stq g q b imm md => exact absurd rfl (hstq g q b imm md)
  | _ => cases hrow

/-- A system address that names HBM names the byte that its low 39 bits give. -/
theorem hbm_of_sysaddr {p : Word} {a : Nat} (h : sysaddr p = .hbm a) : p.toNat % 2 ^ 39 = a ∧ p.toNat % 2 ^ 40 = a := by
  unfold sysaddr at h
  dsimp only at h
  split at h
  · cases h
  · split at h
    · cases h
      omega
    · split at h
      · cases h
      · split at h <;> cases h

/-- Every access is of a power of two bytes, 128 at most (R263, R265, R291). -/
theorem accOf_size {i : Instr} {k : Acc} (h : accOf i = some k) : k.size ∣ 2 ^ 40 := by
  have hscalar (sz : BitVec 2) : 2 ^ sz.toNat ∣ 2 ^ 40 := Nat.pow_dvd_pow 2 (by omega)
  cases i with
  | ld | ldx | st | stx | await | aadd | amin | amax | aand | aor | axor | axchg | acas =>
    cases h
    exact hscalar _
  | ldq | stq =>
    cases h
    exact Nat.pow_dvd_pow 2 (show 7 ≤ 40 by decide)
  | _ => cases h

/-- Every access that stands unfinished has a size. -/
theorem accOf_of_accessRow {i : Instr} {r : AccessRow} (h : accessRow i = some r) : ∃ k, accOf i = some k ∧ accessSize i = k.size := by
  cases i with
  | ld | ldx | st | stx | stq | await | aadd | amin | amax | aand | aor | axor | axchg | acas => exact ⟨_, rfl, rfl⟩
  | _ => cases h

/-- An AWAIT whose condition holds has found its value (R295). -/
theorem awaitValue_holds {cond sz : Nat} {d : Bytes} {v : Word} (h : awaitHolds cond sz (loadValue sz (2 ≤ cond && cond ≤ 5) d) v = true) :
    awaitValue cond sz d v = some (loadValue sz (2 ≤ cond && cond ≤ 5) d) := if_pos h

section Hbm
variable {s : State} {i : Instr} {k : Acc} {a : Nat} {addr : Word} (hplace : sysaddr addr = .hbm a)
include hplace

theorem sysaddr_aligned (hacc : accOf i = some k) (halign : a % k.size = 0) : addr.toNat % k.size = 0 := by
  rw [← Nat.mod_mod_of_dvd addr.toNat (accOf_size hacc), (hbm_of_sysaddr hplace).2, halign]

variable (hacc : accOf i = some k) (halign : a % k.size = 0) (hcopied : s.copied (.hbm a) k.size = false) (hbad : s.readBad (.hbm a) k.size = false)
include hacc halign hcopied

/-- A store to HBM leaves its bytes (R264). -/
theorem State.mgmtAccess_store (hwr : k.wr = true) (hatom : k.atom = false) (hstq : ∀ g q b imm md, i ≠ .stq g q b imm md) (data extra : Word) :
    s.mgmtAccess i addr data extra = s.mgmtWrite a (leBytes k.size data.toNat) := by
  have haligned := sysaddr_aligned hplace hacc halign
  have haddr : addr.toNat % 549755813888 = a := (hbm_of_sysaddr hplace).1
  cases i with
  | st | stx =>
    have hrd : k.rd = false := by cases hacc; rfl
    simp [State.mgmtAccess, hacc, hplace, haddr, haligned, hcopied, hrd]
  | stq g q b imm md => exact absurd rfl (hstq g q b imm md)
  | ld | ldx | ldq | await => cases hacc; cases hwr
  | aadd | amin | amax | aand | aor | axor | axchg | acas => cases hacc; cases hatom
  | _ => cases hacc

include hbad

/-- A load from HBM gives its register the value it finds (R264). -/
theorem State.mgmtAccess_load {r : AccessRow} (hrow : accessRow i = some r) {v : Word} (hv : loadedWord i (s.mgmtRead a k.size) = some v) (data extra : Word) :
    s.mgmtAccess i addr data extra = s.putReg 1 r.rd v := by
  have haligned := sysaddr_aligned hplace hacc halign
  have haddr : addr.toNat % 549755813888 = a := (hbm_of_sysaddr hplace).1
  cases i with
  | ld | ldx =>
    cases hrow
    cases hv
    simp [State.mgmtAccess, hacc, hplace, haddr, haligned, hcopied, hbad]
  | _ => cases hv

/-- An AWAIT of HBM whose condition holds gives its register the value (R295). -/
theorem State.mgmtAccess_await {g : BitVec 4} {rd b s2 : BitVec 5} {cond : BitVec 4} {sz ord : BitVec 2} {scp : BitVec 3} (hi : i = .await g rd b s2 cond sz ord scp)
    {data : Word} (hholds : awaitHolds cond.toNat sz.toNat (loadValue sz.toNat (2 ≤ cond.toNat && cond.toNat ≤ 5) (s.mgmtRead a k.size)) data = true) (extra : Word) :
    s.mgmtAccess i addr data extra = s.putReg 1 rd (loadValue sz.toNat (2 ≤ cond.toNat && cond.toNat ≤ 5) (s.mgmtRead a k.size)) := by
  have haligned := sysaddr_aligned hplace hacc halign
  have haddr : addr.toNat % 549755813888 = a := (hbm_of_sysaddr hplace).1
  subst hi
  simp [State.mgmtAccess, hacc, hplace, haddr, haligned, hcopied, hbad, awaitValue_holds hholds]

/-- An atomic in HBM leaves its new word and gives its register the old one (R292). -/
theorem State.mgmtAccess_atomic {r : AccessRow} (hrow : accessRow i = some r) (hwr : k.wr = true) (hatom : k.atom = true) (data extra : Word) :
    s.mgmtAccess i addr data extra =
      let old := BitVec.ofNat 64 (leNat (s.mgmtRead a k.size))
      (match atomicNew i (8 * k.size) old data extra with
        | some v => s.mgmtWrite a (leBytes k.size v.toNat)
        | none => s).putReg 1 r.rd old := by
  have haligned := sysaddr_aligned hplace hacc halign
  have haddr : addr.toNat % 549755813888 = a := (hbm_of_sysaddr hplace).1
  cases i with
  | aadd | amin | amax | aand | aor | axor | axchg | acas =>
    cases hrow
    simp [State.mgmtAccess, hacc, hplace, haddr, haligned, hcopied, hbad] <;> rfl
  | st | stx | stq => cases hacc; cases hatom
  | ld | ldx | ldq | await => cases hacc; cases hwr
  | _ => cases hacc

end Hbm

/-- A read or write of HBM outside the save images is one of HBM (R390, log entry 101). -/
theorem State.mgmt_hbm {s : State} {a : Nat} (h : s.imageAt a = none) (k : Nat) (d : Bytes) :
    s.mgmtRead a k = Memory.bytes s.hbm a k ∧ (s.mgmtWrite a d).hbm = Memory.store s.hbm a d ∧ (s.mgmtWrite a d).ctx = s.ctx ∧
      (s.mgmtWrite a d).cores = s.cores := by
  unfold State.mgmtRead State.mgmtWrite
  rw [h]
  exact ⟨rfl, rfl, rfl, rfl⟩

/-- A cause raised on a management core halts it and leaves HBM as it is (R389, R398). -/
theorem State.raise_mgmt {s : State} (hwho : s.ctx.who = .mgmt) (k : Cause) :
    ((s.raise k).mcore s.ctx.core).halted = true ∧ (s.raise k).ctx.out = .stopped ∧ (s.raise k).hbm = s.hbm := by
  refine ⟨?_, s.raise_out k, ?_⟩
  · simp only [State.raise, hwho]
    exact congrArg Mgmt.halted (s.mcore_setMcore_self ..)
  · simp only [State.raise, hwho]
    rfl

/-- An access at an address that names nothing raises ADDRESS-SPACE (R390). -/
theorem State.mgmtAccess_nowhere {s : State} {i : Instr} {r : AccessRow} (hrow : accessRow i = some r) {addr : Word} (hplace : sysaddr addr = .none) (data extra : Word) :
    s.mgmtAccess i addr data extra = s.raise { cause := 0x15, addr := addr } := by
  obtain ⟨k, hk, -⟩ := accOf_of_accessRow hrow
  simp [State.mgmtAccess, hk, hplace]

theorem exec_fence_mgmt {s : State} (hwho : s.ctx.who = .mgmt) (g : BitVec 4) (ord : BitVec 2) (scp : BitVec 3) : exec (.fence g ord scp) s = .next s := by
  show execFence g ord scp s = _
  simp [execFence, hwho]

theorem exec_pref_mgmt {s : State} (hwho : s.ctx.who = .mgmt) {b : BitVec 5} (hregs : s.regsOk [b] = .ok) (g : BitVec 4) (imm : BitVec 24) :
    exec (.pref g b imm) s = .next s := by
  show execPref g b imm s = _
  simp [execPref, hwho, hregs]

/-- Settles O41: the accesses through the whole access of a management core, then load, store, AWAIT and atomic. -/
theorem managementAccesses : Obligations.ManagementAccesses := by
  unfold Obligations.ManagementAccesses
  refine ⟨fun i r a s hrow hwho hguard hregs hplace halign hcopied hbad => ?hbm, fun a k d s himage => s.mgmt_hbm himage k d,
    fun g ord scp s hwho => exec_fence_mgmt hwho g ord scp, fun g b imm s hwho hregs => exec_pref_mgmt hwho hregs g imm,
    fun i r s hrow hwho hguard hregs hplace hstq => ?nowhere⟩
  case hbm =>
    obtain ⟨k, hacc, hsize⟩ := accOf_of_accessRow hrow
    rw [hsize] at halign hcopied hbad
    have hexec := exec_accessRow_mgmt hrow hwho hguard hregs
    refine ⟨fun v hv => ?load, fun k' hk' hwr hatom hstq => ?store, fun g rd b s2 cond sz ord scp hi hholds => ?await, fun k' hk' hatom hwr => ?atomic⟩
    case load =>
      rw [hsize] at hv
      have hstq (g q b imm md) : i ≠ .stq g q b imm md := by rintro rfl; cases hv
      rw [hexec hstq, State.mgmtAccess_load hplace hacc halign hcopied hbad hrow hv]
    case store =>
      obtain rfl := Option.some.inj (hacc.symm.trans hk')
      rw [hexec hstq, State.mgmtAccess_store hplace hacc halign hcopied hwr hatom hstq]
    case await =>
      have hstq (g q b imm md) : i ≠ .stq g q b imm md := by rintro rfl; cases hi
      obtain ⟨hdata, hsz⟩ : r.data s = s.reg s2 ∧ k.size = 2 ^ sz.toNat := by
        subst hi
        cases hrow
        cases hacc
        exact ⟨rfl, rfl⟩
      rw [← hdata, ← hsz] at hholds
      rw [hexec hstq, State.mgmtAccess_await hplace hacc halign hcopied hbad hi hholds, hsz]
    case atomic =>
      obtain rfl := Option.some.inj (hacc.symm.trans hk')
      have hstq (g q b imm md) : i ≠ .stq g q b imm md := by rintro rfl; cases hacc; cases hatom
      exact (hexec hstq).trans (congrArg Host.Outcome.next (State.mgmtAccess_atomic hplace hacc halign hcopied hbad hrow hwr hatom _ _))
  case nowhere =>
    obtain ⟨hhalted, hout, hhbm⟩ := s.raise_mgmt hwho { cause := 0x15, addr := r.addr s }
    refine ⟨_, ?_, hhalted, hout, hhbm⟩
    rw [exec_accessRow_mgmt hrow hwho hguard hregs hstq, s.mgmtAccess_nowhere hrow hplace]

end Sys2Proof.Machine

/-! SUPPORT. Words laid down one after another in memory, and steps over a list that names each place once. -/

namespace Sys2Proof.Machine

/-! ### Words laid down one after another -/

/-- A word below the bytes stored. -/
theorem Memory.word_store_above (m : Memory) {a b : Nat} (d : Bytes) (h : b + 8 ≤ a) : Memory.word (Memory.store m a d) b = Memory.word m b := by
  have hread (c : Nat) (_ : b ≤ c) (hhi : c < b + 8) := Memory.read_store_other m a c d (.inl (by omega))
  rw [Memory.word, Memory.le, Memory.bytes_congr hread, ← Memory.le, ← Memory.word]

/-- Word i of words stored from an address up, whatever follows them. -/
theorem Memory.word_store_words (m : Memory) (a : Nat) (ws : List Word) (rest : Bytes) {i : Nat} (h : i < ws.length) :
    Memory.word (Memory.store m a (ws.flatMap wordBytes ++ rest)) (a + 8 * i) = ws[i] := by
  induction ws generalizing m a i with
  | nil => cases h
  | cons w ws ih =>
    rw [List.flatMap_cons, List.append_assoc, Memory.store_append, show (wordBytes w).length = 8 from leBytes_length 8 _]
    cases i with
    | zero => exact (Memory.word_store_above _ _ (Nat.le_refl _)).trans (Memory.word_store m a w)
    | succ i =>
      rw [show a + 8 * (i + 1) = a + 8 + 8 * i by omega]
      exact ih _ _ (Nat.lt_of_succ_lt_succ h)

/-- The bytes of a number depend on no more of it than they hold. -/
theorem leBytes_mod (n v : Nat) : leBytes n (v % 256 ^ n) = leBytes n v := by
  induction n generalizing v with
  | zero => rfl
  | succ n ih =>
    have hlow : BitVec.ofNat 8 (v % 256 ^ (n + 1)) = BitVec.ofNat 8 v := by
      apply BitVec.eq_of_toNat_eq
      simp only [BitVec.toNat_ofNat]
      exact Nat.mod_mod_of_dvd v (Dvd.intro_left (256 ^ n) rfl)
    have hhigh : v % 256 ^ (n + 1) / 256 = v / 256 % 256 ^ n := by
      rw [Nat.pow_succ, Nat.mul_comm, Nat.mod_mul_right_div_self]
    rw [leBytes, leBytes, hlow, hhigh, ih]

theorem wordBytes_ofNat (v : Nat) : wordBytes (BitVec.ofNat 64 v) = leBytes 8 v := by
  rw [wordBytes, BitVec.toNat_ofNat]
  exact leBytes_mod 8 v

/-! ### Steps over a list of places -/

section Steps
variable {β : Type} {v : State → Nat → β} {f : State → Nat → State} (hf : ∀ (t : State) {n m : Nat}, m ≠ n → v (f t n) m = v t m)
include hf

/-- Steps that each touch the place they are named after leave a place that is not among them. -/
theorem State.foldl_at_notMem {l : List Nat} {m : Nat} (hm : m ∉ l) (s : State) : v (l.foldl f s) m = v s m :=
  List.foldlRecOn (motive := fun t : State => v t m = v s m) _ _ rfl fun t ht _ hn => (hf t (ne_of_mem_of_not_mem hn hm).symm).trans ht

/-- At a place that is named once they come to its own step. -/
theorem State.foldl_at_mem {l : List Nat} (hl : l.Nodup) {m : Nat} (hm : m ∈ l) (s : State) : ∃ t : State, v t m = v s m ∧ v (l.foldl f s) m = v (f t m) m := by
  induction l generalizing s with
  | nil => cases hm
  | cons n l ih =>
    obtain ⟨hn, hl⟩ := List.nodup_cons.mp hl
    by_cases h : m = n
    · subst h
      exact ⟨s, rfl, State.foldl_at_notMem hf hn _⟩
    · obtain ⟨t, ht, hfold⟩ := ih hl ((List.mem_cons.mp hm).resolve_left h) (f s n)
      exact ⟨t, ht.trans (hf s h), hfold⟩

end Steps

/-- A change to each core of a list that names it once. -/
theorem State.foldl_modCore_self {l : List Nat} (hl : l.Nodup) {m : Nat} (hm : m ∈ l) (g : Core → Core) (s : State) :
    (l.foldl (fun s n => s.modCore n g) s).core m = g (s.core m) := by
  obtain ⟨t, ht, hfold⟩ := State.foldl_at_mem (v := State.core) (f := fun s n => s.modCore n g) (fun t _ _ h => t.core_modCore_other g h) hl hm s
  rw [hfold, State.core_modCore_self, ht]

end Sys2Proof.Machine

/-! PROOFS. Taking an exception (O57): what one core shows, what its freeze leaves and writes, and the stop of its group. -/

namespace Sys2Proof.Machine

/-! ### A cause in a core's header (R315, R319, R322) -/

/-- Marking commands with a cause leaves what watchpoints they touched. -/
theorem watched_map_cause (l : List Cmd) (p : Cmd → Prop) [DecidablePred p] (k : Nat) :
    (l.map fun o => if p o then { o with cause := k } else o).map (·.watched) = l.map (·.watched) := by
  rw [List.map_map]
  refine List.map_congr_left fun o _ => ?_
  dsimp only [Function.comp_apply]
  split <;> rfl

/-- Marking the operation that raised a cause changes operations, syllables, commands and, for the window engine, the cause of a window move (R319). -/
theorem Core.markOp_eq (c : Core) (k : Cause) : ∃ ops aops cmds w, c.markOp k = { c with ops := ops, aops := aops, cmds := cmds, x := { c.x with windowCause := w } } ∧
    cmds.map (·.watched) = c.cmds.map (·.watched) ∧ (w = c.x.windowCause ∨ k.engine = 6) := by
  unfold Core.markOp
  split
  · exact ⟨_, _, _, _, rfl, rfl, .inl rfl⟩
  · by_cases h : (k.engine = 6 && c.x.window.isSome && c.x.windowSeq = k.iseq) = true
    · have hengine : k.engine = 6 := by
        simp only [Bool.and_eq_true, decide_eq_true_eq] at h
        exact h.1.1
      exact ⟨_, _, _, k.cause, by rw [if_pos h], watched_map_cause .., .inr hengine⟩
    · exact ⟨_, _, _, _, by rw [if_neg h], watched_map_cause .., .inl rfl⟩

/-- Core d is core c with a cause in its header and the operation that raised it marked. -/
structure Core.Shows (c d : Core) (k : Cause) : Prop where
  header : (d.cause, d.code, d.causeEngine, d.causeIseq, d.detailAddr, d.detail) = (k.cause, k.code, k.engine, k.iseq, k.addr, k.detail)
  x : d.x = { c.x with windowCause := d.x.windowCause }
  window : d.x.windowCause = c.x.windowCause ∨ k.engine = 6
  streams : (d.a, d.saved) = (c.a, c.saved)
  rest : (d.inserted, d.tk) = (c.inserted, c.tk)
  watched : d.cmds.map (·.watched) = c.cmds.map (·.watched)

theorem Core.shows_cleared (c : Core) : c.Shows (c.putCause { cause := 0 }) { cause := 0 } := ⟨rfl, rfl, .inl rfl, rfl, rfl, rfl⟩

/-- A cause raised on a core whose header has been cleared takes its place (R322). -/
theorem Core.shows_raised (c : Core) (k : Cause) : c.Shows ((c.putCause { cause := 0 }).joinCause k) k := by
  obtain ⟨ops, aops, cmds, w, hmark, hwatched, hw⟩ := ((c.putCause { cause := 0 }).putCause k).markOp_eq k
  have hjoin : (c.putCause { cause := 0 }).joinCause k = ((c.putCause { cause := 0 }).putCause k).markOp k := rfl
  rw [hjoin, hmark]
  exact ⟨rfl, rfl, hw, rfl, rfl, hwatched⟩

theorem Core.Shows.unwatched {c d : Core} {k : Cause} (h : c.Shows d k) (hc : ∀ m ∈ c.cmds, m.watched = none) : ∀ m ∈ d.cmds, m.watched = none := by
  have hall : ∀ w ∈ d.cmds.map (·.watched), w = none := by
    rw [h.watched]
    simpa using hc
  exact fun m hm => hall _ (List.mem_map_of_mem hm)

/-- The engine of a core with no watched unit touched adds no cause (R348). -/
theorem Core.joinWatch_unwatched {c : Core} (h : ∀ m ∈ c.cmds, m.watched = none) : c.joinWatch = c := by
  refine List.foldlRecOn (motive := (· = c)) _ _ rfl fun d hd m hm => ?_
  simp only [h m hm]
  exact hd

/-! ### The freeze of one core (R311, R312, R315) -/

/-- The survey header starts with the words of R315. -/
theorem Core.header_words (c : Core) (cw : Word) (n : Nat) : ∃ rest, c.header cw n =
    [cw, c.x.k.pc, BitVec.ofNat 64 (max c.x.next c.ts), BitVec.ofNat 64 c.ts, c.a.k.pc, c.detailAddr, c.detail].flatMap wordBytes ++ rest := by
  unfold Core.header
  simp only [List.flatMap_cons, List.flatMap_nil, wordBytes_ofNat, List.append_assoc, List.nil_append]
  exact ⟨_, rfl⟩

theorem Core.writeSurvey_sp (c : Core) (n now : Nat) : (c.writeSurvey n now).sp =
    Memory.store c.sp 0x1F0000 (c.header c.causeWord (c.records n c.ts).length ++ (c.records n c.ts).flatMap fun r => r.flatMap wordBytes) := by
  simp only [Core.writeSurvey, Core.touch]

/-- What a survey as written shows in bank 31 (R315). -/
theorem Core.writeSurvey_word (c : Core) (n now : Nat) {i : Nat} (h : i < 7) : Memory.word (c.writeSurvey n now).sp (0x1F0000 + 8 * i) =
    [c.causeWord, c.x.k.pc, BitVec.ofNat 64 (max c.x.next c.ts), BitVec.ofNat 64 c.ts, c.a.k.pc, c.detailAddr, c.detail][i] := by
  obtain ⟨rest, hheader⟩ := c.header_words c.causeWord (c.records n c.ts).length
  rw [Core.writeSurvey_sp, hheader, List.append_assoc, Memory.word_store_words]

theorem Core.writeSurvey_rest (c : Core) (n now : Nat) :
    ((c.writeSurvey n now).cause, (c.writeSurvey n now).ts, (c.writeSurvey n now).a, (c.writeSurvey n now).x, (c.writeSurvey n now).inserted,
      (c.writeSurvey n now).tk) = (c.cause, c.ts, c.a, c.x, c.inserted, c.tk) := by
  simp only [Core.writeSurvey, Core.touch]

/-- The tokens of a core once a command that waits at its enqueue has given back the one it had taken (R276). -/
structure Core.TokensBack (c : Core) (tk : Store Nat) : Prop where
  kept : c.a.took = false → tk = c.tk
  back : ∀ (y : Cmd × List Cap) (ch : Nat), c.a.took = true → c.a.taken = some y → y.1.pops = some ch → sget 0 ch tk = min 15 (sget 0 ch c.tk + 1)

/-- Giving back a token changes the tokens and the enqueue that waits, and nothing else. -/
theorem Core.giveBack_eq (c : Core) : c.giveBack = { c with tk := c.giveBack.tk, a := { c.a with took := false, taken := none } } := by
  unfold Core.giveBack
  dsimp only
  split <;> rfl

theorem Core.giveBack_tokens (c : Core) : c.TokensBack c.giveBack.tk where
  kept htook := by simp [Core.giveBack, htook]
  back y ch htook htaken hpops := by simp [Core.giveBack, htook, htaken, hpops, Core.setTokens, Core.tokens]

/-- The core as its freeze leaves it before the survey is written. -/
def Core.halted (c : Core) (key : Nat) : Core :=
  { c.giveBack with ts := key, tick := if c.x.align.isSome && c.ops.isEmpty then c.tick else key, resumed := false, cause := if c.cause = 0 then 0x83 else c.cause }

/-- A core with no handler on it freezes with its survey written. -/
theorem State.core_freeze {s : State} {m : Nat} (h : (s.core m).saved = none) (g : Grp) :
    (s.freeze g m).core m = ((s.core m).halted g.key).writeSurvey m s.power.ref := by
  have hsaved : ¬ (s.core m).giveBack.saved.isSome = true := by
    rw [Core.giveBack_eq, h]
    exact Bool.false_ne_true
  exact (s.core_modCore_self m _).trans (if_neg hsaved)

/-- What a freeze leaves of a core besides its survey (R276, R311). -/
theorem Core.halted_eq (c : Core) (key : Nat) :
    ((c.halted key).cause, (c.halted key).ts, (c.halted key).a, (c.halted key).x, (c.halted key).inserted, (c.halted key).tk) =
      (if c.cause = 0 then 0x83 else c.cause, key, { c.a with took := false, taken := none }, c.x, c.inserted, c.giveBack.tk) ∧
    ((c.halted key).code, (c.halted key).causeEngine, (c.halted key).causeIseq, (c.halted key).detailAddr, (c.halted key).detail) =
      (c.code, c.causeEngine, c.causeIseq, c.detailAddr, c.detail) := by
  rw [Core.halted, Core.giveBack_eq]
  exact ⟨rfl, rfl⟩

/-- Core d is core c stopped with a cause k, its clock frozen at `key` and its survey written, as O57 says it. -/
structure Core.Stopped (c d : Core) (key : Nat) (k : Cause) : Prop where
  cause : d.cause = k.cause
  ts : d.ts = key
  a : d.a = { c.a with took := false, taken := none }
  inserted : d.inserted = c.inserted
  tokens : c.TokensBack d.tk
  x : d.x = { c.x with windowCause := d.x.windowCause }
  window : d.x.windowCause = c.x.windowCause ∨ k.engine = 6
  causeWord : Memory.word d.sp 0x1F0000 = BitVec.ofNat 64 (k.code % 65536 * 2 ^ 48 + k.iseq % 2 ^ 24 * 2 ^ 16 + k.engine * 2 ^ 8 + k.cause)
  next : Memory.word d.sp 0x1F0008 = c.x.k.pc
  tsWord : Memory.word d.sp 0x1F0018 = BitVec.ofNat 64 key
  apc : Memory.word d.sp 0x1F0020 = c.a.k.pc
  addr : Memory.word d.sp 0x1F0028 = k.addr
  detail : Memory.word d.sp 0x1F0030 = k.detail

/-- What a freeze makes of the cause that a core shows (R311). -/
def Cause.frozen (k : Cause) : Cause := { k with cause := if k.cause = 0 then 0x83 else k.cause }

/-- A core that shows a cause stops with it, and with GROUP-STOP where it shows none (R311, R312, R315). -/
theorem Core.Shows.stopped {c d : Core} {k : Cause} (h : c.Shows d k) (key n now : Nat) :
    c.Stopped ((d.halted key).writeSurvey n now) key k.frozen := by
  obtain ⟨hheader, hx, hwindow, hstreams, hrest, -⟩ := h
  simp only [Prod.mk.injEq] at hheader hstreams hrest
  obtain ⟨hcause, hcode, hengine, hiseq, haddr, hdetail⟩ := hheader
  obtain ⟨ha, -⟩ := hstreams
  obtain ⟨hinserted, htk⟩ := hrest
  have hpc : d.x.k.pc = c.x.k.pc := by rw [hx]
  have htokens : c.TokensBack d.giveBack.tk := by
    obtain ⟨hkept, hback⟩ := d.giveBack_tokens
    rw [ha, htk] at hkept hback
    exact ⟨hkept, hback⟩
  have hword {i : Nat} (hi : i < 7) := (d.halted key).writeSurvey_word n now hi
  have hrest := (d.halted key).writeSurvey_rest n now
  obtain ⟨hleft, hshown⟩ := d.halted_eq key
  rw [hleft] at hrest
  simp only [Prod.mk.injEq, hcause, ha, hinserted] at hrest hleft hshown
  obtain ⟨hcause', hts', ha', hx', hinserted', htk'⟩ := hrest
  obtain ⟨hlcause, hlts, hla, hlx, -, -⟩ := hleft
  obtain ⟨hlcode, hlengine, hliseq, hladdr, hldetail⟩ := hshown
  simp only [Core.causeWord, hlcause, hlts, hla, hlx, hlcode, hlengine, hliseq, hladdr, hldetail, hcode, hengine, hiseq, haddr, hdetail, hpc] at hword
  exact {
    cause := hcause'
    ts := hts'
    a := ha'
    inserted := hinserted'
    tokens := htk' ▸ htokens
    x := by rw [hx']; exact hx
    window := by rw [hx']; exact hwindow
    causeWord := hword (i := 0) (by decide)
    next := hword (i := 1) (by decide)
    tsWord := hword (i := 3) (by decide)
    apc := hword (i := 4) (by decide)
    addr := hword (i := 5) (by decide)
    detail := hword (i := 6) (by decide) }

/-! ### The stop of a running group (R311, R322) -/

/-- The state in which every core of a group is settled, none shows a cause but core n the one raised on it (R322). -/
def State.raisedOn (s : State) (g : Grp) (n : Nat) (k : Cause) : State :=
  (g.cores.foldl (fun s c => s.modCore c fun x => x.putCause { cause := 0 }) ((g.cores.foldl State.settle s).slipEnds g)).modCore n fun c => c.joinCause k

section Stop
variable {s : State} {g : Grp} {n : Nat} {k : Cause}

theorem State.stop_of_running (hat : s.grpAt n = some g) (hrun : g.status = .running) :
    s.stop n k = (((s.raisedOn g n k).frozenAll g).stopTraced g).setGrp { g with status := .stopped, slip := none } := by
  unfold State.stop
  rw [hat]
  dsimp only
  rw [if_pos (by rw [hrun]; rfl)]
  rfl

@[simp] theorem State.raisedOn_haltView (s : State) (g : Grp) (n : Nat) (k : Cause) : (s.raisedOn g n k).haltView = s.haltView := by
  unfold State.raisedOn
  rw [State.modCore_haltView, State.foldl_keeps State.haltView (f := fun s c => s.modCore c fun x => x.putCause { cause := 0 }) (fun _ _ => rfl), State.slipEnds_haltView]
  exact State.foldl_keeps State.haltView State.settle_haltView g.cores s

/-- The stopped group is found by its number. -/
theorem State.grp?_stop (hat : s.grpAt n = some g) (hrun : g.status = .running) : (s.stop n k).grp? g.num = some { g with status := .stopped, slip := none } := by
  rw [State.stop_of_running hat hrun]
  have hview : (((s.raisedOn g n k).frozenAll g).stopTraced g).haltView = s.haltView := by
    rw [State.stopTraced_haltView, State.frozenAll_haltView, State.raisedOn_haltView]
  have hgroups : (((s.raisedOn g n k).frozenAll g).stopTraced g).groups = s.groups :=
    (congrArg (fun v : List Grp × Nat × (Nat → List (Nat × List Nat)) => v.1) hview :)
  obtain ⟨-, -, hgrp⟩ := State.grp?_of_grpAt hat
  exact State.grp?_setGrp_self (g := { g with status := .stopped, slip := none }) ((State.grp?_of_groups hgroups g.num).trans hgrp)

/-- Past the raise, each core of a stop is changed by its own freeze. -/
theorem State.core_stop (hat : s.grpAt n = some g) (hrun : g.status = .running) (m : Nat) :
    (s.stop n k).core m = ((s.raisedOn g n k).frozenAll g).core m := by
  rw [State.stop_of_running hat hrun]
  exact State.core_of_cores (State.stopTraced_cores ..) m

variable (hveils : s.order.veils = [])
include hveils

/-- With every store seen everywhere, nothing is left to settle on any core. -/
theorem State.core_settled (m : Nat) : ((g.cores.foldl State.settle s).slipEnds g).core m = s.core m := by
  rw [State.core_of_cores (State.slipEnds_cores ..), foldl_eq_self fun x _ => s.settle_plain x hveils]

/-- A core outside the group is left as it is. -/
theorem State.core_stop_outside (hat : s.grpAt n = some g) (hrun : g.status = .running) (hn : n ∈ g.cores) {m : Nat} (hm : m ∉ g.cores) :
    (s.stop n k).core m = s.core m := by
  have hne : m ≠ n := fun heq => hm (heq ▸ hn)
  rw [State.core_stop hat hrun, State.frozenAll, State.foldl_at_notMem (v := State.core) (fun t _ _ h => t.freeze_other g h) hm,
    State.core_foldl_modCore_of_notMem _ hm, State.raisedOn, State.core_modCore_other _ _ hne, State.core_foldl_modCore_of_notMem _ hm, State.core_settled hveils]

variable (hnodup : g.cores.Nodup)
include hnodup

/-- Before the freeze core n shows the cause raised on it. -/
theorem State.raisedOn_shows_self (hn : n ∈ g.cores) : (s.core n).Shows ((s.raisedOn g n k).core n) k := by
  rw [State.raisedOn, State.core_modCore_self, State.foldl_modCore_self hnodup hn, State.core_settled hveils]
  exact (s.core n).shows_raised k

/-- The others of the group show none. -/
theorem State.raisedOn_shows_other {m : Nat} (hm : m ∈ g.cores) (hne : m ≠ n) : (s.core m).Shows ((s.raisedOn g n k).core m) { cause := 0 } := by
  rw [State.raisedOn, State.core_modCore_other _ _ hne, State.foldl_modCore_self hnodup hm, State.core_settled hveils]
  exact (s.core m).shows_cleared

omit hveils

/-- A core of the group with no handler on it and no watched unit touched stops with what it shows before the freeze. -/
theorem State.core_stop_stopped (hat : s.grpAt n = some g) (hrun : g.status = .running) {m : Nat} {k' : Cause} (hm : m ∈ g.cores)
    (hshows : (s.core m).Shows ((s.raisedOn g n k).core m) k') (hsaved : (s.core m).saved = none) (hwatched : ∀ c ∈ (s.core m).cmds, c.watched = none) :
    (s.core m).Stopped ((s.stop n k).core m) g.key k'.frozen := by
  have hwatch := State.foldl_modCore_self hnodup hm Core.joinWatch (s.raisedOn g n k)
  rw [Core.joinWatch_unwatched (hshows.unwatched hwatched)] at hwatch
  obtain ⟨t, ht, hfrozen⟩ := State.foldl_at_mem (v := State.core) (fun t _ _ h => t.freeze_other g h) hnodup hm (g.cores.foldl (fun s n => s.modCore n Core.joinWatch) (s.raisedOn g n k))
  rw [hwatch] at ht
  have hsaved' : (t.core m).saved = none := by
    rw [ht]
    exact (congrArg Prod.snd hshows.streams).trans hsaved
  rw [State.core_stop hat hrun, State.frozenAll, hfrozen, State.core_freeze hsaved', ht]
  exact hshows.stopped g.key m t.power.ref

end Stop

/-- Settles O57: the stop of a running group core by core, and the issue that a raise stops. -/
theorem stopEntry : Obligations.StopEntry := by
  unfold Obligations.StopEntry
  refine ⟨fun s n k g hat hrun hnodup hn hcause hcause' hcode hengine hiseq hsaved hwatched hveils => ?_, fun s k => s.raise_out k⟩
  have hself : (s.core n).Stopped ((s.stop n k).core n) g.key k := by
    have h := State.core_stop_stopped hnodup hat hrun hn (State.raisedOn_shows_self (k := k) hveils hnodup hn) (hsaved n hn) (hwatched n hn)
    rwa [Cause.frozen, if_neg (by omega)] at h
  have hother {m : Nat} (hm : m ∈ g.cores) (hne : m ≠ n) : (s.core m).Stopped ((s.stop n k).core m) g.key { cause := 0x83 } :=
    State.core_stop_stopped hnodup hat hrun hm (State.raisedOn_shows_other hveils hnodup hm hne) (hsaved m hm) (hwatched m hm)
  refine ⟨State.grp?_stop hat hrun, hself.cause, fun m hm hne => (hother hm hne).cause, fun m hm => ?core, ?word, hself.addr, hself.detail,
    fun m hm hne => (hother hm hne).causeWord, fun m hm => State.core_stop_outside hveils hat hrun hn hm⟩
  case core =>
    obtain ⟨k', h, hengine'⟩ : ∃ k', (s.core m).Stopped ((s.stop n k).core m) g.key k' ∧ (k'.engine = 6 → m = n ∧ k.engine = 6) := by
      by_cases hne : m = n
      · subst hne
        exact ⟨k, hself, fun h6 => ⟨rfl, h6⟩⟩
      · exact ⟨_, hother hm hne, fun h6 => absurd h6 (by decide)⟩
    exact ⟨h.ts, h.a, h.inserted, h.tokens.kept, h.tokens.back, h.x, h.window.imp_right hengine', h.next, h.tsWord, h.apc⟩
  case word =>
    have h := hself.causeWord
    rwa [Nat.mod_eq_of_lt hcode, Nat.mod_eq_of_lt hiseq] at h

end Sys2Proof.Machine

/-! SUPPORT. What holds of every listed core, and what a change to every core leaves in each. -/

namespace Sys2Proof.Machine

/-! ### Listed cores -/

/-- An entry of a store after a write is the one written or one from before. -/
theorem mem_sset {α : Type} [DecidableEq α] {d : α} {k : Nat} {v : α} {e : Nat × α} {l : Store α} (h : e ∈ sset d k v l) : e = (k, v) ∨ e ∈ l := by
  induction l with
  | nil =>
    rw [sset] at h
    split at h
    · cases h
    · exact .inl (List.mem_singleton.mp h)
  | cons a t ih =>
    rw [sset] at h
    split at h
    · rw [sdrop_eq_filter] at h
      exact .inr (List.mem_of_mem_filter h)
    · split at h
      · exact List.mem_cons.mp h
      · split at h
        · exact (List.mem_cons.mp h).imp_right (List.mem_cons_of_mem a)
        · obtain rfl | h := List.mem_cons.mp h
          · exact .inr List.mem_cons_self
          · exact (ih h).imp_right (List.mem_cons_of_mem a)

/-- What a store reads as at a key is the default or listed there. -/
theorem sget_eq_or_mem {α : Type} (d : α) (k : Nat) (l : Store α) : sget d k l = d ∨ (k, sget d k l) ∈ l := by
  induction l with
  | nil => exact .inl rfl
  | cons a t ih =>
    by_cases h : a.1 = k
    · rw [sget, if_pos h, ← h]
      exact .inr List.mem_cons_self
    · rw [sget, if_neg h]
      exact ih.imp_right (List.mem_cons_of_mem a)

section Listed
variable {P : Nat → Core → Prop} {s : State}

/-- What holds of every listed core and of a core as it is at reset holds of every core. -/
theorem State.core_of_listed (h : ∀ e ∈ s.cores, P e.1 e.2) (h0 : ∀ k, P k {}) (k : Nat) : P k (s.core k) := by
  obtain hd | hmem := sget_eq_or_mem {} k s.cores
  · rw [State.core, hd]
    exact h0 k
  · exact h _ hmem

/-- A change to one core that keeps what holds of it keeps it for every listed core. -/
theorem State.listed_modCore (h : ∀ e ∈ s.cores, P e.1 e.2) (h0 : ∀ k, P k {}) {n : Nat} {f : Core → Core} (hf : ∀ c, P n c → P n (f c)) :
    ∀ e ∈ (s.modCore n f).cores, P e.1 e.2 := by
  intro e he
  obtain rfl | he := mem_sset he
  · exact hf _ (State.core_of_listed h h0 n)
  · exact h e he

theorem State.listed_mapCores (h : ∀ e ∈ s.cores, P e.1 e.2) (h0 : ∀ k, P k {}) {f : Nat → Core → Core} (hf : ∀ k c, P k c → P k (f k c)) :
    ∀ e ∈ (s.mapCores f).cores, P e.1 e.2 :=
  List.foldlRecOn (motive := fun t : State => ∀ e ∈ t.cores, P e.1 e.2) _ _ h fun _ ht a _ => State.listed_modCore ht h0 (hf a.1)

/-- What a change to every core gives each, and what a core has as it is at reset, every core has after it. -/
theorem State.core_mapCores_all {f : Nat → Core → Core} (hf : ∀ k c, P k (f k c)) (h0 : ∀ k, P k {}) (s : State) (k : Nat) : P k ((s.mapCores f).core k) := by
  by_cases hk : ∃ e ∈ s.cores, e.1 = k
  · obtain ⟨e, he, rfl⟩ := hk
    refine foldl_establishes (P := fun t : State => P e.1 (t.core e.1)) (Q := fun _ => True) he (fun t _ => ?_) (fun t x ht => ?_) (fun _ _ _ => trivial) trivial
    · rw [State.core_modCore_self]
      exact hf _ _
    · by_cases hx : e.1 = x.1
      · rw [hx, State.core_modCore_self]
        exact hf _ _
      · rwa [State.core_modCore_other _ _ hx]
  · have hnone : s.core k = {} := (sget_eq_or_mem ({} : Core) k s.cores).resolve_right fun hmem => hk ⟨_, hmem, rfl⟩
    have hleft : (s.mapCores f).core k = s.core k :=
      List.foldlRecOn (motive := fun t : State => t.core k = s.core k) _ _ rfl fun t ht e he =>
        (t.core_modCore_other (f e.1) fun heq => hk ⟨e, he, heq.symm⟩).trans ht
    rw [hleft, hnone]
    exact h0 k

end Listed

end Sys2Proof.Machine

/-! PROOFS. The reuse of pages and TFENCE (O47). -/

namespace Sys2Proof.Machine

/-- A leaf that a discard keeps was cached at its stamp or after. -/
theorem stamp_of_mem_filter {q : Nat} {l : Leaf} {c : List Leaf} (h : l ∈ c.filter fun l => decide (q ≤ l.stamp)) : q ≤ l.stamp :=
  of_decide_eq_true (List.mem_filter.mp h).2

/-! ### Quarantine (R258, R259) -/

/-- What pages that leave quarantine and a change to every core have in common: contexts, the issue and the quarantine sequence number. -/
def State.pageView (s : State) : List Grp × Ctx × Nat := (s.groups, s.ctx, s.qseq)

theorem State.mapCores_pageView (s : State) (f : Nat → Core → Core) : (s.mapCores f).pageView = s.pageView :=
  State.foldl_keeps (f := fun t (e : Nat × Core) => t.modCore e.1 (f e.1)) State.pageView (fun _ _ => rfl) s.cores s

theorem State.storeHbm_pageView (s : State) (a : Nat) (d : Bytes) : ((s.storeHbm a d).pageView, (s.storeHbm a d).cores) = (s.pageView, s.cores) := by
  unfold State.storeHbm
  split <;> rfl

/-- Pages that leave quarantine change no core. -/
theorem State.releasePages_frame (s : State) (pn : Nat) (ready : Nat × Nat × Option (Nat × Nat) → Bool) :
    ((s.releasePages pn ready).pageView, (s.releasePages pn ready).cores) = (s.pageView, s.cores) := by
  unfold State.releasePages
  refine State.foldl_keeps (fun t : State => (t.pageView, t.cores)) (fun t x => ?_) _ _
  split
  · exact State.storeHbm_pageView ..
  · rfl

/-- The partitions after pages of one have left quarantine. -/
theorem State.releasePages_parts (s : State) (pn : Nat) (ready : Nat × Nat × Option (Nat × Nat) → Bool) :
    ∃ p, (s.releasePages pn ready).parts = (s.setPart pn p).parts ∧
      ((s.part pn).shadows = [] → p.quarantine = (s.part pn).quarantine.filter (fun e => !ready e) ∧
        p.released = (s.part pn).released ++ ((s.part pn).quarantine.filter ready).map (·.1)) := by
  unfold State.releasePages
  refine ⟨_, State.foldl_keeps State.parts (fun t x => ?_) _ _, fun h => ⟨rfl, ?_⟩⟩
  · split
    · exact State.storeHbm_parts ..
    · rfl
  · have hkept : ((s.part pn).quarantine.filter ready).filter (fun e => match e.2.2 with
        | some k => !(s.part pn).shadows.any fun x => (x.1, x.2.1) == k
        | none => true) = (s.part pn).quarantine.filter ready := by
      rw [h]
      exact List.filter_eq_self.mpr fun e _ => by split <;> rfl
    exact congrArg (fun l : List (Nat × Nat × Option (Nat × Nat)) => (s.part pn).released ++ l.map (·.1)) hkept

theorem State.part_releasePages_other (s : State) {pn q : Nat} (h : q ≠ pn) (ready : Nat × Nat × Option (Nat × Nat) → Bool) :
    (s.releasePages pn ready).part q = s.part q := by
  obtain ⟨p, hparts, -⟩ := s.releasePages_parts pn ready
  rw [State.part_of_parts hparts, State.part_setPart_other _ _ h]

/-- The state in which QSEQ has counted and the leaves cached before it reached its value are discarded (R259, log entry 40). -/
def State.qseqCounted (s : State) : State :=
  let s := s.mapCores fun _ c => { c with cache := c.cache.filter fun l => decide (s.qStamp ≤ l.stamp) }
  { s with qseq := s.qseq + 1, qAlive := s.alive, qStamp := s.stamp }

/-- The pages of one partition that entered quarantine two steps earlier leave it. -/
def State.releaseDue (s : State) (p : Nat) : State :=
  if (s.part p).quarantine = [] then s else s.releasePages p fun e => decide (e.2.1 + 2 ≤ s.qseq)

theorem State.releaseDue_frame (s : State) (p : Nat) : ((s.releaseDue p).pageView, (s.releaseDue p).cores) = (s.pageView, s.cores) := by
  unfold State.releaseDue
  split
  · rfl
  · exact State.releasePages_frame ..

theorem State.part_releaseDue_other (s : State) {p q : Nat} (h : q ≠ p) : (s.releaseDue p).part q = s.part q := by
  unfold State.releaseDue
  split
  · rfl
  · exact State.part_releasePages_other s h _

theorem exec_qseqAdvance {s : State} (h : ∀ x ∈ s.qAlive, x ∉ s.alive) : exec .qseqAdvance s = .next ((List.range 48).foldl State.releaseDue s.qseqCounted) := by
  have hnone : ¬ (s.qAlive.any fun x => s.alive.contains x) = true := by simpa using h
  exact congrArg Host.Outcome.next (if_neg hnone)

theorem exec_qseqAdvance_alive {s : State} {x : Nat × Nat × Nat} (hq : x ∈ s.qAlive) (ha : x ∈ s.alive) : exec .qseqAdvance s = .next s := by
  have hsome : (s.qAlive.any fun x => s.alive.contains x) = true := List.any_eq_true.mpr ⟨x, hq, List.contains_iff_mem.mpr ha⟩
  exact congrArg Host.Outcome.next (if_pos hsome)

theorem State.qseqCounted_view (s : State) : s.qseqCounted.groups = s.groups ∧ s.qseqCounted.qseq = s.qseq + 1 := by
  have hview := s.mapCores_pageView fun _ c => { c with cache := c.cache.filter fun l => decide (s.qStamp ≤ l.stamp) }
  simp only [State.pageView, Prod.mk.injEq] at hview
  obtain ⟨hgroups, -, hqseq⟩ := hview
  exact ⟨hgroups, congrArg (· + 1) hqseq⟩

theorem State.foldl_releaseDue_frame (s : State) (l : List Nat) :
    ((l.foldl State.releaseDue s).pageView, (l.foldl State.releaseDue s).cores) = (s.pageView, s.cores) :=
  State.foldl_keeps (fun t : State => (t.pageView, t.cores)) State.releaseDue_frame l s

/-- QSEQ counts with every context as it was and no leaf left that was cached before it reached its value (R259). -/
theorem exec_qseqAdvance_counts {s : State} (h : ∀ x ∈ s.qAlive, x ∉ s.alive) :
    ∃ t, exec .qseqAdvance s = .next t ∧ t.qseq = s.qseq + 1 ∧ t.groups = s.groups ∧ ∀ k, ∀ l ∈ (t.core k).cache, s.qStamp ≤ l.stamp := by
  have hframe := s.qseqCounted.foldl_releaseDue_frame (List.range 48)
  simp only [State.pageView, Prod.mk.injEq] at hframe
  obtain ⟨⟨hgroups, -, hqseq⟩, hcores⟩ := hframe
  obtain ⟨hgroups', hqseq'⟩ := s.qseqCounted_view
  refine ⟨_, exec_qseqAdvance h, hqseq.trans hqseq', hgroups.trans hgroups', fun k => ?_⟩
  rw [State.core_of_cores hcores]
  exact State.core_mapCores_all (P := fun _ c => ∀ l ∈ c.cache, s.qStamp ≤ l.stamp) (fun _ _ _ => stamp_of_mem_filter)
    (fun _ _ hl => nomatch hl) s k

/-- A page alone in quarantine is released when it was pushed two steps ago, and stays when it is younger (R259). -/
theorem exec_qseqAdvance_releases {p g q : Nat} {s : State} (hp : p < 48) (h : ∀ x ∈ s.qAlive, x ∉ s.alive) (hq : (s.part p).quarantine = [(g, q, none)])
    (hshadows : (s.part p).shadows = []) :
    ∃ t, exec .qseqAdvance s = .next t ∧
      (q + 2 ≤ s.qseq + 1 → (t.part p).released = (s.part p).released ++ [g] ∧ (t.part p).quarantine = []) ∧
      (s.qseq + 1 < q + 2 → (t.part p).released = (s.part p).released ∧ (t.part p).quarantine = [(g, q, none)]) := by
  refine ⟨_, exec_qseqAdvance h, ?_⟩
  have hstep (t : State) {n m : Nat} (hm : m ≠ n) : ((t.releaseDue n).part m, (t.releaseDue n).qseq) = (t.part m, t.qseq) := by
    have hframe := t.releaseDue_frame n
    simp only [State.pageView, Prod.mk.injEq] at hframe
    obtain ⟨⟨-, -, hqseq⟩, -⟩ := hframe
    rw [State.part_releaseDue_other t hm, hqseq]
  obtain ⟨t, ht, hfold⟩ := State.foldl_at_mem (v := fun t m => (t.part m, t.qseq)) hstep List.nodup_range (List.mem_range.mpr hp) s.qseqCounted
  obtain ⟨hpart, hqseq⟩ := Prod.mk.inj ht
  have hpart' : t.part p = s.part p := hpart.trans (State.part_of_parts (State.mapCores_parts s _) p)
  rw [s.qseqCounted_view.2] at hqseq
  obtain ⟨u, hparts, hleft⟩ := t.releasePages_parts p fun e => decide (e.2.1 + 2 ≤ t.qseq)
  rw [hpart'] at hleft
  obtain ⟨hquarantine, hreleased⟩ := hleft hshadows
  have hsome : (t.part p).quarantine ≠ [] := by
    rw [hpart', hq]
    exact List.cons_ne_nil _ _
  have hafter : ((List.range 48).foldl State.releaseDue s.qseqCounted).part p = u := by
    rw [(Prod.mk.inj hfold).1, State.releaseDue, if_neg hsome, State.part_of_parts hparts, State.part_setPart_self]
  rw [hafter, hquarantine, hreleased, hq, hqseq]
  refine ⟨fun hold => ?_, fun hyoung => ?_⟩
  · have hdue : q < s.qseq := by omega
    simp [hdue]
  · have hdue : ¬ q < s.qseq := by omega
    simp [hdue]

theorem exec_qpushWrite {p : Nat} {s : State} (h : (s.part p).quarantine.length + (s.part p).released.length < 65536) (v : Word) :
    exec (.qpushWrite p v) s = .next (s.modPart p fun x => { x with quarantine := x.quarantine ++ [(v.toNat / 65536 % 2 ^ 23, s.qseq, none)] }) :=
  congrArg Host.Outcome.next (if_neg (by omega))

theorem exec_qpushWrite_full {p : Nat} {s : State} (h : 65536 ≤ (s.part p).quarantine.length + (s.part p).released.length) (v : Word) :
    exec (.qpushWrite p v) s = .next s := congrArg Host.Outcome.next (if_pos h)

theorem exec_qpopRead_none {p : Nat} {s : State} (h : (s.part p).released = []) : exec (.qpopRead p) s = .next { s with reply := .status 0x8000000000000000#64 } := by
  show execQpopRead p s = _
  rw [execQpopRead, h]

theorem exec_qpopRead_first {p g : Nat} {rest : List Nat} {s : State} (h : (s.part p).released = g :: rest) :
    exec (.qpopRead p) s = .next { s.modPart p (fun x => { x with released := rest }) with reply := .status (BitVec.ofNat 64 (65536 * g)) } := by
  show execQpopRead p s = _
  rw [execQpopRead, h]
  rfl

/-! ### TFENCE (R260) -/

/-- The place among the translations that a TFENCE has, or takes (R260). -/
def State.tfenceStamp (s : State) (o : AOp) : Nat := if o.value = 0#64 then s.stamp + 1 else o.value.toNat

/-- The state in which a TFENCE has its place among the translations. -/
def State.tfencePlaced (s : State) (n : Nat) (o : AOp) : State :=
  if o.value = 0#64 then
    { s.modCore n fun c => c.modAop o.iseq fun y => { y with value := BitVec.ofNat 64 (s.tfenceStamp o) } with stamp := s.stamp + 1 }
  else s

/-- The state in which the translations cached before a TFENCE have been discarded in its scope. -/
def State.tfenceCleared (s : State) (n : Nat) (o : AOp) (scp mine : Nat) : State :=
  if o.begun then s
  else (s.mapCores fun k c => if inScope scp n k then { c with cache := c.cache.filter fun l => decide (mine ≤ l.stamp) } else c).modCore n fun c =>
    c.modAop o.iseq fun y => { y with begun := true }

/-- Whether a store before a TFENCE is still to be performed. -/
def State.tfenceHeld (s : State) (n q : Nat) : Bool :=
  ((s.core n).aops.takeWhile fun y => y.iseq != q).any fun y => (match accOf y.instr with | some a => a.wr | none => false) && y.phase != .done

/-- Whether a command that captured before a TFENCE is still unretired in its scope, in a saved context too. -/
def State.tfenceAwaits (s : State) (n scp mine : Nat) : Bool :=
  let old (k : Nat) (c : Core) : Bool := inScope scp n k && c.allCmds.any fun m => decide (m.stamp < mine)
  s.cores.any (fun e => old e.1 e.2) || s.groups.any fun g => g.images.any fun e => old e.1 e.2

/-- The stages of a TFENCE (R260). -/
theorem State.tfenceStep_eq (s : State) (n pn : Nat) (o : AOp) (scp : Nat) :
    s.tfenceStep n pn o scp =
      let t := s.tfencePlaced n o
      let u := t.tfenceCleared n o scp (s.tfenceStamp o)
      if t.tfenceHeld n o.iseq then t
      else if u.tfenceAwaits n scp (s.tfenceStamp o) then u
      else (if (u.part pn).reg 0x408 &&& 1#64 = 1#64 ∧ 3 ≤ scp then u.releasePages pn fun _ => true else u).modCore n fun c => c.dropAop o.iseq := by
  have hstamp : s.tfenceStamp o = if (o.value == 0#64) = true then s.stamp + 1 else o.value.toNat := by simp [State.tfenceStamp]
  have hplaced : s.tfencePlaced n o = if (o.value == 0#64) = true then
      { s.modCore n fun c => c.modAop o.iseq fun y => { y with value := BitVec.ofNat 64 (s.tfenceStamp o) } with stamp := s.stamp + 1 } else s := by
    simp [State.tfencePlaced]
  rw [hplaced, hstamp]
  rfl

/-- A core, if it is in the scope of a TFENCE, has only commands that captured at its stamp or after. -/
def Core.youngCmds (scp n mine k : Nat) (c : Core) : Prop := inScope scp n k = true → ∀ m ∈ c.allCmds, mine ≤ m.stamp

theorem Core.youngCmds_reset (scp n mine k : Nat) : Core.youngCmds scp n mine k {} := fun _ _ hm => nomatch hm

section Tfence
variable {n : Nat} {o : AOp} {scp : Nat} {s : State}

theorem State.modCore_cache {f : Core → Core} (hf : ∀ c, (f c).cache = c.cache) (s : State) (n k : Nat) : ((s.modCore n f).core k).cache = (s.core k).cache :=
  State.modCore_core_keeps (P := fun c => c.cache = (s.core k).cache) (fun c hc => (hf c).trans hc) n k rfl

/-- Having its place or its mark changes a TFENCE and no cache. -/
theorem State.modAop_cache (s : State) (n q : Nat) (f : AOp → AOp) (k : Nat) : ((s.modCore n fun c => c.modAop q f).core k).cache = (s.core k).cache :=
  State.modCore_cache (f := fun c => c.modAop q f) (fun _ => rfl) s n k

theorem State.tfencePlaced_cache (s : State) (n : Nat) (o : AOp) (k : Nat) : ((s.tfencePlaced n o).core k).cache = (s.core k).cache := by
  unfold State.tfencePlaced
  split
  · exact s.modAop_cache n o.iseq _ k
  · rfl

/-- The only unfinished syllable of a core stays the only one. -/
theorem State.tfencePlaced_aops (haops : (s.core n).aops = [o]) : ∃ x : AOp, ((s.tfencePlaced n o).core n).aops = [x] ∧ x.iseq = o.iseq := by
  unfold State.tfencePlaced
  split
  · have hcore := s.core_modCore_self n fun c => c.modAop o.iseq fun y => { y with value := BitVec.ofNat 64 (s.tfenceStamp o) }
    exact ⟨_, (congrArg Core.aops hcore).trans (Core.modAop_single haops _), rfl⟩
  · exact ⟨o, haops, rfl⟩

theorem State.tfenceCleared_aops {t : State} {x : AOp} (haops : (t.core n).aops = [x]) (hx : x.iseq = o.iseq) (mine : Nat) :
    ∃ y : AOp, ((t.tfenceCleared n o scp mine).core n).aops = [y] ∧ y.iseq = o.iseq := by
  unfold State.tfenceCleared
  split
  · exact ⟨x, haops, hx⟩
  · have hmap := State.core_mapCores Core.aops (f := fun k c => if inScope scp n k then { c with cache := c.cache.filter fun l => decide (mine ≤ l.stamp) } else c)
      (fun _ _ => by split <;> rfl) t n
    rw [State.core_modCore_self, ← hx]
    exact ⟨_, Core.modAop_single (hmap.trans haops) _, rfl⟩

/-- A TFENCE that discards leaves in its scope no leaf cached before it. -/
theorem State.tfenceCleared_cache (t : State) (hbegun : o.begun = false) (mine : Nat) {k : Nat} (hk : inScope scp n k = true) :
    ∀ l ∈ ((t.tfenceCleared n o scp mine).core k).cache, mine ≤ l.stamp := by
  unfold State.tfenceCleared
  rw [if_neg (by simp [hbegun]), State.modAop_cache]
  refine State.core_mapCores_all (P := fun k c => inScope scp n k = true → ∀ l ∈ c.cache, mine ≤ l.stamp) (fun k c hk => ?_) (fun _ _ _ hl => nomatch hl) t k hk
  rw [if_pos hk]
  exact fun _ => stamp_of_mem_filter

theorem State.tfenceCleared_begun (t : State) (hbegun : o.begun = true) (mine : Nat) : t.tfenceCleared n o scp mine = t := if_pos hbegun

theorem State.tfence_pageView (s : State) (n : Nat) (o : AOp) (scp mine : Nat) : ((s.tfencePlaced n o).tfenceCleared n o scp mine).pageView = s.pageView := by
  have hplaced : (s.tfencePlaced n o).pageView = s.pageView := by
    unfold State.tfencePlaced
    split <;> rfl
  rw [← hplaced]
  unfold State.tfenceCleared
  split
  · rfl
  · exact State.mapCores_pageView ..

theorem State.tfenceHeld_single {t : State} {x : AOp} (haops : (t.core n).aops = [x]) (hx : x.iseq = o.iseq) : t.tfenceHeld n o.iseq = false := by
  simp [State.tfenceHeld, haops, hx]

/-- With every command of the scope younger, a TFENCE waits for none. -/
theorem State.tfenceAwaits_none {mine : Nat} (hcores : ∀ e ∈ s.cores, e.2.youngCmds scp n mine e.1) (himages : ∀ r ∈ s.groups, ∀ im ∈ r.images, im.2.youngCmds scp n mine im.1) :
    s.tfenceAwaits n scp mine = false := by
  have hold {k : Nat} {c : Core} (hc : c.youngCmds scp n mine k) : ¬ (inScope scp n k && c.allCmds.any fun m => decide (m.stamp < mine)) = true := by
    simp only [Bool.and_eq_true, List.any_eq_true, decide_eq_true_eq, not_and, not_exists, not_lt]
    exact hc
  rw [State.tfenceAwaits, Bool.or_eq_false_iff]
  refine ⟨List.any_eq_false.mpr fun e he => hold (hcores e he), List.any_eq_false.mpr fun r hr => ?_⟩
  rw [Bool.not_eq_true, List.any_eq_false]
  exact fun im him => hold (himages r hr im him)

/-- What marks a TFENCE touches no command. -/
theorem State.youngCmds_modAop {mine : Nat} (h : ∀ e ∈ s.cores, e.2.youngCmds scp n mine e.1) (k q : Nat) (f : AOp → AOp) :
    ∀ e ∈ (s.modCore k fun c => c.modAop q f).cores, e.2.youngCmds scp n mine e.1 :=
  State.listed_modCore (f := fun c => c.modAop q f) h (Core.youngCmds_reset scp n mine) fun _ hc => hc

/-- Neither stage of a TFENCE touches a command. -/
theorem State.tfence_youngCmds {mine : Nat} (hcores : ∀ e ∈ s.cores, e.2.youngCmds scp n mine e.1) :
    ∀ e ∈ ((s.tfencePlaced n o).tfenceCleared n o scp mine).cores, e.2.youngCmds scp n mine e.1 := by
  have hplaced : ∀ e ∈ (s.tfencePlaced n o).cores, e.2.youngCmds scp n mine e.1 := by
    unfold State.tfencePlaced
    split
    · exact State.youngCmds_modAop hcores n o.iseq _
    · exact hcores
  unfold State.tfenceCleared
  split
  · exact hplaced
  · refine State.youngCmds_modAop (State.listed_mapCores hplaced (Core.youngCmds_reset scp n mine) fun k c hc => ?_) n o.iseq _
    split
    · exact hc
    · exact hc

/-- A TFENCE that is the only unfinished syllable of its core, with every command of its scope younger, completes (R260). -/
theorem State.tfenceStep_completes (haops : (s.core n).aops = [o]) (hcores : ∀ e ∈ s.cores, e.2.youngCmds scp n (s.tfenceStamp o) e.1)
    (himages : ∀ r ∈ s.groups, ∀ im ∈ r.images, im.2.youngCmds scp n (s.tfenceStamp o) im.1) (pn : Nat) :
    (s.tfenceStep n pn o scp).ctx = s.ctx ∧ ((s.tfenceStep n pn o scp).core n).aops = [] ∧
      (o.begun = true → ((s.tfenceStep n pn o scp).core n).cache = (s.core n).cache) ∧
      (o.begun = false → ∀ k, inScope scp n k = true → ∀ l ∈ ((s.tfenceStep n pn o scp).core k).cache, s.tfenceStamp o ≤ l.stamp) := by
  obtain ⟨x, hx, hxo⟩ := State.tfencePlaced_aops haops
  obtain ⟨y, hy, hyo⟩ := State.tfenceCleared_aops (scp := scp) hx hxo (s.tfenceStamp o)
  have hview := s.tfence_pageView n o scp (s.tfenceStamp o)
  have hgroups : ((s.tfencePlaced n o).tfenceCleared n o scp (s.tfenceStamp o)).groups = s.groups := congrArg Prod.fst hview
  have hwaits := State.tfenceAwaits_none (State.tfence_youngCmds (o := o) hcores) fun r hr => himages r (hgroups ▸ hr)
  have heq := s.tfenceStep_eq n pn o scp
  simp only [State.tfenceHeld_single hx hxo, hwaits, Bool.false_eq_true, if_false] at heq
  generalize hu : (s.tfencePlaced n o).tfenceCleared n o scp (s.tfenceStamp o) = u at *
  obtain ⟨v, hv, hvframe⟩ : ∃ v : State, s.tfenceStep n pn o scp = v.modCore n (fun c => c.dropAop o.iseq) ∧ (v.pageView, v.cores) = (u.pageView, u.cores) := by
    refine ⟨_, heq, ?_⟩
    split
    · exact State.releasePages_frame ..
    · rfl
  obtain ⟨hvview, hvcores⟩ := Prod.mk.inj hvframe
  have hctx : v.ctx = s.ctx := congrArg (fun w : List Grp × Ctx × Nat => w.2.1) (hvview.trans hview)
  have hcache (k : Nat) : ((v.modCore n fun c => c.dropAop o.iseq).core k).cache = (u.core k).cache := by
    rw [← State.core_of_cores hvcores k]
    exact State.modCore_cache (f := fun c => c.dropAop o.iseq) (fun _ => rfl) v n k
  rw [hv]
  refine ⟨hctx, ?_, fun hbegun => ?_, fun hbegun k hk => ?_⟩
  · rw [State.core_modCore_self, State.core_of_cores hvcores]
    simp [Core.dropAop, hy, hyo]
  · rw [hcache, ← hu, State.tfenceCleared_begun _ hbegun, State.tfencePlaced_cache]
  · rw [hcache, ← hu]
    exact State.tfenceCleared_cache _ hbegun _ hk

end Tfence

/-- A TFENCE that stands unfinished goes on as its step says (R260). -/
theorem exec_tfenceComplete {n pn : Nat} {g : BitVec 4} {scp : BitVec 3} {s : State} {o : AOp} (haops : (s.core n).aops = [o]) (hi : o.instr = .tfence g scp)
    (hpart : (s.core n).part = some pn) (hruns : s.opRuns n o.iseq = true) : exec (.tfenceComplete n) s = .next (s.eased (s.tfenceStep n pn o scp.toNat) n) := by
  show execTfenceComplete n s = _
  simp [execTfenceComplete, haops, hi, hpart, hruns]

/-- Ending a wait leaves the caches of every core alone (R35). -/
theorem State.eased_cache (s t : State) (n k : Nat) : ((s.eased t n).core k).cache = (t.core k).cache := by
  unfold State.eased
  split
  · refine State.modCore_cache ?_ t n k
    exact fun _ => rfl
  · rfl

/-- On a calm core a TFENCE goes on at once as its step says (R260). -/
theorem exec_tfence_calm {g : BitVec 4} {scp : BitVec 3} {s : State} (hcalm : s.calm) (hguard : s.guardC g = true) :
    ∃ pn, exec (.tfence g scp) s =
      .next ((s.pushSync (.tfence g scp) 0#64 0#64 0#64 false).tfenceStep s.ctx.core pn (s.syncRecord (.tfence g scp) 0#64) scp.toNat) := by
  obtain ⟨-, -, hpart, haops, -, -⟩ := hcalm
  obtain ⟨pn, hpart⟩ := Option.isSome_iff_exists.mp hpart
  have hop : (s.pushSync (.tfence g scp) 0#64 0#64 0#64 false).me.aop (s.pushSync (.tfence g scp) 0#64 0#64 0#64 false).ctx.iseq = some (s.syncRecord (.tfence g scp) 0#64) := by
    rw [State.me_pushSync, haops]
    exact List.find?_cons_of_pos (beq_self_eq_true _)
  refine ⟨pn, ?_⟩
  show execTfence g scp s = _
  simp only [execTfence, if_pos hguard, hpart, hop]
  rfl

/-- With no command anywhere, a TFENCE of a calm core completes and leaves in its scope no leaf cached before it (R260). -/
theorem exec_tfence_completes {g : BitVec 4} {scp : BitVec 3} {s : State} (hcalm : s.calm) (hguard : s.guardC g = true) (hcores : ∀ c ∈ s.cores, c.2.allCmds = [])
    (himages : ∀ r ∈ s.groups, ∀ im ∈ r.images, im.2.allCmds = []) :
    ∃ t, exec (.tfence g scp) s = .next t ∧ t.me.aops = [] ∧ ∀ k, inScope scp.toNat s.ctx.core k = true → ∀ l ∈ (t.core k).cache, s.stamp + 1 ≤ l.stamp := by
  obtain ⟨pn, hexec⟩ := exec_tfence_calm (scp := scp) hcalm hguard
  have haops : ((s.pushSync (.tfence g scp) 0#64 0#64 0#64 false).core s.ctx.core).aops = [s.syncRecord (.tfence g scp) 0#64] := by
    obtain ⟨-, -, -, hnone, -, -⟩ := hcalm
    have hme : (s.pushSync (.tfence g scp) 0#64 0#64 0#64 false).core s.ctx.core = _ := s.me_pushSync (.tfence g scp) 0#64
    rw [hme, hnone, List.nil_append]
  have hyoung (k : Nat) {c : Core} (hc : c.allCmds = []) : c.youngCmds scp.toNat s.ctx.core (s.stamp + 1) k := fun _ m hm => by
    rw [hc] at hm
    cases hm
  have hlisted : ∀ e ∈ (s.pushSync (.tfence g scp) 0#64 0#64 0#64 false).cores, e.2.youngCmds scp.toNat s.ctx.core (s.stamp + 1) e.1 :=
    State.listed_modCore (f := fun c => { c with aops := c.aops ++ [s.syncRecord (.tfence g scp) 0#64] }) (fun e he => hyoung e.1 (hcores e he))
      (Core.youngCmds_reset _ _ _) fun _ hc => hc
  obtain ⟨hctx, haops', -, hclears⟩ := State.tfenceStep_completes haops hlisted (fun r hr im him => hyoung im.1 (himages r hr im him)) pn
  refine ⟨_, hexec, ?_, hclears rfl⟩
  rw [State.me, hctx]
  exact haops'

/-- A TFENCE alone on its core with no older command in its scope completes at TFENCE_COMPLETE, discarding what it has not yet discarded (R260). -/
theorem exec_tfenceComplete_completes {n pn : Nat} {g : BitVec 4} {scp : BitVec 3} {s : State} {o : AOp} (haops : (s.core n).aops = [o]) (hi : o.instr = .tfence g scp)
    (hpart : (s.core n).part = some pn) (hruns : s.opRuns n o.iseq = true) (hcores : ∀ e ∈ s.cores, e.2.youngCmds scp.toNat n (s.tfenceStamp o) e.1)
    (himages : ∀ r ∈ s.groups, ∀ im ∈ r.images, im.2.youngCmds scp.toNat n (s.tfenceStamp o) im.1) :
    ∃ t, exec (.tfenceComplete n) s = .next t ∧ (t.core n).aops = [] ∧ (o.begun = true → (t.core n).cache = (s.core n).cache) ∧
      (o.begun = false → ∀ k, inScope scp.toNat n k = true → ∀ l ∈ (t.core k).cache, s.tfenceStamp o ≤ l.stamp) := by
  obtain ⟨-, haops', hbegun, hclears⟩ := State.tfenceStep_completes haops hcores himages pn
  refine ⟨_, exec_tfenceComplete haops hi hpart hruns, (s.core_eased _ n).2.1.trans haops', fun hb => ?_, fun hb k hk => ?_⟩
  · rw [State.eased_cache, hbegun hb]
  · rw [State.eased_cache]
    exact hclears hb k hk

/-- Settles O47, clause by clause; the stamp of a TFENCE is the one its statement names. -/
theorem pagesAndFences : Obligations.PagesAndFences := by
  unfold Obligations.PagesAndFences
  exact ⟨fun g scp s hcalm hguard hcores himages => exec_tfence_completes hcalm hguard hcores himages,
    fun n pn g scp s o haops hi hpart hruns hcores himages => exec_tfenceComplete_completes haops hi hpart hruns hcores himages,
    fun s h => exec_qseqAdvance_counts h, fun s x hq ha => exec_qseqAdvance_alive hq ha, fun p v s h => exec_qpushWrite h v,
    fun p v s h => exec_qpushWrite_full h v, fun p s h => exec_qpopRead_none h, fun p g rest s h => exec_qpopRead_first h,
    fun p g q s hp h hq hshadows => exec_qseqAdvance_releases hp h hq hshadows⟩

end Sys2Proof.Machine

/-! PROOFS. Delivery of a stop to handlers, reissue, and the restart of a resumed group (O58). -/

namespace Sys2Proof.Machine

/-! ### Delivery to handlers (R322, R323) -/

/-- What delivery makes of one core: it enters handler mode if a cause of its own stopped it (R323). -/
def State.deliverTo (entry : Word) (s : State) (n : Nat) : State :=
  if (s.core n).cause = 0x83 then s else s.modCore n fun c => c.enterHandler n entry

theorem State.deliverTo_groupStop {s : State} {n : Nat} (h : (s.core n).cause = 0x83) (entry : Word) : State.deliverTo entry s n = s := if_pos h

theorem State.deliverTo_caused {s : State} {n : Nat} (h : (s.core n).cause ≠ 0x83) (entry : Word) :
    (State.deliverTo entry s n).core n = (s.core n).enterHandler n entry := by
  rw [State.deliverTo, if_neg h, State.core_modCore_self]

theorem State.deliverTo_other (entry : Word) (s : State) {n m : Nat} (h : m ≠ n) : (State.deliverTo entry s n).core m = s.core m := by
  unfold State.deliverTo
  split
  · rfl
  · exact s.core_modCore_other _ h

theorem State.deliverTo_groups (entry : Word) (s : State) (n : Nat) : (State.deliverTo entry s n).groups = s.groups := by
  unfold State.deliverTo
  split <;> rfl

theorem State.deliverHandlers_eq (s : State) (g : Grp) (entry : Word) :
    s.deliverHandlers g entry = (g.cores.foldl (State.deliverTo entry) s).setGrp { g with status := .handling } := rfl

/-- A delivered group is in handler mode. -/
theorem State.grp?_deliverHandlers {s : State} {g : Grp} (hg : s.grp? g.num = some g) (entry : Word) :
    (s.deliverHandlers g entry).grp? g.num = some { g with status := .handling } := by
  have hgroups : (g.cores.foldl (State.deliverTo entry) s).groups = s.groups := State.foldl_keeps (·.groups) (State.deliverTo_groups entry) g.cores s
  rw [State.deliverHandlers_eq]
  exact State.grp?_setGrp_self (g := { g with status := .handling }) ((State.grp?_of_groups hgroups _).trans hg)

/-- Each core of the group is changed by its own delivery alone. -/
theorem State.core_deliverHandlers {s : State} {g : Grp} (hnodup : g.cores.Nodup) {n : Nat} (hn : n ∈ g.cores) (entry : Word) :
    ∃ t : State, t.core n = s.core n ∧ (s.deliverHandlers g entry).core n = (State.deliverTo entry t n).core n :=
  State.foldl_at_mem (v := State.core) (fun t _ _ h => State.deliverTo_other entry t h) hnodup hn s

theorem State.core_deliverHandlers_caused {s : State} {g : Grp} (hnodup : g.cores.Nodup) {n : Nat} (hn : n ∈ g.cores) (h : (s.core n).cause ≠ 0x83) (entry : Word) :
    (s.deliverHandlers g entry).core n = (s.core n).enterHandler n entry := by
  obtain ⟨t, ht, hdelivered⟩ := State.core_deliverHandlers hnodup hn entry
  rw [hdelivered, State.deliverTo_caused (by rwa [ht]), ht]

theorem State.core_deliverHandlers_groupStop {s : State} {g : Grp} (hnodup : g.cores.Nodup) {n : Nat} (hn : n ∈ g.cores) (h : (s.core n).cause = 0x83) (entry : Word) :
    (s.deliverHandlers g entry).core n = s.core n := by
  obtain ⟨t, ht, hdelivered⟩ := State.core_deliverHandlers hnodup hn entry
  rw [hdelivered, State.deliverTo_groupStop (by rwa [ht]), ht]

/-- Marking a bit of the cause word leaves it in bank 31 with that bit (R315). -/
theorem Core.word_markCause (c : Core) (bit : Nat) : Memory.word (c.markCause bit).sp 0x1F0000 = Memory.word c.sp 0x1F0000 ||| (1#64 <<< bit) := by
  rw [Core.markCause, Memory.word_store]

/-- A handler starts with x31 at its survey header and x1 the cause word with the handler bit (R323). -/
theorem Core.enterHandler_registers (c : Core) (n : Nat) (entry : Word) :
    sget 0#64 31 (c.enterHandler n entry).a.x = spPointer n 0x1F0000 ∧
      sget 0#64 1 (c.enterHandler n entry).a.x = Memory.word c.sp 0x1F0000 ||| 0x1000#64 := by
  have hx : (c.enterHandler n entry).a.x = sset 0#64 31 (spPointer n 0x1F0000) (sset 0#64 1 (Memory.word (c.markCause 12).sp 0x1F0000) []) := by
    rw [Core.enterHandler]
  rw [hx]
  refine ⟨sget_sset_self .., ?_⟩
  rw [sget_sset_other _ _ _ (by decide), sget_sset_self, Core.word_markCause]
  rfl

/-! ### Restart (R329) -/

/-- A change to the A-class syllables and the x registers of a core, and to nothing else of it. -/
structure Core.SameStreams (c d : Core) : Prop where
  x : d.x = c.x
  k : d.a.k = c.a.k

theorem Core.SameStreams.refl (c : Core) : c.SameStreams c := ⟨rfl, rfl⟩

theorem Core.SameStreams.trans {c d e : Core} (h : c.SameStreams d) (h' : d.SameStreams e) : c.SameStreams e := ⟨h'.x.trans h.x, h'.k.trans h.k⟩

theorem Core.sameStreams_setX (c : Core) (r : Nat) (v : Word) : c.SameStreams (c.setX r v) := by
  unfold Core.setX
  split
  · exact .refl c
  · exact ⟨rfl, rfl⟩

/-- The results written at a restart go to x registers (R330). -/
theorem Core.sameStreams_writeResults (c : Core) : c.SameStreams c.writeResults :=
  List.foldlRecOn (motive := c.SameStreams) _ _ (.refl c) fun _ hd o _ =>
    (hd.trans (Core.sameStreams_setX _ (o.dest.getD 0) o.value)).trans ⟨rfl, rfl⟩

/-- What a restart makes of one core: its results are written and a trace record made (R330, R350). -/
def State.restartCore (pn : Nat) (s : State) (n : Nat) : State :=
  (s.modCore n Core.writeResults).trace pn (2 * n) 3 0 (BitVec.ofNat 64 (s.core n).ts)

theorem State.restartCore_groups (pn : Nat) (s : State) (n : Nat) : (State.restartCore pn s n).groups = s.groups :=
  congrArg Prod.fst ((State.trace_haltView ..).trans (State.modCore_haltView s n Core.writeResults))

theorem State.restartCore_sameStreams (pn : Nat) (s : State) (n m : Nat) : (s.core m).SameStreams ((State.restartCore pn s n).core m) := by
  have hcore : (State.restartCore pn s n).core m = (s.modCore n Core.writeResults).core m := State.core_of_cores (State.trace_cores ..) m
  rw [hcore]
  exact State.modCore_core_keeps (P := (s.core m).SameStreams) (fun c hc => hc.trans c.sameStreams_writeResults) n m (.refl _)

/-- With nothing inserted on any core of the group, a restart sets it running (R329). -/
theorem State.restart_of_nothing_inserted {s : State} {g : Grp} (h : ∀ n ∈ g.cores, (s.core n).inserted = []) :
    s.restart g = g.cores.foldl (State.restartCore g.part) (s.setGrp { g with status := .running }) := by
  have hnone : (g.cores.any fun n => !(s.core n).inserted.isEmpty) = false :=
    List.any_eq_false.mpr fun n hn => by simp [h n hn]
  unfold State.restart
  rw [if_neg (by rw [hnone]; exact Bool.false_ne_true)]
  rfl

/-- MERIDIAN_PULSE of a resuming group with nothing left to insert and no core at its end sets it running (R329). -/
theorem exec_meridianPulse_restarts {s : State} {g : Grp} (hg : s.grp? g.num = some g) (hstat : g.status = .resuming)
    (hins : ∀ n ∈ g.cores, (s.core n).inserted = []) (hlive : ∀ n ∈ g.cores, (s.core n).x.k.exited = false ∨ (s.core n).a.k.exited = false) :
    ∃ t, exec (.meridianPulse g.num) s = .next t ∧ t.grp? g.num = some { g with status := .running } := by
  refine ⟨s.restart g, ?_, ?_⟩
  · have hfinish : (s.restart g).finishCores g.cores = s.restart g := by
      refine foldl_eq_self fun n hn => State.finishCore_notExited ?_
      have hsame : (s.core n).SameStreams ((s.restart g).core n) := by
        rw [State.restart_of_nothing_inserted hins]
        exact List.foldlRecOn (motive := fun t : State => (s.core n).SameStreams (t.core n)) _ _ (.refl _) fun t ht k _ => ht.trans (State.restartCore_sameStreams g.part t k n)
      rw [hsame.x, hsame.k]
      rcases hlive n hn with h | h <;> simp [h]
    show execMeridianPulse g.num s = _
    simp only [execMeridianPulse, hg, hstat, beq_self_eq_true, if_true, hfinish]
  · have hgroups := State.foldl_keeps (·.groups) (State.restartCore_groups g.part) g.cores (s.setGrp { g with status := .running })
    rw [State.restart_of_nothing_inserted hins, State.grp?_of_groups hgroups]
    exact State.grp?_setGrp_self (g := { g with status := .running }) hg

/-- Settles O58. -/
theorem handlerEntryAndReturn : Obligations.HandlerEntryAndReturn := by
  unfold Obligations.HandlerEntryAndReturn
  refine ⟨fun s g e hnodup hg => ⟨State.grp?_deliverHandlers hg e, fun n hn hcause => ?entry, fun n hn hcause => State.core_deliverHandlers_groupStop hnodup hn hcause e⟩,
    fun c a rs hsaved => ?reissue, fun s g hg hstat hins hlive => exec_meridianPulse_restarts hg hstat hins hlive⟩
  case entry =>
    obtain ⟨hx31, hx1⟩ := (s.core n).enterHandler_registers n e
    rw [State.core_deliverHandlers_caused hnodup hn hcause]
    exact ⟨rfl, rfl, hx31, hx1, rfl, rfl, rfl, rfl, rfl, rfl⟩
  case reissue =>
    simp only [Core.reissue, hsaved, Option.getD_some, and_self]

end Sys2Proof.Machine

/-! SUPPORT. What trace records leave of the state. -/

namespace Sys2Proof.Machine

/-- The state but for what a trace record writes: the partitions, and what a write of the device's own to HBM touches (R352). -/
def State.untraced (s : State) : State := { s with parts := [], hbm := [], bad := [], delayed := [] }

@[simp] theorem State.trace_untraced (s : State) (pn src kind a : Nat) (b : Word) : (s.trace pn src kind a b).untraced = s.untraced := by
  unfold State.trace State.storeHbm
  dsimp only
  (repeat' split) <;> rfl

theorem State.power_of_untraced {s t : State} (h : t.untraced = s.untraced) : t.power = s.power := (congrArg State.power h :)
theorem State.cores_of_untraced {s t : State} (h : t.untraced = s.untraced) : t.cores = s.cores := (congrArg State.cores h :)
theorem State.clusters_of_untraced {s t : State} (h : t.untraced = s.untraced) : t.clusters = s.clusters := (congrArg State.clusters h :)
theorem State.fixId_of_untraced {s t : State} (h : t.untraced = s.untraced) : t.fixId = s.fixId := (congrArg State.fixId h :)
theorem State.fixes_of_untraced {s t : State} (h : t.untraced = s.untraced) : t.fixes = s.fixes := (congrArg State.fixes h :)

@[simp] theorem State.traceCores_untraced (s : State) (pn : Nat) (cores : List Nat) (kind a : Nat) (b : Word) :
    (s.traceCores pn cores kind a b).untraced = s.untraced :=
  State.foldl_keeps State.untraced (fun t c => by simp) cores s

@[simp] theorem State.traceAll_untraced (s : State) (kind a : Nat) (b : Word) : (s.traceAll kind a b).untraced = s.untraced :=
  State.foldl_keeps State.untraced (fun t p => by simp) (List.range 48) s

@[simp] theorem State.fixRecords_untraced (s : State) (scope : Option Nat) (id p : Nat) : (s.fixRecords scope id p).untraced = s.untraced :=
  (State.trace_untraced ..).trans (State.foldl_keeps State.untraced (fun t c => by simp) (s.part p).cores s)

end Sys2Proof.Machine

/-! PROOFS. Watched commands, peer reports, watchpoints and the fixes of the package (O49). -/

namespace Sys2Proof.Machine

/-! ### WATCH_COPY_FREEZE (R346, R358) -/

section Freeze
variable {n pn k : Nat} {s : State} {m : Cmd}

/-- With less than one 8-byte unit to go the engine moves nothing (R358). -/
theorem State.skid_short (h : k < 8) (q fuel : Nat) : s.skid n pn q fuel k = s := by
  cases fuel with
  | zero => rfl
  | succ fuel =>
    unfold State.skid
    split
    · exact if_pos (by simp [h])
    · rfl

/-- What the engine still moves once a unit of command m was watched: at most 512 bytes, if it is the first command and no LDQ2. DESIGN CHOICE, log entry 105. -/
def State.skidded (s : State) (n pn k : Nat) (m : Cmd) : State :=
  match m.instr with
  | .ldq2 .. => s
  | _ => if ((s.core n).cmds.head?.map (·.iseq)) == some m.iseq then s.skid n pn m.iseq 65 (min k 512 / 8 * 8) else s

theorem State.skidded_nothing (h : k < 8 ∨ (s.core n).cmds.head?.map (·.iseq) ≠ some m.iseq ∨ ∃ g q a l x, m.instr = .ldq2 g q a l x) :
    s.skidded n pn k m = s := by
  unfold State.skidded
  split
  · rfl
  · next hldq2 =>
    split
    · next hfirst =>
      rcases h with hk | hne | ⟨g, q, a, l, x, hi⟩
      · exact State.skid_short (by omega) ..
      · exact absurd (eq_of_beq hfirst) hne
      · exact absurd hi (hldq2 g q a l x)
    · rfl

theorem exec_watchCopyFreeze {w : Nat × Word} {u : State} (hfind : (s.core n).cmds.find? (fun m => m.watched.isSome) = some m) (hw : m.watched = some w)
    (hpart : (s.core n).part = some pn) (hruns : s.accessRuns n = true) (hfrozen : (s.core n).frozen = false)
    (hu : u = (s.skidded n pn k m).modCore n fun c => { c with frozen := true }) :
    exec (.watchCopyFreeze n k) s =
      .next (if u.accessRuns n then u.stop n { cause := 0x42, code := lowest w.1, engine := 5, iseq := m.iseq, addr := w.2 } else u) := by
  subst hu
  show execWatchCopyFreeze n k s = _
  simp only [execWatchCopyFreeze, hfind, hw, hpart, hruns, hfrozen, Option.getD_some, Bool.not_true, Bool.or_self, Bool.false_eq_true, if_false]
  rfl

theorem exec_watchCopyFreeze_stops {w : Nat × Word} (hfind : (s.core n).cmds.find? (fun m => m.watched.isSome) = some m) (hw : m.watched = some w)
    (hpart : (s.core n).part = some pn) (hruns : s.accessRuns n = true) (hfrozen : (s.core n).frozen = false) :
    ∃ u : State, (u.core n).frozen = true ∧
      exec (.watchCopyFreeze n k) s =
        .next (if u.accessRuns n then u.stop n { cause := 0x42, code := lowest w.1, engine := 5, iseq := m.iseq, addr := w.2 } else u) ∧
      ((k < 8 ∨ (s.core n).cmds.head?.map (·.iseq) ≠ some m.iseq ∨ ∃ g q a l x, m.instr = .ldq2 g q a l x) →
        u = s.modCore n fun c => { c with frozen := true }) :=
  ⟨_, by rw [State.core_modCore_self], exec_watchCopyFreeze hfind hw hpart hruns hfrozen rfl, fun h => by rw [State.skidded_nothing h]⟩

end Freeze

/-! ### PEER_WATCH_REPORT (R341, R346) -/

/-- A report goes to the head of a ring with room (R341). -/
theorem State.report_room {s : State} {p : Nat} (hbase : ((s.part p).reg 0x600).toNat % 2 ^ 39 ≠ 0)
    (hroom : ((s.part p).idx 0x608 + 2 ^ 32 - (s.part p).idx 0x610) % 2 ^ 32 < 128) (r : Bytes) :
    s.report p r = (s.setPart p ((s.part p).setReg 0x608 (BitVec.ofNat 64 (((s.part p).idx 0x608 + 1) % 2 ^ 32)))).storeHbm
      (((s.part p).reg 0x600).toNat % 2 ^ 39 + 32 * ((s.part p).idx 0x608 % 128)) r :=
  if_neg (by omega)

theorem exec_peerWatchReport {s : State} {p : Nat} {r : Bytes} {rest : List Bytes} (hr : (s.part p).peerReports = r :: rest)
    (hbase : ((s.part p).reg 0x600).toNat % 2 ^ 39 ≠ 0) (hcopying : s.copying = [])
    (hroom : ((s.part p).idx 0x608 + 2 ^ 32 - (s.part p).idx 0x610) % 2 ^ 32 < 128) :
    ∃ t, exec (.peerWatchReport p) s = .next t ∧ (t.part p).peerReports = rest ∧ (t.part p).idx 0x608 = ((s.part p).idx 0x608 + 1) % 2 ^ 32 ∧
      t.hbm = Memory.store s.hbm (((s.part p).reg 0x600).toNat % 2 ^ 39 + 32 * ((s.part p).idx 0x608 % 128)) r ∧ t.cores = s.cores := by
  have hpart : (s.setPart p { s.part p with peerReports := rest }).part p = { s.part p with peerReports := rest } := State.part_setPart_self ..
  have hstore := State.report_room (s := s.setPart p { s.part p with peerReports := rest }) (p := p) (by rw [hpart]; exact hbase) (by rw [hpart]; exact hroom) r
  rw [hpart, State.storeHbm_free _ _ _ (State.copied_of_nothing_copied (by exact hcopying) _ _)] at hstore
  refine ⟨(s.setPart p { s.part p with peerReports := rest }).report p r, ?_, ?_⟩
  · show execPeerWatchReport p s = _
    simp only [execPeerWatchReport, hr]
  · rw [hstore]
    refine ⟨congrArg Part.peerReports (State.part_setPart_self ..), ?_, rfl, rfl⟩
    exact (congrArg (Part.idx · 0x608) (State.part_setPart_self ..)).trans (Part.idx_setReg_mod ..)

/-! ### WATCHPOINT_ARM (R344) -/

section Arm
variable {s : State} {p n : Nat} {v : Word}

/-- The bits of WPCTL that a write may set: EN, READ, WRITE, ATOMIC, BYTES and LEN (R344). -/
theorem wpctl_len (v : Word) : (v &&& 0xF000FFFF000001FE#64).toNat / 2 % 256 = v.toNat / 2 % 256 := by
  have hmask : ∀ i < 8, Nat.testBit 0xF000FFFF000001FE (i + 1) = true := by decide
  refine Nat.eq_of_testBit_eq fun i => ?_
  rw [BitVec.toNat_and, show (256 : Nat) = 2 ^ 8 from rfl, Nat.testBit_mod_two_pow, Nat.testBit_mod_two_pow, Nat.testBit_div_two, Nat.testBit_div_two, Nat.testBit_and]
  by_cases hi : i < 8
  · have hbit : (0xF000FFFF000001FE#64).toNat.testBit (i + 1) = true := hmask i hi
    rw [hbit, Bool.and_true]
  · simp [hi]

theorem wpctl_enable (v : Word) : (v &&& 0xF000FFFF000001FE#64).getLsbD 63 = v.getLsbD 63 := by
  rw [BitVec.getLsbD_and, show (0xF000FFFF000001FE#64).getLsbD 63 = true from by decide, Bool.and_true]

/-- ERR of WPCTL after a write: kept, or cleared by a 1 (R344). -/
def wpctlErr (old v : Word) : Word := if v.getLsbD 0 then 0#64 else old &&& 1#64

/-- EN going to 1 fixes a range that stands in physical terms. -/
theorem State.writeWpctl_arms (hon : v.getLsbD 63 = true) (hoff : ((s.part p).reg (0x588 + 16 * n)).getLsbD 63 = false) {pl : Place}
    (hplace : s.armPlace p ((s.part p).reg (0x580 + 16 * n)) (16 * (v.toNat / 2 % 256 + 1)) = some pl) :
    s.writeWpctl p n v = s.setPart p
      { (s.part p).setReg (0x588 + 16 * n) ((v &&& 0xF000FFFF000001FE#64) ||| wpctlErr ((s.part p).reg (0x588 + 16 * n)) v) with
        armed := (n, pl, 16 * (v.toNat / 2 % 256 + 1)) :: (s.part p).armed.filter fun w => w.1 != n } := by
  unfold State.writeWpctl
  simp only [wpctl_len, wpctl_enable, hon, hoff, hplace, Bool.not_false, Bool.and_self, if_true]
  rfl

/-- A range that cannot be fixed leaves EN 0 and sets ERR. -/
theorem State.writeWpctl_refused (hon : v.getLsbD 63 = true) (hoff : ((s.part p).reg (0x588 + 16 * n)).getLsbD 63 = false)
    (hplace : s.armPlace p ((s.part p).reg (0x580 + 16 * n)) (16 * (v.toNat / 2 % 256 + 1)) = none) :
    s.writeWpctl p n v = s.setPart p
      ((s.part p).setReg (0x588 + 16 * n) (((v &&& 0xF000FFFF000001FE#64) &&& 0x7FFFFFFFFFFFFFFF#64) ||| 1#64)) := by
  unfold State.writeWpctl
  simp only [wpctl_len, wpctl_enable, hon, hoff, hplace, Bool.not_false, Bool.and_self, if_true]

theorem exec_watchpointArm (hn : n < 8) : exec (.watchpointArm p n v) s = .next (s.writeWpctl p n v) := by
  show execWatchpointArm p n v s = _
  rw [execWatchpointArm, if_pos hn]

theorem exec_watchpointArm_arms (hn : n < 8) (hon : v.getLsbD 63 = true) (hoff : ((s.part p).reg (0x588 + 16 * n)).getLsbD 63 = false) {pl : Place}
    (hplace : s.armPlace p ((s.part p).reg (0x580 + 16 * n)) (16 * (v.toNat / 2 % 256 + 1)) = some pl) :
    ∃ t, exec (.watchpointArm p n v) s = .next t ∧ (n, pl, 16 * (v.toNat / 2 % 256 + 1)) ∈ (t.part p).armed ∧
      ((t.part p).reg (0x588 + 16 * n)).getLsbD 63 = true := by
  refine ⟨_, exec_watchpointArm hn, ?_⟩
  rw [State.writeWpctl_arms hon hoff hplace, State.part_setPart_self]
  refine ⟨List.mem_cons_self, ?_⟩
  refine (congrArg (BitVec.getLsbD · 63) (Part.reg_setReg_self ..)).trans ?_
  rw [BitVec.getLsbD_or, wpctl_enable, hon, Bool.true_or]

theorem exec_watchpointArm_refused (hn : n < 8) (hon : v.getLsbD 63 = true) (hoff : ((s.part p).reg (0x588 + 16 * n)).getLsbD 63 = false)
    (hplace : s.armPlace p ((s.part p).reg (0x580 + 16 * n)) (16 * (v.toNat / 2 % 256 + 1)) = none) :
    ∃ t, exec (.watchpointArm p n v) s = .next t ∧ (t.part p).armed = (s.part p).armed ∧ ((t.part p).reg (0x588 + 16 * n)).getLsbD 63 = false ∧
      ((t.part p).reg (0x588 + 16 * n)).getLsbD 0 = true := by
  refine ⟨_, exec_watchpointArm hn, ?_⟩
  rw [State.writeWpctl_refused hon hoff hplace, State.part_setPart_self, Part.reg_setReg_self]
  exact ⟨rfl, by simp, by simp⟩

end Arm

/-! ### FIX_COMMAND and FIXIN_EDGE (R353, R354) -/

theorem exec_packageFix {i : Instr} (hi : i = .fixCommand ∨ i = .fixinEdge) (s : State) : exec i s = .next (s.raiseFix none) := by
  rcases hi with rfl | rfl <;> rfl

/-- A fix of the package within 100 ns of another merges into it (R353). -/
theorem State.raiseFix_merges {s : State} (h : ∃ f ∈ s.fixes, s.wall ≤ f.1 + 100) : s.raiseFix none = s := by
  obtain ⟨f, hf, hrecent⟩ := h
  exact if_pos (List.any_eq_true.mpr ⟨f, List.mem_filter.mpr ⟨hf, by simpa using hrecent⟩, by simp⟩)

/-- What latching reads of a core: itself, the contexts and the wall time (R354). -/
def State.latchView (s : State) (n : Nat) : Core × List Grp × Nat := (s.core n, s.groups, s.wall)

theorem State.core_of_latchView {s t : State} {n : Nat} (h : t.latchView n = s.latchView n) : t.core n = s.core n := congrArg Prod.fst h

theorem State.wall_of_latchView {s t : State} {n : Nat} (h : t.latchView n = s.latchView n) : t.wall = s.wall :=
  congrArg (fun v : Core × List Grp × Nat => v.2.2) h

theorem State.fixTick_of_latchView {s t : State} {n : Nat} (h : t.latchView n = s.latchView n) : t.fixTick none n = s.fixTick none n := by
  simp only [State.latchView, Prod.mk.injEq] at h
  obtain ⟨hcore, hgroups, -⟩ := h
  simp only [State.fixTick, State.grpAt, hcore, State.grp?_of_groups hgroups, Option.isSome_none, Bool.false_eq_true, false_and, if_false]

theorem State.latch_other (s : State) (scope : Option Nat) (id : Nat) {n m : Nat} (h : m ≠ n) : (s.latch scope id n).latchView m = s.latchView m := by
  have hcore : (s.latch scope id n).core m = s.core m := s.core_modCore_other _ h
  rw [State.latchView, hcore]
  rfl

theorem State.core_latch_self (s : State) (scope : Option Nat) (id n : Nat) : ((s.latch scope id n).core n).x = (s.core n).x ∧
    ((s.latch scope id n).core n).sys.fix.id = BitVec.ofNat 64 (2 ^ 63 + id) ∧ ((s.latch scope id n).core n).sys.fix.wall = BitVec.ofNat 64 s.wall ∧
    ((s.latch scope id n).core n).sys.fix.tick = BitVec.ofNat 64 (s.fixTick scope n) := by
  unfold State.latch
  rw [State.core_modCore_self]
  exact ⟨rfl, rfl, rfl, rfl⟩

/-- A fix of the package takes the next number, and its time is kept (R353, R354). -/
def State.fixCounted (s : State) : State :=
  { s with fixId := (s.fixId + 1) % 65536, fixes := (s.wall, none) :: s.fixes.filter fun f => decide (s.wall ≤ f.1 + 100) }

/-- A fix latched on every core (R354). -/
def State.latchedAll (s : State) (id : Nat) : State := (List.range 192).foldl (fun s c => s.latch none id c) s

/-- The package registers of a fix (R373). -/
def State.fixStamped (s : State) (id : Nat) : State :=
  { s with power := { s.power with regs := sset 0#64 0xD0 (BitVec.ofNat 64 id) (sset 0#64 0xC8 ((Config.power s.wall).setWidth 64)
    (sset 0#64 0xC0 (BitVec.ofNat 64 s.power.refcur) s.power.regs)) } }

theorem State.fixStamped_frame (s : State) (id : Nat) : ∃ pw, s.fixStamped id = { s with power := pw } := ⟨_, rfl⟩

/-- A fix recorded by the trace sources of every partition (R350). -/
def State.fixRecorded (s : State) (id : Nat) : State := (List.range 48).foldl (fun s p => s.fixRecords none id p) s

section NewFix
variable {s : State} (h : ∀ f ∈ s.fixes, f.1 + 100 < s.wall)
include h

theorem State.noRecentFix : (s.fixes.filter fun f => decide (s.wall ≤ f.1 + 100)) = [] :=
  List.filter_eq_nil_iff.mpr fun f hf => by simpa using h f hf

/-- A fix that merges into none is counted, latched, and recorded (R353, R354). -/
theorem State.raiseFix_new :
    s.raiseFix none = ((s.fixCounted.latchedAll ((s.fixId + 1) % 65536)).fixStamped ((s.fixId + 1) % 65536)).fixRecorded ((s.fixId + 1) % 65536) :=
  if_neg (by rw [State.noRecentFix h]; exact Bool.false_ne_true)

end NewFix

@[simp] theorem State.fixRecorded_untraced (s : State) (id : Nat) : (s.fixRecorded id).untraced = s.untraced :=
  State.foldl_keeps State.untraced (f := fun s p => s.fixRecords none id p) (fun t p => t.fixRecords_untraced none id p) (List.range 48) s

/-- How many fixes there have been, and when the last ones were. -/
def State.fixCount (s : State) : Nat × List (Nat × Option Nat) := (s.fixId, s.fixes)

theorem State.fixId_of_fixCount {s t : State} (h : t.fixCount = s.fixCount) : t.fixId = s.fixId := congrArg Prod.fst h

theorem State.fixes_of_fixCount {s t : State} (h : t.fixCount = s.fixCount) : t.fixes = s.fixes := congrArg Prod.snd h

theorem State.latchedAll_count (s : State) (id : Nat) : (s.latchedAll id).fixCount = s.fixCount :=
  State.foldl_keeps State.fixCount (f := fun s c => s.latch none id c) (fun _ _ => rfl) (List.range 192) s

/-- Each core latches the fix at its own tick as it stood before (R354). -/
theorem State.core_latchedAll (s : State) (id : Nat) {c : Nat} (hc : c < 192) : ((s.latchedAll id).core c).x = (s.core c).x ∧
    ((s.latchedAll id).core c).sys.fix.id = BitVec.ofNat 64 (2 ^ 63 + id) ∧ ((s.latchedAll id).core c).sys.fix.wall = BitVec.ofNat 64 s.wall ∧
    ((s.latchedAll id).core c).sys.fix.tick = BitVec.ofNat 64 (s.fixTick none c) := by
  obtain ⟨t, hview, hlatched⟩ := State.foldl_at_mem (v := State.latchView) (f := fun s c => s.latch none id c) (fun t _ _ h => t.latch_other none id h) List.nodup_range (List.mem_range.mpr hc) s
  have hcore : (s.latchedAll id).core c = (t.latch none id c).core c := State.core_of_latchView hlatched
  have hself := t.core_latch_self none id c
  rwa [← hcore, State.fixTick_of_latchView hview, State.core_of_latchView hview, State.wall_of_latchView hview] at hself

/-- What a fix of the package leaves: its number and time, and the snapshot of every core (R354). -/
def State.PackageFix (s t : State) : Prop :=
  t.fixId = (s.fixId + 1) % 65536 ∧ t.fixes = [(s.wall, none)] ∧
    (∀ c, c < 192 → (t.core c).sys.fix.id = BitVec.ofNat 64 (2 ^ 63 + (s.fixId + 1) % 65536) ∧ (t.core c).sys.fix.wall = BitVec.ofNat 64 s.wall ∧
      (t.core c).sys.fix.tick = BitVec.ofNat 64 (s.fixTick none c) ∧ (t.core c).x = (s.core c).x)

theorem State.PackageFix.of_untraced {s t u : State} (h : s.PackageFix u) (ht : t.untraced = u.untraced) : s.PackageFix t := by
  obtain ⟨hid, hfixes, hcores⟩ := h
  refine ⟨(State.fixId_of_untraced ht).trans hid, (State.fixes_of_untraced ht).trans hfixes, fun c hc => ?_⟩
  rw [State.core_of_cores (State.cores_of_untraced ht)]
  exact hcores c hc

theorem State.PackageFix.with_power {s u : State} (h : s.PackageFix u) (pw : Power) : s.PackageFix { u with power := pw } := h

theorem State.packageFix_latchedAll {s : State} (h : ∀ f ∈ s.fixes, f.1 + 100 < s.wall) : s.PackageFix (s.fixCounted.latchedAll ((s.fixId + 1) % 65536)) := by
  have hcount := s.fixCounted.latchedAll_count ((s.fixId + 1) % 65536)
  have hfixes : s.fixCounted.fixes = [(s.wall, none)] := congrArg _ (State.noRecentFix h)
  refine ⟨State.fixId_of_fixCount hcount, (State.fixes_of_fixCount hcount).trans hfixes, fun c hc => ?_⟩
  obtain ⟨hx, hid, hwall, htick⟩ := s.fixCounted.core_latchedAll ((s.fixId + 1) % 65536) hc
  exact ⟨hid, hwall, htick, hx⟩

theorem exec_packageFix_new {i : Instr} (hi : i = .fixCommand ∨ i = .fixinEdge) {s : State} (h : ∀ f ∈ s.fixes, f.1 + 100 < s.wall) :
    ∃ t, exec i s = .next t ∧ s.PackageFix t := by
  obtain ⟨pw, hstamped⟩ := (s.fixCounted.latchedAll ((s.fixId + 1) % 65536)).fixStamped_frame ((s.fixId + 1) % 65536)
  refine ⟨_, by rw [exec_packageFix hi, State.raiseFix_new h, hstamped], ?_⟩
  exact ((State.packageFix_latchedAll h).with_power pw).of_untraced (State.fixRecorded_untraced ..)

/-- Settles O49. -/
theorem watchAndFix : Obligations.WatchAndFix := by
  unfold Obligations.WatchAndFix
  exact ⟨fun n k pn s m w hfind hw hpart hruns hfrozen => exec_watchCopyFreeze_stops hfind hw hpart hruns hfrozen,
    fun p r rest s hr hbase hcopying hroom => exec_peerWatchReport hr hbase hcopying hroom,
    fun p n v s hn hon hoff => ⟨fun pl hplace => exec_watchpointArm_arms hn hon hoff hplace, fun hplace => exec_watchpointArm_refused hn hon hoff hplace⟩,
    fun i s hi h => exec_packageFix_new hi h,
    fun i s hi h => by rw [exec_packageFix hi, State.raiseFix_merges h]⟩

end Sys2Proof.Machine

/-! SUPPORT. What requests, new targets and trace records leave of the power controller. -/

namespace Sys2Proof.Machine

/-! ### Rails under their targets (R376) -/

/-- The power controller but for what a new target of a rail changes (R376). -/
def Power.unrailed (p : Power) : Power := { p with rails := [], targets := [], moves := [], railRose := [], railPassed := [] }

@[simp] theorem State.retarget_unrailed (s : State) (r : Nat) : (s.retarget r).power.unrailed = s.power.unrailed := by
  unfold State.retarget
  dsimp only
  split <;> rfl

@[simp] theorem State.retargets_unrailed (s : State) : s.retargets.power.unrailed = s.power.unrailed :=
  State.foldl_keeps (fun t : State => t.power.unrailed) State.retarget_unrailed (List.range 8) s

@[simp] theorem State.retargets_cores (s : State) : s.retargets.cores = s.cores := by
  obtain ⟨pw, h⟩ := s.retargets_frame
  rw [h]

section Unrailed
variable {p q : Power} (h : p.unrailed = q.unrailed)
include h

theorem Power.auto_of_unrailed : p.auto = q.auto := (congrArg Power.auto h :)
theorem Power.update_of_unrailed : p.update = q.update := (congrArg Power.update h :)
theorem Power.beat_of_unrailed : p.beat = q.beat := (congrArg Power.beat h :)
theorem Power.refcur_of_unrailed : p.refcur = q.refcur := (congrArg Power.refcur h :)
theorem Power.pend_of_unrailed : p.pend = q.pend := (congrArg Power.pend h :)

end Unrailed

/-! ### Requests (R374) -/

/-- A request that is posted waits, and begins the count of contours. -/
theorem State.postRequest_frame (s : State) (f : Nat) : ∃ gs, s.postRequest f = { s with groups := gs, power := { s.power with pend := some f } } := by
  unfold State.postRequest
  dsimp only
  split <;> exact ⟨_, rfl⟩

/-! ### The voltage of a moving rail (R376) -/

/-- A rail takes at most one step of 1 mV in each step of its highest rate. -/
theorem railSteps_le (r start n : Nat) : railSteps r start n ≤ n := by
  simpa [railSteps] using List.length_filter_le (Config.railMoves r start) (List.range n)

section Moving
variable {s : State} {r t0 : Nat}

theorem State.railMv_rising (h : sget none r s.power.moves = some (t0, true)) :
    s.railMv r = s.power.mv r + min (s.power.target r - s.power.mv r) (railSteps r t0 ((s.wall - t0) / 100)) := by
  simp only [State.railMv, h]

theorem State.railMv_falling (h : sget none r s.power.moves = some (t0, false)) :
    s.railMv r = s.power.mv r - min (s.power.mv r - s.power.target r) (railSteps r t0 ((s.wall - t0) / 250)) := by
  simp only [State.railMv, h]

/-- A rise is no faster than 10 mV/µs. -/
theorem State.railMv_rising_bounds (h : sget none r s.power.moves = some (t0, true)) :
    s.power.mv r ≤ s.railMv r ∧ s.railMv r ≤ s.power.mv r + (s.wall - t0) / 100 := by
  have hsteps := railSteps_le r t0 ((s.wall - t0) / 100)
  rw [State.railMv_rising h]
  omega

/-- A fall is no faster than 4 mV/µs. -/
theorem State.railMv_falling_bounds (h : sget none r s.power.moves = some (t0, false)) :
    s.railMv r ≤ s.power.mv r ∧ s.power.mv r ≤ s.railMv r + (s.wall - t0) / 250 := by
  have hsteps := railSteps_le r t0 ((s.wall - t0) / 250)
  rw [State.railMv_falling h]
  omega

end Moving

end Sys2Proof.Machine

/-! PROOFS. The power controller: requests, limits, autopilot, votes and rails (O53). -/

namespace Sys2Proof.Machine

/-! ### REFSET_WRITE and REFERENCE_FREQUENCY_CHANGE (R373, R374) -/

theorem exec_refsetWrite_ignored {v : Word} {s : State} (h : s.power.auto = true ∨ v.toNat % 4096 < 800 ∨ 2700 < v.toNat % 4096) :
    exec (.refsetWrite v) s = .next s := by
  show execRefsetWrite v s = _
  exact congrArg _ (if_pos h)

theorem exec_refsetWrite_posts {v : Word} {s : State} (hauto : s.power.auto = false) (hlo : 800 ≤ v.toNat % 4096) (hhi : v.toNat % 4096 ≤ 2700) :
    ∃ t, exec (.refsetWrite v) s = .next t ∧ t.power.refset = v.toNat % 4096 ∧ t.power.pend = some (v.toNat % 4096) ∧
      t.power.refcur = s.power.refcur ∧ t.cores = s.cores := by
  have hlegal : ¬ (s.power.auto = true ∨ v.toNat % 4096 < 800 ∨ 2700 < v.toNat % 4096) := by
    rw [hauto]
    simp
    omega
  have hexec : exec (.refsetWrite v) s = .next (({ s with power := { s.power with refset := v.toNat % 4096 } } : State).postRequest (v.toNat % 4096)) := by
    show execRefsetWrite v s = _
    exact congrArg _ (if_neg hlegal)
  generalize v.toNat % 4096 = f at hexec
  obtain ⟨gs, hposted⟩ := ({ s with power := { s.power with refset := f } } : State).postRequest_frame f
  rw [hposted] at hexec
  exact ⟨_, hexec, rfl, rfl, rfl, rfl⟩

/-- Whether the change to a requested frequency may come: no trip holds the clock, every group has passed a contour, every rail allows it (R374, R380). -/
def State.mayChange (s : State) (f : Nat) : Prop :=
  s.power.therm = false ∧ (∀ g ∈ s.groups, s.groupPassed g = true) ∧ ∀ r, r < 8 → vmin f ≤ s.railMv r

theorem State.mayChange_iff (s : State) (f : Nat) : s.mayChange f ↔
    (s.power.therm || !s.groups.all (s.groupPassed ·) || !((List.range 8).all fun r => decide (vmin f ≤ s.railMv r))) = false := by
  simp [State.mayChange, and_assoc]

theorem exec_referenceFrequencyChange_changes {f : Nat} {s : State} (hpend : s.power.pend = some f) (h : s.mayChange f) :
    ∃ t, exec .referenceFrequencyChange s = .next t ∧ t.power.refcur = f ∧ t.power.pend = none ∧ t.cores = s.cores := by
  have hexec : exec .referenceFrequencyChange s =
      .next ({ s.traceAll 6 f 0#64 with power := { (s.traceAll 6 f 0#64).power with refcur := f, pend := none } } : State).retargets := by
    show execReferenceFrequencyChange s = _
    simp only [execReferenceFrequencyChange, hpend, (s.mayChange_iff f).mp h, Bool.false_eq_true, if_false]
  have hrest := State.retargets_unrailed { s.traceAll 6 f 0#64 with power := { (s.traceAll 6 f 0#64).power with refcur := f, pend := none } }
  refine ⟨_, hexec, Power.refcur_of_unrailed hrest, Power.pend_of_unrailed hrest, ?_⟩
  exact (State.retargets_cores _).trans (State.cores_of_untraced (s.traceAll_untraced 6 f 0#64) :)

theorem exec_referenceFrequencyChange_waits {f : Nat} {s : State} (hpend : s.power.pend = some f)
    (h : s.power.therm = true ∨ (∃ g ∈ s.groups, s.groupPassed g = false) ∨ ∃ r, r < 8 ∧ s.railMv r < vmin f) :
    exec .referenceFrequencyChange s = .next s := by
  have hnot : ¬ s.mayChange f := by
    rintro ⟨htherm, hpassed, hrails⟩
    rcases h with h | ⟨g, hg, h⟩ | ⟨r, hr, h⟩
    · exact Bool.false_ne_true (htherm.symm.trans h)
    · exact Bool.false_ne_true (h.symm.trans (hpassed g hg))
    · exact absurd (hrails r hr) (by omega)
  show execReferenceFrequencyChange s = _
  simp only [execReferenceFrequencyChange, hpend]
  exact congrArg _ (if_pos (Bool.of_not_eq_false fun hf => hnot ((s.mayChange_iff f).mpr hf)))

/-! ### Limits (R378 to R380) -/

theorem exec_currentExcess {s : State} (h : s.power.stretch = false) :
    exec .currentExcess s = .next { s with power := { s.power with stretch := true, stretchSince := s.wall } } := by
  show execCurrentExcess s = _
  exact congrArg _ (if_neg (by rw [h]; exact Bool.false_ne_true))

theorem exec_stretchTimeout_early {s : State} (h : s.power.stretch = false ∨ s.wall < s.power.stretchSince + 100000) : exec .stretchTimeout s = .next s := by
  show execStretchTimeout s = _
  refine congrArg _ (if_neg ?_)
  rintro ⟨hstretch, hdue⟩
  rcases h with h | h
  · exact Bool.false_ne_true (h.symm.trans hstretch)
  · omega

/-- The highest fuse point below REFCUR whose power fits PLIMIT (R379). -/
def Power.fitting (p : Power) : Option Nat := ((List.range 8).map fun i => fuseMhz (7 - i)).find? fun f => decide (f < p.refcur) && Config.fits f p.plimit

theorem exec_stretchTimeout_due {s : State} (hstretch : s.power.stretch = true) (hdue : s.power.stretchSince + 100000 ≤ s.wall) :
    ∃ t, exec .stretchTimeout s = .next t ∧ t.power.refset = s.power.refset ∧ t.cores = s.cores ∧
      t.power.pend = (match s.power.fitting with | some f => some f | none => s.power.pend) := by
  have hexec : exec .stretchTimeout s = .next (match s.power.fitting with | some f => s.postRequest f | none => s) := by
    show execStretchTimeout s = _
    exact congrArg _ (if_pos ⟨hstretch, hdue⟩)
  refine ⟨_, hexec, ?_⟩
  cases s.power.fitting with
  | none => exact ⟨rfl, rfl, rfl⟩
  | some f =>
    obtain ⟨gs, hposted⟩ := s.postRequest_frame f
    dsimp only
    rw [hposted]
    exact ⟨rfl, rfl, rfl⟩

theorem exec_thermalTrip (d : Nat) (s : State) :
    ∃ t, exec (.thermalTrip d) s = .next t ∧ t.power.therm = true ∧ d ∈ t.power.hot ∧ t.cores = s.cores ∧ t.groups = s.groups :=
  ⟨_, rfl, rfl, mem_lostNodes_insert s.power.hot d, rfl, rfl⟩

theorem exec_thermalRecovery {s : State} (h : s.power.therm = true) :
    ∃ t, exec .thermalRecovery s = .next t ∧ t.power.therm = false ∧ t.power.hot = [] ∧ t.cores = s.cores := by
  have hexec : exec .thermalRecovery s = .next (({ s with power := { s.power with therm := false, hot := [] } } : State).traceAll 7 0
      (BitVec.ofNat 64 (s.wall - s.power.thermSince))) := by
    show execThermalRecovery s = _
    exact congrArg _ (if_pos h)
  generalize BitVec.ofNat 64 (s.wall - s.power.thermSince) = gap at hexec
  have htraced := ({ s with power := { s.power with therm := false, hot := [] } } : State).traceAll_untraced 7 0 gap
  refine ⟨_, hexec, ?_⟩
  rw [State.power_of_untraced htraced, State.cores_of_untraced htraced]
  exact ⟨rfl, rfl, rfl⟩

theorem exec_thermalRecovery_none {s : State} (h : s.power.therm = false) : exec .thermalRecovery s = .next s := by
  show execThermalRecovery s = _
  exact congrArg _ (if_neg (by rw [h]; exact Bool.false_ne_true))

/-! ### Autopilot (R381) -/

theorem State.enterAuto_auto (s : State) : s.enterAuto.power.auto = true := by
  unfold State.enterAuto
  split
  · next h => exact h
  · dsimp only
    rw [Power.auto_of_unrailed (State.retargets_unrailed _)]
    obtain ⟨gs, hposted⟩ := State.postRequest_frame _ _
    rw [hposted]

theorem State.enterAuto_update (s : State) : s.enterAuto.power.update = s.power.update := by
  unfold State.enterAuto
  split
  · rfl
  · dsimp only
    rw [Power.update_of_unrailed (State.retargets_unrailed _)]
    obtain ⟨gs, hposted⟩ := State.postRequest_frame _ _
    rw [hposted]
    refine List.foldlRecOn (motive := fun p : Power => p.update = s.power.update) _ _ rfl fun p hp r _ => ?_
    split
    · exact hp
    · exact hp

theorem exec_pwstatUpdateWrite_set {v : Word} (h : v.getLsbD 3 = true) (s : State) :
    ∃ t, exec (.pwstatUpdateWrite v) s = .next t ∧ t.power.auto = true ∧ t.power.update = true := by
  have hexec : exec (.pwstatUpdateWrite v) s = .next ({ s with power := { s.power with update := true } } : State).enterAuto := by
    show execPwstatUpdateWrite v s = _
    simp only [execPwstatUpdateWrite, h, if_true]
  exact ⟨_, hexec, State.enterAuto_auto _, State.enterAuto_update _⟩

theorem exec_pwstatUpdateWrite_clear {v : Word} (h : v.getLsbD 3 = false) (s : State) :
    exec (.pwstatUpdateWrite v) s = .next { s with power := { s.power with update := false } } := by
  show execPwstatUpdateWrite v s = _
  simp only [execPwstatUpdateWrite, h, Bool.false_eq_true, if_false]

theorem exec_heartbeatTimeout_due {s : State} (h : s.power.beat + 2000000 ≤ s.wall) : ∃ t, exec .heartbeatTimeout s = .next t ∧ t.power.auto = true := by
  refine ⟨s.enterAuto, ?_, s.enterAuto_auto⟩
  show execHeartbeatTimeout s = _
  exact congrArg _ (if_pos h)

theorem exec_heartbeatTimeout_early {s : State} (h : s.wall < s.power.beat + 2000000) : exec .heartbeatTimeout s = .next s := by
  show execHeartbeatTimeout s = _
  exact congrArg _ (if_neg (by omega))

theorem exec_pchbWrite_silent {s : State} (h : s.silent = true) (v : Word) : exec (.pchbWrite v) s = .next s := by
  show execPchbWrite v s = _
  exact congrArg _ (if_pos h)

theorem exec_pchbWrite_beats {s : State} (hsilent : s.silent = false) (h : s.power.auto = false ∨ s.power.update = true) (v : Word) :
    exec (.pchbWrite v) s = .next { s with power := { s.power with beat := s.wall } } := by
  have hstays : (s.power.auto && !s.power.update) = false := by
    rcases h with h | h <;> simp [h]
  show execPchbWrite v s = _
  simp only [execPchbWrite, hsilent, hstays, Bool.false_eq_true, if_false]

theorem exec_pchbWrite_ends {s : State} (hsilent : s.silent = false) (hauto : s.power.auto = true) (hupdate : s.power.update = false) (v : Word) :
    ∃ t, exec (.pchbWrite v) s = .next t ∧ t.power.auto = false ∧ t.power.beat = s.wall := by
  have hexec : exec (.pchbWrite v) s =
      .next ({ s with power := { s.power with beat := s.wall, auto := false, heldTarget := [], floors := [] } } : State).retargets := by
    show execPchbWrite v s = _
    simp only [execPchbWrite, hsilent, hauto, hupdate, Bool.not_false, Bool.and_self, Bool.false_eq_true, if_false, if_true]
  have hrest := State.retargets_unrailed { s with power := { s.power with beat := s.wall, auto := false, heldTarget := [], floors := [] } }
  exact ⟨_, hexec, Power.auto_of_unrailed hrest, Power.beat_of_unrailed hrest⟩

/-! ### VVOTE_WRITE (R377) -/

theorem exec_vvoteWrite_ignored {v : Word} {s : State} (h : s.power.auto = true ∨ (v.toNat % 1024 ≠ 0 ∧ (v.toNat % 1024 < 600 ∨ 950 < v.toNat % 1024)))
    (p : Nat) : exec (.vvoteWrite p v) s = .next s := by
  show execVvoteWrite p v s = _
  exact congrArg _ (if_pos (h.imp_right fun h => by omega))

theorem exec_vvoteWrite_votes {v : Word} {s : State} (hauto : s.power.auto = false) (h : v.toNat % 1024 = 0 ∨ (600 ≤ v.toNat % 1024 ∧ v.toNat % 1024 ≤ 950))
    (p : Nat) : ∃ t, exec (.vvoteWrite p v) s = .next t ∧ (t.part p).vote = v.toNat % 1024 := by
  have hlegal : ¬ (s.power.auto = true ∨ ¬ (v.toNat % 1024 = 0 ∨ (600 ≤ v.toNat % 1024 ∧ v.toNat % 1024 ≤ 950))) := by
    rintro (hon | hillegal)
    · exact Bool.false_ne_true (hauto.symm.trans hon)
    · exact hillegal h
  have hexec : exec (.vvoteWrite p v) s = .next (s.modPart p fun q => q.setReg 0x800 (BitVec.ofNat 64 (v.toNat % 1024))).retargets := by
    show execVvoteWrite p v s = _
    exact congrArg _ (if_neg hlegal)
  refine ⟨_, hexec, ?_⟩
  rw [State.part_retargets, State.part_modPart_self, Part.vote, Part.reg_setReg_self, BitVec.toNat_ofNat]
  omega

/-! ### RAIL_FALL_START and RAIL_AT_TARGET (R376) -/

theorem exec_railFallStart_starts {r : Nat} {s : State} (hr : r < 8) (hauto : s.power.auto = false) (hstill : sget none r s.power.moves = none)
    (hbelow : s.power.target r < s.power.mv r) (hmay : s.mayFall r = true) :
    ∃ t, exec (.railFallStart r) s = .next t ∧ sget none r t.power.moves = some (s.wall, false) ∧ t.power.mv r = s.power.mv r := by
  have hexec : exec (.railFallStart r) s = .next { s with power := { s.power with moves := sset none r (some (s.wall, false)) s.power.moves } } := by
    show execRailFallStart r s = _
    exact congrArg _ (if_pos (by simp [hr, hauto, hstill, hbelow, hmay]))
  exact ⟨_, hexec, sget_sset_self .., rfl⟩

theorem exec_railFallStart_refused {r : Nat} {s : State} (h : s.power.auto = true ∨ s.power.mv r ≤ s.power.target r ∨ s.mayFall r = false) :
    exec (.railFallStart r) s = .next s := by
  have hno : (!s.power.auto && decide (s.power.target r < s.power.mv r) && s.mayFall r) = false := by
    rcases h with h | h | h <;> simp [h]
  show execRailFallStart r s = _
  refine congrArg _ (if_neg fun hgo => ?_)
  simp only [Bool.and_eq_true] at hgo
  obtain ⟨⟨⟨⟨-, hauto⟩, -⟩, hbelow⟩, hmay⟩ := hgo
  rw [hauto, hbelow, hmay] at hno
  exact Bool.noConfusion hno

section AtTarget
variable {s : State} {r t0 : Nat} {up : Bool} (hmove : sget none r s.power.moves = some (t0, up))
include hmove

theorem exec_railAtTarget_ends (h : s.railMv r = s.power.target r) :
    ∃ t, exec (.railAtTarget r) s = .next t ∧ t.power.mv r = s.power.target r ∧ sget none r t.power.moves = none := by
  have hexec : exec (.railAtTarget r) s = .next { s with power := { s.power with
      rails := sset none r (some (s.power.target r)) s.power.rails
      moves := sset none r none s.power.moves
      railRose := if up then sset none r (some s.wall) s.power.railRose else s.power.railRose } } := by
    show execRailAtTarget r s = _
    simp only [execRailAtTarget, hmove, h, if_true]
  refine ⟨_, hexec, ?_, sget_sset_self ..⟩
  exact (congrArg (Option.getD · (railFused r)) (sget_sset_self none r (some (s.power.target r)) s.power.rails) :)

theorem exec_railAtTarget_goesOn (h : s.railMv r ≠ s.power.target r) : exec (.railAtTarget r) s = .next s := by
  show execRailAtTarget r s = _
  simp only [execRailAtTarget, hmove, h, if_false]

/-- A move takes at least what its highest rate allows. -/
theorem State.railMv_early (hstart : t0 ≤ s.wall)
    (hearly : s.wall < t0 + if up then 100 * (s.power.target r - s.power.mv r) else 250 * (s.power.mv r - s.power.target r)) :
    s.railMv r ≠ s.power.target r := by
  cases up with
  | true =>
    have hbounds := State.railMv_rising_bounds hmove
    simp only [if_true] at hearly
    omega
  | false =>
    have hbounds := State.railMv_falling_bounds hmove
    simp only [Bool.false_eq_true, if_false] at hearly
    omega

end AtTarget

/-- Settles O53. -/
theorem powerController : Obligations.PowerController := by
  unfold Obligations.PowerController
  refine ⟨fun v s => ⟨fun hauto hlo hhi => exec_refsetWrite_posts hauto hlo hhi, fun h => exec_refsetWrite_ignored h⟩,
    fun f s hpend => ⟨fun htherm hpassed hrails => exec_referenceFrequencyChange_changes hpend ⟨htherm, hpassed, hrails⟩,
      fun h => exec_referenceFrequencyChange_waits hpend h⟩,
    fun s => ⟨fun h => exec_currentExcess h, rfl, fun hstretch hdue => exec_stretchTimeout_due hstretch hdue, fun h => exec_stretchTimeout_early h⟩,
    fun d s => ⟨exec_thermalTrip d s, fun h => exec_thermalRecovery h, fun h => exec_thermalRecovery_none h⟩,
    fun v s => ⟨fun h => exec_pchbWrite_silent h v, fun hsilent h => exec_pchbWrite_beats hsilent h v,
      fun hsilent hauto hupdate => exec_pchbWrite_ends hsilent hauto hupdate v, fun h => exec_pwstatUpdateWrite_set h s,
      fun h => exec_pwstatUpdateWrite_clear h s, fun h => exec_heartbeatTimeout_due h, fun h => exec_heartbeatTimeout_early h⟩,
    fun p v s => ⟨fun hauto h => exec_vvoteWrite_votes hauto h p, fun h => exec_vvoteWrite_ignored h p⟩,
    fun r s => ⟨fun hr hauto hstill hbelow hmay => exec_railFallStart_starts hr hauto hstill hbelow hmay, fun h => exec_railFallStart_refused h⟩,
    fun r t0 up s hmove => ⟨fun h => exec_railAtTarget_ends hmove h, fun h => exec_railAtTarget_goesOn hmove h,
      fun hstart hearly => exec_railAtTarget_goesOn hmove (State.railMv_early hmove hstart hearly), ?rising, ?falling⟩⟩
  case rising =>
    rintro rfl
    exact State.railMv_rising_bounds hmove
  case falling =>
    rintro rfl
    exact State.railMv_falling_bounds hmove

end Sys2Proof.Machine

/-! SUPPORT. Clusters of a state, and a write of the device's own to HBM that waits for no copy. -/

namespace Sys2Proof.Machine

theorem State.cluster_of_clusters {s t : State} (h : t.clusters = s.clusters) (k : Nat) : t.cluster k = s.cluster k := by
  rw [State.cluster, h, State.cluster]

theorem State.storeHbm_hbm {s : State} {a : Nat} {d : Bytes} (h : s.copied (.hbm a) d.length = false) : (s.storeHbm a d).hbm = Memory.store s.hbm a d := by
  rw [State.storeHbm_free s a d h]
  rfl

end Sys2Proof.Machine

/-! PROOFS. The parking of a cluster: quiescing, retention, gating, and waking (O54). -/

namespace Sys2Proof.Machine

/-! ### QREQ (R384) -/

/-- A write that clears REQ while the clocks are stopped is ignored. -/
theorem exec_qreqReq_ignored {k : Nat} {v : Word} {s : State} (hstat : (s.cluster k).stat = true) (h : v.getLsbD 0 = false) : exec (.qreqReq k v) s = .next s := by
  show execQreqReq k v s = _
  have hcond : (decide (24 ≤ k) || ((s.cluster k).stat && !v.getLsbD 0)) = true := by rw [hstat, h, Bool.not_false, Bool.and_self, Bool.or_true]
  exact congrArg _ (if_pos hcond)

section Quiesce
variable {k : Nat} {v : Word} {s : State} (hk : k < 24)
include hk

theorem exec_qreqReq_taken (h : (s.cluster k).stat = false ∨ v.getLsbD 0 = true) :
    exec (.qreqReq k v) s = .next (if v.getLsbD 0 = true ∧ v.getLsbD 1 = true
      then (s.setCluster k { s.cluster k with req := v.getLsbD 0, evict := v.getLsbD 1 }).evict k
      else s.setCluster k { s.cluster k with req := v.getLsbD 0, evict := v.getLsbD 1 }) := by
  have htaken : (decide (24 ≤ k) || ((s.cluster k).stat && !v.getLsbD 0)) = false := by
    have hrange : decide (24 ≤ k) = false := decide_eq_false (by omega)
    rcases h with h | h <;> simp [hrange, h]
  show execQreqReq k v s = _
  simp only [execQreqReq, htaken, Bool.false_eq_true, if_false, Bool.and_eq_true]

theorem exec_qreqEvict_requested (h : (s.cluster k).req = true) :
    exec (.qreqEvict k) s = .next ((s.setCluster k { s.cluster k with evict := true }).evict k) := by
  show execQreqEvict k s = _
  simp only [execQreqEvict, if_neg (show ¬ 24 ≤ k by omega), h, if_true]

theorem exec_qreqEvict_unrequested (h : (s.cluster k).req = false) :
    exec (.qreqEvict k) s = .next (s.setCluster k { s.cluster k with evict := true }) := by
  show execQreqEvict k s = _
  simp only [execQreqEvict, if_neg (show ¬ 24 ≤ k by omega), h, Bool.false_eq_true, if_false]

end Quiesce

/-! ### RETSAVE (R386) -/

/-- Whether a save may be accepted: a quiet cluster, a multiple of 4,096, and nothing that runs. -/
def State.saveOk (s : State) (k : Nat) (v : Word) : Bool := s.qack k && v.toNat % 2 ^ 39 % 4096 == 0 && !(s.cluster k).busy

/-- Whether a restore may be: besides, the rail on and an image that a save of the cluster has written. -/
def State.restoreOk (s : State) (k : Nat) (v : Word) : Bool := (s.cluster k).rail == 0 && s.imageOk k (v.toNat % 2 ^ 39)

/-- An accepted save or restore. -/
def State.retsaveTaken (s : State) (k : Nat) (v : Word) (dir : Bool) : State :=
  s.setCluster k { s.cluster k with
    dir := dir, addr := v.toNat % 2 ^ 39, work := v.toNat % 2 ^ 39, done := false, err := false, busy := true, saving := !dir }

/-- A refused one. -/
def State.retsaveRefused (s : State) (k : Nat) : State := s.setCluster k { s.cluster k with err := true }

theorem State.saveOk_of {s : State} {k : Nat} {v : Word} (hquiet : s.qack k = true) (haligned : v.toNat % 2 ^ 39 % 4096 = 0) (hidle : (s.cluster k).busy = false) :
    s.saveOk k v = true := by
  rw [State.saveOk, hquiet, haligned, hidle]
  rfl

theorem State.saveOk_not {s : State} {k : Nat} {v : Word} (h : s.qack k = false ∨ v.toNat % 2 ^ 39 % 4096 ≠ 0 ∨ (s.cluster k).busy = true) : s.saveOk k v = false := by
  unfold State.saveOk
  rcases h with h | h | h
  · rw [h, Bool.false_and, Bool.false_and]
  · rw [beq_false_of_ne h, Bool.and_false, Bool.false_and]
  · rw [h, Bool.not_true, Bool.and_false]

theorem State.restoreOk_of {s : State} {k : Nat} {v : Word} (hrail : (s.cluster k).rail = 0) (himage : s.imageOk k (v.toNat % 2 ^ 39) = true) :
    s.restoreOk k v = true := by
  rw [State.restoreOk, hrail, himage]
  rfl

theorem State.restoreOk_not {s : State} {k : Nat} {v : Word} (h : (s.cluster k).rail ≠ 0 ∨ s.imageOk k (v.toNat % 2 ^ 39) = false) : s.restoreOk k v = false := by
  unfold State.restoreOk
  rcases h with h | h
  · rw [beq_false_of_ne h, Bool.false_and]
  · rw [h, Bool.and_false]

section Retention
variable {k : Nat} {v : Word} {s : State} (hk : k < 24)
include hk

/-- A write of RETSAVE is taken or refused. -/
theorem State.retsaveGo_eq (dir : Bool) :
    s.retsaveGo k v dir = if s.saveOk k v && (!dir || s.restoreOk k v) then s.retsaveTaken k v dir else s.retsaveRefused k := by
  have hflip : (!s.qack k || v.toNat % 2 ^ 39 % 4096 != 0 || (s.cluster k).busy || (dir && ((s.cluster k).rail != 0 || !s.imageOk k (v.toNat % 2 ^ 39)))) =
      !(s.saveOk k v && (!dir || s.restoreOk k v)) := by
    simp only [State.saveOk, State.restoreOk, Bool.not_and, Bool.not_or, Bool.not_not, bne]
  unfold State.retsaveGo
  dsimp only
  rw [if_neg (show ¬ 24 ≤ k by omega), hflip]
  cases s.saveOk k v && (!dir || s.restoreOk k v) <;> rfl

theorem exec_retsaveSave_taken (h : s.saveOk k v = true) : exec (.retsaveSave k v) s = .next (s.retsaveTaken k v false) := by
  show execRetsaveSave k v s = _
  rw [execRetsaveSave, State.retsaveGo_eq hk, h]
  rfl

theorem exec_retsaveRestore_taken (h : s.saveOk k v = true) (himage : s.restoreOk k v = true) :
    exec (.retsaveRestore k v) s = .next (s.retsaveTaken k v true) := by
  show execRetsaveRestore k v s = _
  rw [execRetsaveRestore, State.retsaveGo_eq hk, h, himage]
  rfl

theorem exec_retsaveSave_refused (h : s.saveOk k v = false) : exec (.retsaveSave k v) s = .next (s.retsaveRefused k) := by
  show execRetsaveSave k v s = _
  rw [execRetsaveSave, State.retsaveGo_eq hk, h]
  rfl

theorem exec_retsaveRestore_refused (h : s.saveOk k v = false ∨ s.restoreOk k v = false) : exec (.retsaveRestore k v) s = .next (s.retsaveRefused k) := by
  have hno : (s.saveOk k v && (!true || s.restoreOk k v)) = false := by
    rcases h with h | h <;> simp [h]
  show execRetsaveRestore k v s = _
  rw [execRetsaveRestore, State.retsaveGo_eq hk, hno]
  rfl

end Retention

theorem State.retentionImage_length (s : State) (k : Nat) : (s.retentionImage k).length = 4096 := by
  rw [State.retentionImage, List.length_map, List.length_range]

section Done
variable {k : Nat} {s : State}

theorem exec_retsaveDone_save (hbusy : (s.cluster k).busy = true) (hfree : s.copied (.hbm (s.cluster k).work) 4096 = false) (hsaving : (s.cluster k).saving = true) :
    exec (.retsaveDone k) s = .next ((s.storeHbm (s.cluster k).work (s.retentionImage k)).setCluster k
      { s.cluster k with busy := false, done := true, saves := s.retentionImage k :: (s.cluster k).saves }) := by
  show execRetsaveDone k s = _
  simp only [execRetsaveDone, hbusy, hfree, hsaving, Bool.not_false, Bool.and_self, if_true]

theorem exec_retsaveDone_restore (hbusy : (s.cluster k).busy = true) (hfree : s.copied (.hbm (s.cluster k).work) 4096 = false) (hsaving : (s.cluster k).saving = false) :
    exec (.retsaveDone k) s = .next (s.setCluster k { s.cluster k with busy := false, done := true, ret := some (Memory.bytes s.hbm (s.cluster k).work 4096) }) := by
  show execRetsaveDone k s = _
  simp only [execRetsaveDone, hbusy, hfree, hsaving, Bool.not_false, Bool.and_self, Bool.false_eq_true, if_true, if_false]

/-- DONE: a save's image stands in memory and among those that a restore may read; a restore takes what it finds. -/
theorem exec_retsaveDone_done (hbusy : (s.cluster k).busy = true) (hfree : s.copied (.hbm (s.cluster k).work) 4096 = false) :
    ∃ t, exec (.retsaveDone k) s = .next t ∧ (t.cluster k).done = true ∧ (t.cluster k).busy = false ∧
      ((s.cluster k).saving = true → t.hbm = Memory.store s.hbm (s.cluster k).work (s.retentionImage k) ∧
        (t.cluster k).saves = s.retentionImage k :: (s.cluster k).saves ∧ (t.cluster k).ret = (s.cluster k).ret) ∧
      ((s.cluster k).saving = false → t.hbm = s.hbm ∧ (t.cluster k).ret = some (Memory.bytes s.hbm (s.cluster k).work 4096)) := by
  cases hsaving : (s.cluster k).saving with
  | true =>
    refine ⟨_, exec_retsaveDone_save hbusy hfree hsaving, ?_⟩
    rw [State.cluster_setCluster_self, State.setCluster_hbm, State.storeHbm_hbm (by rw [s.retentionImage_length, hfree])]
    exact ⟨rfl, rfl, fun _ => ⟨rfl, rfl, rfl⟩, fun h => Bool.noConfusion h⟩
  | false =>
    refine ⟨_, exec_retsaveDone_restore hbusy hfree hsaving, ?_⟩
    rw [State.cluster_setCluster_self, State.setCluster_hbm]
    exact ⟨rfl, rfl, fun h => Bool.noConfusion h, fun _ => ⟨rfl, rfl⟩⟩

theorem exec_retsaveDone_waits (h : (s.cluster k).busy = false ∨ s.copied (.hbm (s.cluster k).work) 4096 = true) : exec (.retsaveDone k) s = .next s := by
  have hno : ((s.cluster k).busy && !s.copied (.hbm (s.cluster k).work) 4096) = false := by
    rcases h with h | h <;> simp [h]
  show execRetsaveDone k s = _
  simp only [execRetsaveDone, hno, Bool.false_eq_true, if_false]

end Done

/-! ### CLKGATE and RAILGATE (R387) -/

section Gate
variable {k : Nat} {s : State}

theorem exec_clkgateSet_gates (hquiet : s.qack k = true) (hsaving : (s.cluster k).saving = true) (hdone : (s.cluster k).done = true) :
    exec (.clkgateSet k) s = .next (s.setCluster k { s.cluster k with gate := true }) := by
  show execClkgateSet k s = _
  simp only [execClkgateSet, hquiet, hsaving, hdone, Bool.and_self, if_true]

theorem exec_clkgateSet_ignored (h : s.qack k = false ∨ (s.cluster k).saving = false ∨ (s.cluster k).done = false) : exec (.clkgateSet k) s = .next s := by
  have hno : (s.qack k && (s.cluster k).saving && (s.cluster k).done) = false := by
    rcases h with h | h | h <;> simp [h]
  show execClkgateSet k s = _
  simp only [execClkgateSet, hno, Bool.false_eq_true, if_false]

theorem exec_clkgateClear (h : (s.cluster k).rail = 0) : exec (.clkgateClear k) s = .next (s.setCluster k { s.cluster k with gate := false }) :=
  congrArg _ (if_pos h)

theorem exec_clkgateClear_ignored (h : (s.cluster k).rail ≠ 0) : exec (.clkgateClear k) s = .next s := congrArg _ (if_neg h)

/-- Clocks that go on leave GAP records, which touch neither cores nor clusters (R351). -/
theorem exec_clockGateComplete_restarts (hstat : (s.cluster k).stat ≠ (s.cluster k).gate) (hgate : (s.cluster k).gate = false) :
    ∃ t, exec (.clockGateComplete k) s = .next t ∧ t.untraced = (s.setCluster k { s.cluster k with stat := false }).untraced := by
  refine ⟨_, congrArg Host.Outcome.next ((if_neg hstat).trans (if_neg (by rw [hgate]; exact Bool.false_ne_true))), ?_⟩
  exact State.foldl_keeps State.untraced (fun t n => by split <;> simp) _ _

/-- STAT follows GATE. -/
theorem exec_clockGateComplete (k : Nat) (s : State) :
    ∃ t, exec (.clockGateComplete k) s = .next t ∧ (t.cluster k).stat = (s.cluster k).gate ∧ t.cores = s.cores := by
  by_cases hstat : (s.cluster k).stat = (s.cluster k).gate
  · exact ⟨s, congrArg _ (if_pos hstat), hstat, rfl⟩
  · cases hgate : (s.cluster k).gate with
    | true =>
      refine ⟨s.setCluster k { s.cluster k with stat := true, gatedAt := s.wall }, congrArg _ ((if_neg hstat).trans (if_pos hgate)), ?_, rfl⟩
      rw [State.cluster_setCluster_self]
    | false =>
      obtain ⟨t, hexec, hrest⟩ := exec_clockGateComplete_restarts hstat hgate
      refine ⟨t, hexec, ?_, (State.cores_of_untraced hrest).trans rfl⟩
      rw [State.cluster_of_clusters (State.clusters_of_untraced hrest), State.cluster_setCluster_self]

theorem exec_railgateOff_off (hstat : (s.cluster k).stat = true) (hrail : (s.cluster k).rail = 2) :
    exec (.railgateOff k) s = .next (s.setCluster k { s.cluster k with off := true }) := by
  show execRailgateOff k s = _
  simp only [execRailgateOff, hstat, hrail, if_true]

theorem exec_railgateOff_on (hstat : (s.cluster k).stat = true) (hrail : (s.cluster k).rail ≠ 2) :
    exec (.railgateOff k) s = .next (s.setCluster k { s.cluster k with off := true, rail := 1 }) := by
  show execRailgateOff k s = _
  simp only [execRailgateOff, hstat, hrail, if_true, if_false]

theorem exec_railgateOff_ignored (hstat : (s.cluster k).stat = false) : exec (.railgateOff k) s = .next s := by
  show execRailgateOff k s = _
  simp only [execRailgateOff, hstat, Bool.false_eq_true, if_false]

theorem State.retargets_clusters (s : State) : s.retargets.clusters = s.clusters := by
  obtain ⟨pw, h⟩ := s.retargets_frame
  rw [h]

theorem exec_railgateOn_on (hrail : (s.cluster k).rail = 2) :
    ∃ t, exec (.railgateOn k) s = .next t ∧ (t.cluster k).rail = 3 ∧ (t.cluster k).off = false := by
  refine ⟨_, congrArg Host.Outcome.next (if_pos hrail), ?_⟩
  rw [State.cluster_of_clusters (State.retargets_clusters _), State.cluster_setCluster_self]
  exact ⟨rfl, rfl⟩

theorem exec_railgateOn_ignored (hrail : (s.cluster k).rail ≠ 2) : exec (.railgateOn k) s = .next s := congrArg _ (if_neg hrail)

/-! ### RAIL_SWITCH_COMPLETE (R387) -/

/-- A core whose SRAM is lost and whose registers stand at reset; what the package knows of it stays. -/
def Core.blanked (c : Core) : Core := { part := c.part, failed := c.failed, spared := c.spared }

/-- Every core of a cluster blank. -/
def State.blanked (s : State) (k : Nat) : State := (clusterCores k).foldl (fun s n => s.modCore n Core.blanked) s

theorem mem_clusterCores (c : Nat) : c ∈ clusterCores (c / 8) :=
  List.mem_map.mpr ⟨c % 8, List.mem_range.mpr (by omega), by omega⟩

theorem State.blanked_clusters (s : State) (k : Nat) : (s.blanked k).clusters = s.clusters :=
  State.foldl_keeps (·.clusters) (f := fun s n => s.modCore n Core.blanked) (fun _ _ => rfl) (clusterCores k) s

theorem State.core_blanked (s : State) {c : Nat} (hc : c / 8 = k) : ((s.blanked k).core c).sp = [] ∧ ((s.blanked k).core c).x = {} := by
  subst hc
  exact State.foldl_modCore_mem (f := Core.blanked) (P := fun d => d.sp = [] ∧ d.x = {}) (Q := fun _ => True) (fun _ _ => ⟨rfl, rfl⟩) (fun _ _ => trivial)
    (mem_clusterCores c) trivial

theorem exec_railSwitchComplete_off (hrail : (s.cluster k).rail = 1) :
    ∃ t, exec (.railSwitchComplete k) s = .next t ∧ (t.cluster k).rail = 2 ∧ ∀ c, c / 8 = k → (t.core c).sp = [] ∧ (t.core c).x = {} := by
  have hexec : exec (.railSwitchComplete k) s =
      .next ((s.setCluster k { s.cluster k with rail := 2, ret := none, losses := (s.cluster k).losses + 1 }).blanked k).retargets := congrArg _ (if_pos hrail)
  refine ⟨_, hexec, ?_, fun c hc => ?_⟩
  · rw [State.cluster_of_clusters ((State.retargets_clusters _).trans (State.blanked_clusters ..)), State.cluster_setCluster_self]
  · rw [State.core_retargets]
    exact State.core_blanked _ hc

theorem exec_railSwitchComplete_on (hrail : (s.cluster k).rail = 3) :
    ∃ t, exec (.railSwitchComplete k) s = .next t ∧ (t.cluster k).rail = 0 ∧ ∀ c, c / 8 = k → (t.core c).sp = [] ∧ (t.core c).x = {} := by
  have hexec : exec (.railSwitchComplete k) s = .next ((s.setCluster k { s.cluster k with rail := 0 }).blanked k) :=
    congrArg _ ((if_neg (by rw [hrail]; decide)).trans (if_pos hrail))
  refine ⟨_, hexec, ?_, fun c hc => State.core_blanked _ hc⟩
  rw [State.cluster_of_clusters (State.blanked_clusters ..), State.cluster_setCluster_self]

end Gate

/-! ### WAKE and WAKEACK (R388) -/

theorem exec_wakeSet_sets {k : Nat} (hk : k < 24) {who : ClientId} {s : State}
    (h : (∃ m, who = .mgmt m) ∨ ∃ p c, who = .client p ∧ c ∈ (s.part p).cores ∧ c / 8 = k) :
    exec (.wakeSet k who) s = .next (s.setCluster k { s.cluster k with wake := true }) := by
  rcases h with ⟨m, rfl⟩ | ⟨p, c, rfl, hc, hcluster⟩
  · exact congrArg _ (if_pos (by simp [hk]))
  · have howns : ((s.part p).cores.any fun c => coreCluster c == k) = true := List.any_eq_true.mpr ⟨c, hc, beq_iff_eq.mpr hcluster⟩
    exact congrArg _ (if_pos (by simp only [howns, hk, decide_true, Bool.and_self]))

/-- A client of a partition that owns no core of the cluster does not wake it. -/
theorem exec_wakeSet_ignored {k p : Nat} {s : State} (h : ∀ c ∈ (s.part p).cores, c / 8 ≠ k) : exec (.wakeSet k (.client p)) s = .next s := by
  have hnone : ((s.part p).cores.any fun c => coreCluster c == k) = false := List.any_eq_false.mpr fun c hc heq => h c hc (beq_iff_eq.mp heq)
  exact congrArg _ (if_neg (by simp only [hnone, Bool.false_and, Bool.false_eq_true, not_false_eq_true]))

theorem exec_wakeackAck {k : Nat} (hk : k < 24) (s : State) :
    exec (.wakeackAck k) s = .next (s.setCluster k { s.cluster k with wake := false, count := ((s.cluster k).count + 1) % 65536 }) :=
  congrArg _ (if_pos hk)

/-- Settles O54. -/
theorem clusterParking : Obligations.ClusterParking := by
  unfold Obligations.ClusterParking
  exact ⟨fun k v s hk => ⟨fun hstat h => exec_qreqReq_ignored hstat h, fun h => exec_qreqReq_taken hk h⟩,
    fun k s hk => ⟨fun h => exec_qreqEvict_requested hk h, fun h => exec_qreqEvict_unrequested hk h⟩,
    fun k v s hk => ⟨fun hquiet haligned hidle =>
        have hsave := State.saveOk_of hquiet haligned hidle
        ⟨exec_retsaveSave_taken hk hsave, fun hrail himage => exec_retsaveRestore_taken hk hsave (State.restoreOk_of hrail himage),
          fun h => exec_retsaveRestore_refused hk (.inr (State.restoreOk_not h))⟩,
      fun h => ⟨exec_retsaveSave_refused hk (State.saveOk_not h), exec_retsaveRestore_refused hk (.inl (State.saveOk_not h))⟩⟩,
    fun k s => ⟨fun hbusy hfree => exec_retsaveDone_done hbusy hfree, fun h => exec_retsaveDone_waits h⟩,
    fun k s => ⟨fun hquiet hsaving hdone => exec_clkgateSet_gates hquiet hsaving hdone, fun h => exec_clkgateSet_ignored h, fun h => exec_clkgateClear h,
      fun h => exec_clkgateClear_ignored h, exec_clockGateComplete k s, fun hstat hrail => exec_railgateOff_on hstat hrail,
      fun hstat hrail => exec_railgateOff_off hstat hrail, fun hstat => exec_railgateOff_ignored hstat, fun hrail => exec_railgateOn_on hrail,
      fun hrail => exec_railgateOn_ignored hrail, fun hrail => exec_railSwitchComplete_off hrail, fun hrail => exec_railSwitchComplete_on hrail⟩,
    fun k who s hk => ⟨fun h => exec_wakeSet_sets hk h, fun p hwho h => hwho ▸ exec_wakeSet_ignored h, exec_wakeackAck hk s⟩⟩

end Sys2Proof.Machine

/-! PROOFS. Boot, attestation and health: stages, quotes, restarts, channels and cores (O55). -/

namespace Sys2Proof.Machine

/-! ### Stages (R394, R395, R397) -/

section Stage
variable {s : State} {g : StageImage}

/-- Acceptance reads only the log of what has been measured. -/
theorem State.stageOk_of_log {t : State} (h : t.balore.log = s.balore.log) (g : StageImage) : t.stageOk g = s.stageOk g := by
  simp only [State.stageOk, h]

/-- The root's own record of an accepted stage. -/
def Balore.measured (b : Balore) (g : StageImage) : Balore :=
  { b with m := sha384 (b.m ++ sha384 g.image), log := b.log ++ [(g.stage, sha384 g.image)], running := b.running ++ [g.stage] }

/-- Whether an accepted stage is stage-1 firmware, which is placed in memory: stage 1 or an update of it. -/
def firstStage (g : StageImage) : Bool := g.stage == 1 || (decide (4 ≤ g.stage) && g.updates == 1)

/-- An accepted stage, measured and placed. -/
def State.stagePlaced (s : State) (g : StageImage) : State :=
  if firstStage g then ({ s with balore := { s.balore.measured g with stage1 := some g } } : State).storeHbm g.base g.image else { s with balore := s.balore.measured g }

theorem State.loadStage_accepted (h : s.stageOk g = true) : s.loadStage g = if g.stage = 1 then (s.stagePlaced g).startMgmt 0 g else s.stagePlaced g := by
  unfold State.loadStage
  rw [if_pos h]
  unfold State.stagePlaced firstStage
  dsimp only
  cases (g.stage == 1 || (decide (4 ≤ g.stage) && g.updates == 1)) <;> rfl

theorem State.loadStage_refused (h : s.stageOk g = false) :
    s.loadStage g = { s with balore := { s.balore with health := s.balore.health ||| 0x0001000000000000#64 } } :=
  if_neg (by rw [h]; exact Bool.false_ne_true)

/-- What a write of the device's own to HBM leaves as it is. -/
theorem State.storeHbm_frame (s : State) (a : Nat) (d : Bytes) : ∃ m b l, s.storeHbm a d = { s with hbm := m, bad := b, delayed := l } := by
  unfold State.storeHbm
  split
  · exact ⟨s.hbm, s.bad, _, rfl⟩
  · exact ⟨_, _, s.delayed, rfl⟩

theorem State.stagePlaced_frame (s : State) (g : StageImage) :
    ∃ m b l st, s.stagePlaced g = { s with hbm := m, bad := b, delayed := l, balore := { s.balore.measured g with stage1 := st } } := by
  unfold State.stagePlaced
  split
  · obtain ⟨m, b, l, h⟩ := ({ s with balore := { s.balore.measured g with stage1 := some g } } : State).storeHbm_frame g.base g.image
    exact ⟨m, b, l, some g, h⟩
  · exact ⟨s.hbm, s.bad, s.delayed, s.balore.stage1, rfl⟩

/-- An accepted stage extends M and the log; beside memory and the root only a management core changes. -/
theorem State.loadStage_frame (h : s.stageOk g = true) :
    ∃ m b l st mg, s.loadStage g = { s with hbm := m, bad := b, delayed := l, balore := { s.balore.measured g with stage1 := st }, mgmt := mg } := by
  obtain ⟨m, b, l, st, hplaced⟩ := s.stagePlaced_frame g
  rw [State.loadStage_accepted h, hplaced]
  split
  · exact ⟨m, b, l, st, _, rfl⟩
  · exact ⟨m, b, l, st, s.mgmt, rfl⟩

/-- Stage 1 starts management core 0 at its entry, from the image at its base (R394). -/
theorem State.loadStage_first (hok : s.stageOk g = true) (hstage : g.stage = 1) (hcopying : s.copying = []) :
    (s.loadStage g).hbm = Memory.store s.hbm g.base g.image ∧
      (s.loadStage g).mcore 0 = { a := { k := { pc := BitVec.ofNat 64 (3 * 2 ^ 60 + g.entry) } }, halted := false } := by
  have hfirst : firstStage g = true := by rw [firstStage, hstage]; rfl
  rw [State.loadStage_accepted hok, if_pos hstage, State.stagePlaced, if_pos hfirst, State.startMgmt, State.mcore_setMcore_self, State.setMcore_hbm,
    State.storeHbm_free _ _ _ (State.copied_of_nothing_copied (by exact hcopying) _ _)]
  exact ⟨rfl, rfl⟩

theorem health_refused (h : Word) : (h ||| 0x0001000000000000#64).getLsbD 48 = true := by
  rw [BitVec.getLsbD_or, show (0x0001000000000000#64).getLsbD 48 = true from by decide, Bool.or_true]

/-! ### PACKAGE_RESET (R394) -/

/-- Everything back at reset but for what lies outside the package's registers: memory, peers, marks of HBM, and what saved images are checked against. -/
def State.rebooted (s : State) : State :=
  { State.reset with
    hbm := s.hbm, peer := s.peer, bad := s.bad.filter fun b => b.1 == 0, free := s.free, turns := s.turns
    clusters := (List.range 24).foldl (fun st k => sset {} k { saves := (s.cluster k).saves } st) [] }

theorem exec_packageReset (hstage : g.stage = 1) (s : State) :
    exec (.packageReset g) s = .next ((({ s with copying := [], delayed := [] } : State).storeDelayed s.delayed).rebooted.loadStage g) :=
  congrArg Host.Outcome.next (if_pos hstage)

/-- The ROM after a reset: stage 1 is measured and started, or refused and recorded in HEALTH (R394, R397). -/
theorem State.loadStage_rebooted (hstage : g.stage = 1) (d : State) :
    (d.rebooted.loadStage g).cores = [] ∧ (d.rebooted.loadStage g).groups = [] ∧ (d.rebooted.loadStage g).parts = [] ∧ (d.rebooted.loadStage g).power = {} ∧
    (if State.reset.stageOk g then (d.rebooted.loadStage g).balore.m = sha384 (List.replicate 48 0#8 ++ sha384 g.image) ∧
        (d.rebooted.loadStage g).balore.log = [(1, sha384 g.image)] ∧ ((d.rebooted.loadStage g).mcore 0).halted = false ∧
        ((d.rebooted.loadStage g).mcore 0).a.k.pc = BitVec.ofNat 64 (3 * 2 ^ 60 + g.entry) ∧ (d.rebooted.loadStage g).hbm = Memory.store d.hbm g.base g.image
      else (d.rebooted.loadStage g).balore.health.getLsbD 48 = true ∧ (d.rebooted.loadStage g).balore.log = [] ∧
        (∀ n, ((d.rebooted.loadStage g).mcore n).halted = true) ∧ (d.rebooted.loadStage g).hbm = d.hbm) := by
  have hok : d.rebooted.stageOk g = State.reset.stageOk g := State.stageOk_of_log rfl g
  cases h : State.reset.stageOk g with
  | true =>
    rw [h] at hok
    obtain ⟨hhbm, hmcore⟩ := State.loadStage_first hok hstage rfl
    obtain ⟨m, b, l, st, mg, hloaded⟩ := State.loadStage_frame hok
    rw [if_pos rfl, hmcore, hhbm, hloaded]
    refine ⟨rfl, rfl, rfl, rfl, rfl, ?_, rfl, rfl, rfl⟩
    show [] ++ [(g.stage, sha384 g.image)] = _
    rw [hstage, List.nil_append]
  | false =>
    rw [h] at hok
    rw [if_neg Bool.false_ne_true, State.loadStage_refused hok]
    exact ⟨rfl, rfl, rfl, rfl, health_refused _, rfl, fun _ => rfl, rfl⟩

/-! ### STAGE_LOAD (R394) -/

theorem exec_stageLoad_early (h : s.stageDue g = false) : exec (.stageLoad g) s = .next s := by
  show execStageLoad g s = _
  simp only [execStageLoad, h, Bool.not_false, if_true]

theorem exec_stageLoad (h : s.stageDue g = true) :
    exec (.stageLoad g) s = .next { s.loadStage g with reply := .status (if s.stageOk g then 0#64 else 1#64) } := by
  show execStageLoad g s = _
  simp only [execStageLoad, h, Bool.not_true, Bool.false_eq_true, if_false]

theorem exec_stageLoad_due (h : s.stageDue g = true) : ∃ t, exec (.stageLoad g) s = .next t ∧ t.cores = s.cores ∧
    (if s.stageOk g then t.balore.m = sha384 (s.balore.m ++ sha384 g.image) ∧ t.balore.log = s.balore.log ++ [(g.stage, sha384 g.image)] ∧
      t.reply = .status 0#64
    else t.balore.m = s.balore.m ∧ t.balore.log = s.balore.log ∧ t.balore.health.getLsbD 48 = true ∧ t.hbm = s.hbm ∧ t.reply = .status 1#64) := by
  refine ⟨_, exec_stageLoad h, ?_⟩
  cases hok : s.stageOk g with
  | true =>
    obtain ⟨m, b, l, st, mg, hloaded⟩ := State.loadStage_frame hok
    rw [hloaded]
    exact ⟨rfl, rfl, rfl, rfl⟩
  | false =>
    rw [State.loadStage_refused hok]
    exact ⟨rfl, rfl, rfl, health_refused _, rfl, rfl⟩

end Stage

/-! ### ATTGO_WRITE (R396) -/

section Attest
variable {p : Nat} {v : Word} {s : State}

theorem exec_attgoWrite_ignored (h : s.attgoIgnored p v = true) : exec (.attgoWrite p v) s = .next s := by
  show execAttgoWrite p v s = _
  simp only [execAttgoWrite, h, Bool.true_or, if_true]

theorem State.attgoIgnored_pointer (h : v.toNat / 2 ^ 48 ≠ 0 ∨ v.toNat % 64 ≠ 0) (p : Nat) (s : State) : s.attgoIgnored p v = true := by
  unfold State.attgoIgnored
  rcases h with h | h
  · rw [decide_eq_true h, Bool.true_or, Bool.true_or]
  · rw [decide_eq_true h, Bool.or_true, Bool.true_or]

theorem State.attgoIgnored_unanswered (hasked : (s.part p).reg 0x870 ≠ 0#64) (hbit : ((s.part p).reg 0x878).getLsbD 0 = false) (v : Word) :
    s.attgoIgnored p v = true := by
  unfold State.attgoIgnored
  rw [hbit, bne_iff_ne.mpr hasked, Bool.not_false, Bool.and_self, Bool.or_true]

theorem State.attgoIgnored_not (hspace : v.toNat < 2 ^ 48) (haligned : v.toNat % 64 = 0)
    (h : (s.part p).reg 0x870 = 0#64 ∨ ((s.part p).reg 0x878).getLsbD 0 = true) : s.attgoIgnored p v = false := by
  have hpointer : v.toNat / 2 ^ 48 = 0 := Nat.div_eq_of_lt hspace
  have hanswered : ((s.part p).reg 0x870 != 0#64 && !((s.part p).reg 0x878).getLsbD 0) = false := by
    rcases h with h | h
    · rw [h, bne_self_eq_false, Bool.false_and]
    · rw [h, Bool.not_true, Bool.and_false]
  unfold State.attgoIgnored
  rw [hanswered, hpointer, haligned]
  rfl

/-- The answer of ATTGO: one has been asked for, and ATTSTAT says whether it stands at its pointer. -/
def Part.attested (q : Part) (written : Bool) : Part := (q.setReg 0x870 1#64).setReg 0x878 (if written then 1#64 else 0#64)

theorem Part.attested_stat (q : Part) (written : Bool) : (q.attested written).reg 0x878 = if written then 1#64 else 0#64 := Part.reg_setReg_self ..

section Answered
variable {q : Bytes} (hq : s.nonceQuote p = q) (h : s.attgoIgnored p v = false) (hcopying : s.copying = [])
include h hcopying

theorem State.attgo_goes : (s.attgoIgnored p v || s.attgoHeld p v) = false := by
  rw [State.attgoHeld, h, State.vaCopied_of_nothing_copied hcopying, Bool.and_false, Bool.or_self]

include hq

/-- With no channel being copied a quote that is asked for is written, where its pages may be. -/
theorem exec_attgoWrite_written {l : List (Place × Nat)} (hplaces : s.places p v.toNat q.length true = some l) :
    exec (.attgoWrite p v) s = .next ((s.writePlaces l q).modPart p (Part.attested · true)) := by
  show execAttgoWrite p v s = _
  simp only [execAttgoWrite, State.attgo_goes h hcopying, hq, hplaces, Bool.false_eq_true, if_false]
  rfl

/-- Where a page refuses it, only ATTSTAT says so. -/
theorem exec_attgoWrite_unwritten (hplaces : s.places p v.toNat q.length true = none) :
    exec (.attgoWrite p v) s = .next (s.modPart p (Part.attested · false)) := by
  show execAttgoWrite p v s = _
  simp only [execAttgoWrite, State.attgo_goes h hcopying, hq, hplaces, Bool.false_eq_true, if_false]
  rfl

end Answered

end Attest

/-! ### MCCTL_RESTART (R398) -/

theorem State.mcore_setMcore_other (s : State) {n m : Nat} (v : Mgmt) (h : m ≠ n) : (s.setMcore n v).mcore m = s.mcore m := sget_sset_other _ _ _ h

/-- What MCCTL makes of management core n with its report cleared. -/
def State.reportCleared (s : State) (n : Nat) : State :=
  { s with balore := { s.balore with
    health := s.balore.health &&& ~~~(1#64 <<< (52 + n))
    mcstat := BitVec.ofNat 64 (s.balore.mcstat.toNat - s.balore.mcstat.toNat / 256 ^ n % 256 * 256 ^ n) } }

/-- One bit of MCCTL: a management core that it names starts at the entry of the latest accepted stage-1 image. -/
def State.restartNamed (v : Word) (s : State) (n : Nat) : State :=
  if v.getLsbD n then
    match s.balore.stage1 with
    | some g => (s.reportCleared n).startMgmt n g
    | none => s
  else s

section Restart
variable {w : Nat} {v : Word} {g : StageImage} {s : State}

theorem exec_mcctlRestart_ignored (h : 4 ≤ w ∨ (s.mcore w).halted = true ∨ v.getLsbD w = true) : exec (.mcctlRestart w v) s = .next s := by
  have hignored : (decide (4 ≤ w) || (s.mcore w).halted || v.getLsbD w) = true := by
    rcases h with h | h | h
    · rw [decide_eq_true h, Bool.true_or, Bool.true_or]
    · rw [h, Bool.or_true, Bool.true_or]
    · rw [h, Bool.or_true]
  exact congrArg Host.Outcome.next (if_pos hignored)

theorem exec_mcctlRestart (hw : w < 4) (hruns : (s.mcore w).halted = false) (hself : v.getLsbD w = false) :
    exec (.mcctlRestart w v) s = .next ((List.range 4).foldl (State.restartNamed v) s) := by
  have htaken : (decide (4 ≤ w) || (s.mcore w).halted || v.getLsbD w) = false := by
    rw [hruns, hself, decide_eq_false (by omega)]
    rfl
  exact congrArg Host.Outcome.next (if_neg (by rw [htaken]; exact Bool.false_ne_true))

theorem State.restartNamed_cores (v : Word) (s : State) (n : Nat) : (State.restartNamed v s n).cores = s.cores := by
  unfold State.restartNamed
  split
  · split <;> rfl
  · rfl

/-- What a restart reads: the management core itself and the latest accepted stage-1 image. -/
def State.mgmtView (s : State) (n : Nat) : Mgmt × Option StageImage := (s.mcore n, s.balore.stage1)

theorem State.restartNamed_other (v : Word) (s : State) {n m : Nat} (h : m ≠ n) : (State.restartNamed v s n).mgmtView m = s.mgmtView m := by
  unfold State.restartNamed
  split
  · split
    · exact Prod.ext (State.mcore_setMcore_other _ _ h) rfl
    · rfl
  · rfl

theorem State.mcore_restartNamed (hstage : s.balore.stage1 = some g) {n : Nat} (h : v.getLsbD n = true) :
    (State.restartNamed v s n).mcore n = { a := { k := { pc := BitVec.ofNat 64 (3 * 2 ^ 60 + g.entry) } }, halted := false } := by
  rw [State.restartNamed, if_pos h, hstage]
  exact State.mcore_setMcore_self ..

theorem State.restartNamed_unnamed {n : Nat} (h : v.getLsbD n = false) : State.restartNamed v s n = s := if_neg (by rw [h]; exact Bool.false_ne_true)

/-- MCCTL by a running management core restarts the ones that it names, and leaves the others. -/
theorem exec_mcctlRestart_restarts (hstage : s.balore.stage1 = some g) (hw : w < 4) (hruns : (s.mcore w).halted = false) (hself : v.getLsbD w = false) :
    ∃ t, exec (.mcctlRestart w v) s = .next t ∧ t.cores = s.cores ∧
      ∀ n, n < 4 → (v.getLsbD n = true → (t.mcore n).halted = false ∧ (t.mcore n).a.k.pc = BitVec.ofNat 64 (3 * 2 ^ 60 + g.entry)) ∧
        (v.getLsbD n = false → t.mcore n = s.mcore n) := by
  refine ⟨_, exec_mcctlRestart hw hruns hself, State.foldl_keeps (·.cores) (State.restartNamed_cores v) (List.range 4) s, fun n hn => ?_⟩
  obtain ⟨t, hbefore, hafter⟩ := State.foldl_at_mem (v := State.mgmtView) (fun t _ _ h => State.restartNamed_other v t h) List.nodup_range (List.mem_range.mpr hn) s
  have hstage' : t.balore.stage1 = some g := (congrArg Prod.snd hbefore).trans hstage
  have hmcore : ((List.range 4).foldl (State.restartNamed v) s).mcore n = (State.restartNamed v t n).mcore n := congrArg Prod.fst hafter
  rw [hmcore]
  refine ⟨fun h => ?_, fun h => ?_⟩
  · rw [State.mcore_restartNamed hstage' h]
    exact ⟨rfl, rfl⟩
  · rw [State.restartNamed_unnamed h]
    exact congrArg Prod.fst hbefore

end Restart

/-! ### Channels (R400) -/

section Channel
variable {c : Nat} {s : State}

theorem health_replace (h : Word) : (h ||| 0x8000000000000000#64).getLsbD 63 = true := by
  rw [BitVec.getLsbD_or, show (0x8000000000000000#64).getLsbD 63 = true from by decide, Bool.or_true]

/-- A count of HEALTH sets REPLACE (R397). -/
theorem State.countHealth_replace (s : State) (lo width most : Nat) : (s.countHealth lo width most).balore.health.getLsbD 63 = true := health_replace _

/-- The spares of a channel's stack that are in use. -/
def State.sparesUsed (s : State) (c : Nat) : Nat := ((s.remapped ++ s.copying).filter fun d => Config.stackOf d == Config.stackOf c).length

theorem exec_channelRetire_copies (hc : c ∉ s.copying) (h : s.sparesUsed c < 2) :
    ∃ t, exec (.channelRetire c) s = .next t ∧ t.copying = s.copying ++ [c] ∧ t.balore.health.getLsbD 63 = true ∧ t.hbm = s.hbm := by
  have hexec : exec (.channelRetire c) s = .next { s.countHealth 40 8 255 with copying := s.copying ++ [c] } :=
    congrArg Host.Outcome.next ((if_neg (by simpa using hc)).trans (if_pos h))
  exact ⟨_, hexec, rfl, s.countHealth_replace 40 8 255, rfl⟩

theorem exec_channelRetire_dead (hc : c ∉ s.copying) (h : 2 ≤ s.sparesUsed c) :
    ∃ t, exec (.channelRetire c) s = .next t ∧ c ∈ t.dead ∧ t.balore.health.getLsbD 63 = true := by
  refine ⟨_, congrArg Host.Outcome.next ((if_neg (by simpa using hc)).trans (if_neg (Nat.not_lt.mpr h))), mem_lostNodes_insert s.dead c, ?_⟩
  exact health_replace s.balore.health

theorem exec_channelCopyComplete (hc : c ∈ s.copying) : exec (.channelCopyComplete c) s =
    .next (({ s with copying := s.copying.filter (· != c), remapped := s.remapped ++ [c], delayed := [] } : State).storeDelayed s.delayed) :=
  congrArg Host.Outcome.next (if_pos (by simpa using hc))

theorem exec_channelCopyComplete_none (hc : c ∉ s.copying) : exec (.channelCopyComplete c) s = .next s :=
  congrArg Host.Outcome.next (if_neg (by simpa using hc))

end Channel

/-! ### CORE_RETIRE (R401) -/

section Retire
variable {n : Nat} {s : State} (hn : n < 192)

/-- The spares of a core's die that are in use, as HEALTH counts them (R397). -/
def State.coreSpares (s : State) (n : Nat) : Nat := s.balore.health.toNat / 2 ^ (if n / 96 = 0 then 24 else 28) % 16

include hn

theorem exec_coreRetire_unowned (howner : (s.core n).owner = 0) : exec (.coreRetire n) s = .next (s.retireCore n) :=
  congrArg Host.Outcome.next ((if_neg (by omega)).trans (if_pos howner))

theorem exec_coreRetire_spared (howner : (s.core n).owner = 0) (h : s.coreSpares n < 4) :
    ∃ t, exec (.coreRetire n) s = .next t ∧ (t.core n).spared = true ∧ (t.core n).failed = false ∧ t.balore.health.getLsbD 63 = true := by
  have hretire : s.retireCore n = (s.countHealth (if coreDie n = 0 then 24 else 28) 4 4).setCore n { part := (s.core n).part, spared := true } := if_pos h
  refine ⟨_, (exec_coreRetire_unowned hn howner).trans (congrArg _ hretire), ?_⟩
  rw [State.core_setCore_self, State.setCore_balore]
  exact ⟨rfl, rfl, State.countHealth_replace ..⟩

theorem exec_coreRetire_fails (howner : (s.core n).owner = 0) (h : 4 ≤ s.coreSpares n) (hfailed : (s.core n).failed = false) :
    ∃ t, exec (.coreRetire n) s = .next t ∧ (t.core n).failed = true := by
  have hretire : s.retireCore n = (s.countHealth 32 8 255).setCore n { s.core n with failed := true, retiring := false } :=
    (if_neg (Nat.not_lt.mpr h)).trans (if_neg (by rw [hfailed]; exact Bool.false_ne_true))
  refine ⟨_, (exec_coreRetire_unowned hn howner).trans (congrArg _ hretire), ?_⟩
  rw [State.core_setCore_self]

theorem exec_coreRetire_failed (howner : (s.core n).owner = 0) (h : 4 ≤ s.coreSpares n) (hfailed : (s.core n).failed = true) :
    exec (.coreRetire n) s = .next s :=
  (exec_coreRetire_unowned hn howner).trans (congrArg _ ((if_neg (Nat.not_lt.mpr h)).trans (if_pos hfailed)))

/-- A group on the core is pre-empted first. -/
theorem exec_coreRetire_owned {g : Grp} (howner : (s.core n).owner ≠ 0) (hat : s.grpAt n = some g) :
    exec (.coreRetire n) s = .next ((s.modCore n fun c => { c with retiring := true }).preempt g.num) := by
  have hat' : (s.modCore n fun c => { c with retiring := true }).grpAt n = some g := (State.grpAt_modCore rfl).trans hat
  show execCoreRetire n s = _
  simp only [execCoreRetire, if_neg (show ¬ 192 ≤ n by omega), if_neg howner, hat']

end Retire

/-- Nothing is placed on a core that is to be retired. -/
theorem State.coreFree_retiring {s : State} {n : Nat} (h : (s.core n).retiring = true) (p a : Nat) : s.coreFree p a n = false := by
  simp [State.coreFree, h]

/-- Settles O55. -/
theorem bootAndHealth : Obligations.BootAndHealth := by
  unfold Obligations.BootAndHealth
  refine ⟨fun g s hstage => ⟨_, exec_packageReset hstage s, ?reset⟩,
    fun g s => ⟨fun h => exec_stageLoad_early h, fun h => exec_stageLoad_due h⟩,
    fun p v s => ⟨fun h => exec_attgoWrite_ignored (State.attgoIgnored_pointer h p s),
      fun hasked hbit => exec_attgoWrite_ignored (State.attgoIgnored_unanswered hasked hbit v),
      fun hspace haligned h hcopying => ?answered⟩,
    fun w v g s => ⟨fun h => exec_mcctlRestart_ignored h, fun hstage hw hruns hself => exec_mcctlRestart_restarts hstage hw hruns hself⟩,
    fun c s => ⟨fun hc h => exec_channelRetire_copies hc h, fun hc h => exec_channelRetire_dead hc h, fun hc => exec_channelCopyComplete hc,
      fun hc => exec_channelCopyComplete_none hc⟩,
    fun n s hn => ⟨fun howner h => exec_coreRetire_spared hn howner h, fun howner h hfailed => exec_coreRetire_fails hn howner h hfailed,
      fun howner h hfailed => exec_coreRetire_failed hn howner h hfailed, fun g howner hat => exec_coreRetire_owned hn howner hat,
      fun p a h => State.coreFree_retiring h p a⟩⟩
  case answered =>
    have hasked := State.attgoIgnored_not hspace haligned h
    intro q
    have hq : s.nonceQuote p = q := rfl
    clear_value q
    cases hplaces : s.places p v.toNat q.length true with
    | some l =>
      refine ⟨_, exec_attgoWrite_written hq hasked hcopying hplaces, rfl, rfl, ?_⟩
      rw [State.part_modPart_self]
      exact Part.attested_stat ..
    | none =>
      refine ⟨_, exec_attgoWrite_unwritten hq hasked hcopying hplaces, rfl, rfl, ?_⟩
      rw [State.part_modPart_self]
      exact Part.attested_stat ..
  case reset =>
    obtain ⟨hcores, hgroups, hparts, hpower, hstage1⟩ := State.loadStage_rebooted hstage (({ s with copying := [], delayed := [] } : State).storeDelayed s.delayed)
    exact ⟨hcores, hgroups, hparts, hpower, hstage1, fun h => by rw [h]; rfl⟩

end Sys2Proof.Machine
